-- ==== Sys2Proof/Word.lean ====
section
/-! DEFINITION. Words, bytes, and the records that outside agents hand to the device. -/

namespace Sys2Proof

/-- A register's 64 bits (R137). -/
abbrev Word := BitVec 64

/-- One byte (R3). -/
abbrev Byte := BitVec 8

/-- A 6-bit scalar register field (R137): 0-31 name x0-x31, 32-47 name h0-h15, 48-63 nothing. -/
abbrev RegField := BitVec 6

/-- A message as the network carries it (R44, R46, R226). -/
structure Msg where
  rtag   : Nat
  words  : List Word
  remote : Bool
  peer   : Nat
  score  : Nat
  sslot  : Nat
  deriving DecidableEq, Repr, Inhabited

/-- The kinds of work a peer sends (R59, R87, R404, R424). What serves collectives and messages between devices has no row of its own in the opcode table:
its form is the model's, log 46. `collective` is a member's contribution to a group's collective (R307), or its annulment before acceptance (R68);
`accepted` and `refused` answer the message `num` that this device sent, and `freed` is a core's free-slot notice (R45). -/
inductive PeerOp where
  | load (bytes : Nat)
  | store (bytes : Nat)
  | amo (op bytes : Nat)
  | cas (bytes : Nat)
  | red (op bytes : Nat)
  | fred (bf16 : Bool)
  | message (num core cls : Nat) (m : Msg)
  | collective (group rank seq : Nat) (fields : List Nat) (dead : Bool)
  | accepted (num : Nat)
  | refused (num : Nat)
  | freed (core : Nat)
  deriving DecidableEq, Repr

/-- What a device answers a peer (R45, R59, R404, R426): the bytes a load or atomic asked for, a failure by its trap cause (R349), that it has no entry for
the request, that a proxy's drain is complete, that a message was accepted or refused, or that a core it was refused by has freed a place. -/
inductive PeerAnswer where
  | value (data : List Byte)
  | failed (cause : Nat)
  | noproxy
  | drained
  | accepted (num : Nat)
  | refused (num : Nat)
  | freed (core : Nat)
  deriving DecidableEq, Repr

/-- One piece of work arriving over a Tlamet port (R59, R106, R404, R424): its sender, the slot there (32,768 for an engine), the request it runs under there,
the instant and class the proxy takes, and the operation. -/
structure PeerWork where
  port    : Nat
  dev     : Nat
  part    : Nat
  slot    : Nat := 32768
  rtag    : Nat
  instant : Nat
  cls     : Nat
  op      : PeerOp
  addr    : Nat
  data    : List Byte
  compare : Word
  deriving DecidableEq, Repr

/-- A Valsis firmware image: header (SVN and public key), body and signature (R437). -/
structure Image where
  svn       : Nat
  publicKey : List Byte
  body      : List Byte
  signature : List Byte
  deriving DecidableEq, Repr

/-- A namespace of a drive (R309, R429): its root port, NSID, capacity in 4 KiB blocks, and that its format is 4 KiB without metadata. -/
structure Namespace where
  port   : Nat
  nsid   : Nat
  blocks : Nat
  format : Bool
  deriving DecidableEq, Repr

/-- What one calibration pass finds (R435, R436). -/
structure Calibration where
  hbm    : Bool
  links  : List Bool
  ports  : List Bool
  drives : List Bool
  spaces : List Namespace
  deriving DecidableEq, Repr

/-- What the power controller measures in one period (R415, R418): tile powers, the module's at its end, and the module's greatest during the period, in mW. -/
structure PowerReading where
  tiles : List Nat
  total : Nat
  peak  : Nat
  deriving DecidableEq, Repr

end Sys2Proof
end

