-- ==== Sys2Proof/Config.lean ====
section
/-! DEFINITION. The free values of the model: what the manual leaves open. None has a body, so no proof can rest on a value. -/

namespace Sys2Proof.Config

/-- Nanoseconds that pass in one step: the manual's latencies are nominal (R10, R11). DESIGN CHOICE, log 4. -/
opaque elapsed : Nat → Nat

/-- Which of the values R99 permits a cacheable load returns. Free, log 5. -/
opaque loadPoint : Nat → Nat

/-- Which line leaves a full L1 or a full victim pool (R79, R98). Free, log 6. -/
opaque earlyLine : Nat → Nat

/-- A byte the manual calls a mix of old and new, or any value (R64, R283). Free, log 7. -/
opaque freeByte : Nat → Byte

/-- A choice the manual leaves to the device among permitted ones (R36, R45, R302, R393). Free, log 8. -/
opaque pick : Nat → Nat

/-- Whether the host grants an address translation (R419). Free, log 12. -/
opaque hostGrants : Nat → Bool

/-- How a peer answers an engine's read: 0 with data, else an error code of R299, 14 NOPROXY among them (R425). Free, log 7. -/
opaque peerAnswers : Nat → Nat

/-- Whether a copy sees a value published after its start (R111). Free, log 9. -/
opaque sourcePoint : Nat → Nat

/-- The private half of the device identity key and its public seed, which the ROM derives from the fused device secret by a way the manual does not give
(R439): 24 bytes each, as FIPS 205 gives SLH-DSA-SHA2-192s, the first in the lowest bits. Log 10. -/
opaque identitySecret : BitVec 192
opaque identityPrf : BitVec 192
opaque identitySeed : BitVec 192

/-- The randomizer of a signature (FIPS 205, R439). Log 10. -/
opaque slhRandom : Nat → BitVec 192

/-- The device's certificate chain in management flash (R439). Log 10. -/
opaque certificateChain : List Byte

/-- The bytes of the on-die ROM that measurement 1 digests (R438). Log 10. -/
opaque romImage : List Byte

/-- The fuses that measurement 4 digests beside the vendor key digest and the rollback counter, device secret excluded (R438). Log 10. -/
opaque fuseImage : List Byte

/-- Flits and headers of SPDM responses the manual does not lay out (R439). Log 10. -/
opaque spdmPayload : Nat → List Byte

end Sys2Proof.Config
end

