-- ==== Sys2Proof/Machine/Numbers.lean ====
section
/-! DEFINITION. Number formats and exact arithmetic (R114-R136): exact values, one rounding, conversions, special functions. -/

namespace Sys2Proof.Machine

/-- An exact value: (-1)^neg m 2^e with its sign kept at zero, an infinity, a NaN (quiet or signalling, with sign and its fraction's high
bits as an 80-bit fraction), or NAR (R116, R122, R129). -/
inductive Val where
  | num (neg : Bool) (m : Nat) (e : Int)
  | inf (neg : Bool)
  | nan (signalling neg : Bool) (frac : Nat)
  | nar
  deriving DecidableEq, Repr, Inhabited

/-- Rounding modes (R119). -/
inductive RM where
  | rne | rtz | rup | rdn
  deriving DecidableEq, Repr

/-- The RM field (R119). -/
def RM.of (b : BitVec 2) : RM :=
  match b.toNat with
  | 0 => .rne
  | 1 => .rtz
  | 2 => .rup
  | _ => .rdn

/-- The sticky flags NV, DZ, OF, UF, NX at bits 4-0 (R121). -/
abbrev Flags := BitVec 5
def Flags.nv : Flags := 16
def Flags.dz : Flags := 8
def Flags.of : Flags := 4
def Flags.uf : Flags := 2
def Flags.nx : Flags := 1

/-- A binary interchange format: precision with the hidden bit, exponent width; the rest follows (R116, R129). -/
structure Fmt where
  p : Nat
  ew : Nat
  deriving DecidableEq, Repr

def fF32 : Fmt := { p := 24, ew := 8 }
def fF16 : Fmt := { p := 11, ew := 5 }
def fBF16 : Fmt := { p := 8, ew := 8 }
def fW96 : Fmt := { p := 81, ew := 15 }

/-- The bias (R116, R129). -/
def Fmt.bias (f : Fmt) : Nat := 2 ^ (f.ew - 1) - 1
/-- The exponent of the last place of subnormals. -/
def Fmt.qmin (f : Fmt) : Int := 2 - (f.bias : Int) - f.p
/-- The all-ones exponent field. -/
def Fmt.expMax (f : Fmt) : Nat := 2 ^ f.ew - 1
/-- Total width. -/
def Fmt.width (f : Fmt) : Nat := f.p + f.ew
/-- The sign bit's weight. -/
def Fmt.signBit (f : Fmt) : Nat := 2 ^ (f.width - 1)
/-- The encoding of +infinity. -/
def Fmt.infBits (f : Fmt) : Nat := f.expMax * 2 ^ (f.p - 1)
/-- The canonical quiet NaN (R117, R129). -/
def Fmt.qnan (f : Fmt) : Nat := f.infBits + 2 ^ (f.p - 2)

/-- The value of an encoding (R116, R129). -/
def decodeF (f : Fmt) (c : Nat) : Val :=
  let neg := decide (c / f.signBit % 2 = 1)
  let ex := c / 2 ^ (f.p - 1) % 2 ^ f.ew
  let fr := c % 2 ^ (f.p - 1)
  if ex = f.expMax then
    if fr = 0 then .inf neg
    else .nan (decide (fr / 2 ^ (f.p - 2) = 0)) neg (fr * 2 ^ (81 - f.p))
  else if ex = 0 then .num neg fr f.qmin
  else .num neg (fr + 2 ^ (f.p - 1)) (f.qmin + ex - 1)

/-- The rounding of m 2^e (a little more when `sticky`) to a multiple of 2^q: the multiple, and whether it is inexact (R119). -/
def quantise (rm : RM) (neg : Bool) (m : Nat) (e q : Int) (sticky : Bool) : Nat × Bool :=
  if q ≤ e then
    let hi := m * 2 ^ (e - q).toNat
    if sticky then (if (rm = .rup ∧ neg = false) ∨ (rm = .rdn ∧ neg = true) then hi + 1 else hi, true) else (hi, false)
  else
    let k := (q - e).toNat
    let hi := m / 2 ^ k
    let rest := m % 2 ^ k
    let exact := rest = 0 ∧ sticky = false
    let up := match rm with
      | .rne => decide (2 * rest > 2 ^ k ∨ (2 * rest = 2 ^ k ∧ (sticky = true ∨ hi % 2 = 1)))
      | .rtz => false
      | .rup => !neg && !decide exact
      | .rdn => neg && !decide exact
    (if up then hi + 1 else hi, !decide exact)

/-- Largest finite magnitude's encoding. -/
def Fmt.maxBits (f : Fmt) : Nat := f.infBits - 1

/-- Rounding of an exact nonzero or zero magnitude to a binary format (R120). -/
def roundF (f : Fmt) (rm : RM) (neg : Bool) (m : Nat) (e : Int) (sticky : Bool) : Nat × Flags :=
  let sign := if neg then f.signBit else 0
  if m = 0 ∧ sticky = false then (sign, 0)
  else
    let top : Int := (if m = 0 then 0 else (Nat.log2 m : Int)) + e
    let q := max f.qmin (top - (f.p - 1 : Nat))
    let (r, inexact) := quantise rm neg m e q sticky
    let bits := (q - f.qmin).toNat * 2 ^ (f.p - 1) + r
    if f.infBits ≤ bits then
      let toInf := match rm with
        | .rne => true
        | .rtz => false
        | .rup => !neg
        | .rdn => neg
      (sign + (if toInf then f.infBits else f.maxBits), Flags.of ||| Flags.nx)
    else
      let tiny := decide (top < f.qmin + (f.p - 1 : Nat))
      (sign + bits, (if inexact then Flags.nx else 0) ||| (if inexact && tiny then Flags.uf else 0))

/-- `rnd` to a binary format (R120), with the NaN payload kept (R134) when `keep`, canonical otherwise (R117). NAR follows R133. -/
def rndF (f : Fmt) (rm : RM) (keep : Bool) : Val → Nat × Flags
  | .num neg m e => roundF f rm neg m e false
  | .inf neg => ((if neg then f.signBit else 0) + f.infBits, 0)
  | .nan s neg fr =>
    let fl : Flags := if s then Flags.nv else 0
    if keep then
      let cut := fr / 2 ^ (81 - f.p)
      let quiet := if cut / 2 ^ (f.p - 2) % 2 = 1 then cut else cut + 2 ^ (f.p - 2)
      ((if neg then f.signBit else 0) + f.infBits + quiet, fl)
    else (f.qnan, fl)
  | .nar => (f.infBits + 2 ^ (f.p - 2) + 2 ^ (f.p - 3), 0)

/-- The run of bits equal to `lead` in the low `k` bits of m, from the top downward (R122). -/
def runLength (m : Nat) (lead : Nat) : Nat → Nat
  | 0 => 0
  | k + 1 => if m / 2 ^ k % 2 = lead then runLength m lead k + 1 else 0

/-- A tapered magnitude code as a multiple of 2^-16 (R122): `w` magnitude bits. -/
def tMag (w m : Nat) : Nat :=
  if m = 0 then 0
  else
    let lead := m / 2 ^ (w - 1) % 2
    let k := runLength m lead w
    let r : Int := if lead = 1 then (k : Int) - 1 else -(k : Int)
    let rest := w - k - 1
    let e : Nat := if 1 ≤ rest then m / 2 ^ (rest - 1) % 2 else 0
    let fb := rest - 1
    let fr := if 1 ≤ fb then m % 2 ^ fb else 0
    2 ^ (2 * r + e + 16 - fb).toNat * (2 ^ fb + fr)

/-- `t_decode` (R122). -/
def decodeT (n c : Nat) : Val :=
  let w := n - 1
  let s := c / 2 ^ w % 2
  let m := c % 2 ^ w
  if m = 0 then (if s = 0 then .num false 0 0 else .nar)
  else .num (s = 1) (tMag w m) (-16)

/-- The greatest code in 0 .. c whose magnitude is at most m 2^e. -/
def tFloor (w m : Nat) (e : Int) : Nat → Nat
  | 0 => 0
  | c + 1 =>
    let v := tMag w (c + 1)
    let le := if -16 ≤ e then decide (v ≤ m * 2 ^ (e + 16).toNat) else decide (v * 2 ^ (-16 - e).toNat ≤ m)
    if le then c + 1 else tFloor w m e c

/-- `rnd` to a tapered format of n bits (R126). -/
def rndT (n : Nat) (rm : RM) : Val → Nat × Flags
  | .nan _ _ _ => (2 ^ (n - 1), Flags.nv)
  | .inf _ => (2 ^ (n - 1), Flags.nv)
  | .nar => (2 ^ (n - 1), 0)
  | .num neg m e =>
    if m = 0 then (0, 0)
    else
      let w := n - 1
      let top := 2 ^ w - 1
      let sgn := fun c => if c = 0 then 0 else if neg then 2 ^ w + c else c
      let lo := tFloor w m e top
      let scale := if e < -16 then (-16 - e).toNat else 0
      let x := m * 2 ^ (e + 16 + scale).toNat
      let vlo := tMag w lo * 2 ^ scale
      if x = vlo then (sgn lo, 0)
      else if lo = top then (sgn top, Flags.of ||| Flags.nx)
      else
        let vhi := tMag w (lo + 1) * 2 ^ scale
        let up := match rm with
          | .rne => decide (x - vlo > vhi - x) || (decide (x - vlo = vhi - x) && decide (lo % 2 = 1))
          | .rtz => false
          | .rup => !neg
          | .rdn => neg
        (sgn (if up then lo + 1 else lo), Flags.nx)

/-- An exact number as an integer under a mode, with whether that is inexact. -/
def toInt (rm : RM) (neg : Bool) (m : Nat) (e : Int) : Int × Bool :=
  let (r, ix) := quantise rm neg m e 0 false
  (if neg then -(r : Int) else r, ix)

/-- `rnd` to an integer of n bits (R133): the low n bits and the flags. -/
def rndI (n : Nat) (signed : Bool) (rm : RM) : Val → Nat × Flags
  | .nan _ _ _ => (0, Flags.nv)
  | .nar => (0, Flags.nv)
  | .inf neg =>
    (if signed then (if neg then 2 ^ (n - 1) else 2 ^ (n - 1) - 1) else (if neg then 0 else 2 ^ n - 1), Flags.nv)
  | .num neg m e =>
    let (i, ix) := toInt rm neg m e
    let lo : Int := if signed then -(2 ^ (n - 1) : Nat) else 0
    let hi : Int := if signed then (2 ^ (n - 1) : Nat) - 1 else (2 ^ n : Nat) - 1
    if i < lo then ((lo % (2 ^ n : Nat)).toNat, Flags.nv)
    else if hi < i then ((hi % (2 ^ n : Nat)).toNat, Flags.nv)
    else ((i % (2 ^ n : Nat)).toNat, if ix then Flags.nx else 0)

/-- A signed integer as an exact value; its zero is +0. -/
def Val.ofInt (i : Int) : Val := .num (decide (i < 0)) i.natAbs 0

/-- The signed mantissa at exponent `q ≤ e`. -/
def alignTo (neg : Bool) (m : Nat) (e q : Int) : Int :=
  let v : Int := (m * 2 ^ (e - q).toNat : Nat)
  if neg then -v else v

def Val.isNan : Val → Bool
  | .nan _ _ _ => true
  | _ => false

def Val.isSnan : Val → Bool
  | .nan s _ _ => s
  | _ => false

/-- NV for a signalling input (R117). -/
def snanFlag (a b : Val) : Flags := if a.isSnan || b.isSnan then Flags.nv else 0

/-- The quiet NaN as a value. -/
def Val.qnan : Val := .nan false false (2 ^ 79)

/-- Negation of a value's sign. -/
def Val.neg : Val → Val
  | .num s m e => .num (!s) m e
  | .inf s => .inf (!s)
  | v => v

/-- The exact sum and the flags of an invalid operation; the sign of an exact zero follows the mode (R117). -/
def addV (rm : RM) (a b : Val) : Val × Flags :=
  match a, b with
  | .num sa ma ea, .num sb mb eb =>
    let q := min ea eb
    let s := alignTo sa ma ea q + alignTo sb mb eb q
    if s = 0 then
      (.num (if ma = 0 ∧ mb = 0 ∧ sa = sb then sa else decide (rm = .rdn)) 0 q, 0)
    else (.num (decide (s < 0)) s.natAbs q, 0)
  | .inf sa, .inf sb => if sa = sb then (.inf sa, 0) else (Val.qnan, Flags.nv)
  | .inf sa, .num _ _ _ => (.inf sa, 0)
  | .num _ _ _, .inf sb => (.inf sb, 0)
  | a, b => (Val.qnan, snanFlag a b)

/-- The exact product (R117). -/
def mulV (a b : Val) : Val × Flags :=
  match a, b with
  | .num sa ma ea, .num sb mb eb => (.num (sa != sb) (ma * mb) (ea + eb), 0)
  | .inf sa, .inf sb => (.inf (sa != sb), 0)
  | .inf sa, .num sb m _ => if m = 0 then (Val.qnan, Flags.nv) else (.inf (sa != sb), 0)
  | .num sa m _, .inf sb => if m = 0 then (Val.qnan, Flags.nv) else (.inf (sa != sb), 0)
  | a, b => (Val.qnan, snanFlag a b)

/-- The fused a b + d (R118, R246): infinity times zero is invalid whatever d holds. -/
def fmaV (rm : RM) (a b d : Val) : Val × Flags :=
  let (p, f1) := mulV a b
  let (s, f2) := addV rm p d
  (s, f1 ||| f2)

/-- Real order of two values that are not NaN or NAR: a < b. -/
def ltV (a b : Val) : Bool :=
  match a, b with
  | .num sa ma ea, .num sb mb eb =>
    let q := min ea eb
    decide (alignTo sa ma ea q < alignTo sb mb eb q)
  | .inf true, .inf true => false
  | .inf true, .num _ _ _ => true
  | .inf true, .inf false => true
  | .num _ _ _, .inf false => true
  | _, _ => false

/-- Real equality, -0 equal to +0. -/
def eqV (a b : Val) : Bool :=
  match a, b with
  | .num _ _ _, .num _ _ _ => !ltV a b && !ltV b a
  | .inf sa, .inf sb => sa = sb
  | _, _ => false

/-- The order of VMIN and VMAX: as `ltV`, with -0 below +0 (R245). -/
def ltZ (a b : Val) : Bool :=
  match a, b with
  | .num sa ma _, .num sb mb _ => if ma = 0 ∧ mb = 0 then sa && !sb else ltV a b
  | _, _ => ltV a b

/-- Exact value of a format's code, and its rounding back with canonical NaNs. -/
def rnd (f : Fmt) (rm : RM) (r : Val × Flags) : Nat × Flags :=
  let (c, fl) := rndF f rm false r.1
  (c, fl ||| r.2)

/-- Min and max of two encodings in a binary format (R245): `mx` selects max. The chosen operand's own bits are the result. -/
def minmaxF (f : Fmt) (mx : Bool) (a b : Nat) : Nat × Flags :=
  let va := decodeF f a
  let vb := decodeF f b
  let fl := snanFlag va vb
  if va.isNan && vb.isNan then (f.qnan, fl)
  else if va.isNan then (b, fl)
  else if vb.isNan then (a, fl)
  else if mx then (if ltZ va vb then b else a, fl)
  else (if ltZ vb va then b else a, fl)

/-- Newton steps toward the integer square root of n, from above. -/
def isqrtFrom (n : Nat) : Nat → Nat → Nat
  | 0, x => x
  | k + 1, x =>
    let y := (x + n / x) / 2
    if x ≤ y then x else isqrtFrom n k y

/-- The integer square root. -/
def isqrt (n : Nat) : Nat := if n = 0 then 0 else isqrtFrom n 64 (2 ^ (Nat.log2 n / 2 + 1))

/-- 1/x of an exact nonzero magnitude, as mantissa, exponent and sticky (R135). -/
def recipMag (m : Nat) (e : Int) : Nat × Int × Bool :=
  let k := Nat.log2 m + 64
  (2 ^ k / m, -(k : Int) - e, decide (2 ^ k % m ≠ 0))

/-- Square root of a magnitude. -/
def sqrtMag (m : Nat) (e : Int) : Nat × Int × Bool :=
  let odd := e % 2 ≠ 0
  let m1 := if odd then 2 * m else m
  let e1 := if odd then e - 1 else e
  let y := m1 * 2 ^ 128
  let r := isqrt y
  (r, e1 / 2 - 64, decide (r * r ≠ y))

/-- Reciprocal square root of a magnitude. -/
def rsqrtMag (m : Nat) (e : Int) : Nat × Int × Bool :=
  let odd := e % 2 ≠ 0
  let m1 := if odd then 2 * m else m
  let e1 := if odd then e - 1 else e
  let k := 2 * (Nat.log2 m1 + 128)
  let y := 2 ^ k / m1
  let r := isqrt y
  (r, -(k : Int) / 2 - e1 / 2, decide (2 ^ k % m1 ≠ 0 ∨ r * r ≠ y))

/-- Fraction bits of the interval for log2 and exp2. -/
def logBits : Nat := 128
/-- Working precision of the special functions' iterations: DEDUCED to decide every rounding, log 11. -/
def workBits : Nat := 320

/-- Bits of log2(y / 2^workBits), y in [2^workBits, 2^(workBits+1)), by repeated squaring: `n` bits, most significant first. -/
def log2Bits : Nat → Nat → Nat → Nat
  | 0, _, acc => acc
  | n + 1, y, acc =>
    let z := y * y / 2 ^ workBits
    if 2 ^ (workBits + 1) ≤ z then log2Bits n (z / 2) (2 * acc + 1) else log2Bits n z (2 * acc)

/-- 2^(f / 2^n) scaled by 2^workBits: the bits of f from the most significant, each with its root of two. -/
def exp2Bits (f : Nat) : Nat → Nat → Nat → Nat
  | 0, _, acc => acc
  | n + 1, root, acc =>
    let r := isqrt (root * 2 ^ workBits)
    exp2Bits f n r (if f / 2 ^ n % 2 = 1 then acc * r / 2 ^ workBits else acc)

/-- The five special functions (R135). -/
inductive Special where
  | rcp | rsq | sqrt | exp2 | log2
  deriving DecidableEq, Repr

/-- log2 of a positive magnitude, not a power of two or one: exact integer part with a fraction interval. -/
def log2F32 (rm : RM) (m : Nat) (e : Int) : Nat × Flags :=
  let n : Int := (Nat.log2 m : Int) + e
  if m = 2 ^ Nat.log2 m then rnd fF32 rm (Val.ofInt n, 0)
  else
    let y := m * 2 ^ (workBits - Nat.log2 m)
    let fr := log2Bits logBits y 0
    let t : Int := n * 2 ^ logBits + fr
    if 0 ≤ t then roundF fF32 rm false t.toNat (-(logBits : Int)) true
    else roundF fF32 rm true (-t - 1).toNat (-(logBits : Int)) true

/-- 2^x of an exact x. Beyond |x| 1024 the result is far out of range, and its place there does not matter. -/
def exp2F32 (rm : RM) (neg : Bool) (m : Nat) (e : Int) : Nat × Flags :=
  let fb := if e < 0 then (-e).toNat else 0
  let v := alignTo neg m e (-(fb : Int))
  let n := v / (2 ^ fb : Nat)
  let f := (v % (2 ^ fb : Nat)).toNat
  if n > 1024 then roundF fF32 rm false 1 1024 false
  else if n < -1024 then roundF fF32 rm false 1 (-1024) true
  else if f = 0 then roundF fF32 rm false 1 n false
  else roundF fF32 rm false (exp2Bits f fb (2 ^ (workBits + 1)) (2 ^ workBits)) (n - workBits) true

/-- The special functions on F32 with their special inputs (R135, R136). The reciprocal of ±2^-127 is exact and leaves NX clear, though R135's list of exact
cases starts at 2^-126: DEDUCED from R120, log 63. -/
def special (fn : Special) (rm : RM) (c : Nat) : Nat × Flags :=
  match decodeF fF32 c with
  | .nan s _ _ => (fF32.qnan, if s then Flags.nv else 0)
  | .nar => (fF32.qnan, 0)
  | .inf neg =>
    match fn with
    | .rcp => (if neg then fF32.signBit else 0, 0)
    | .rsq => if neg then (fF32.qnan, Flags.nv) else (0, 0)
    | .sqrt => if neg then (fF32.qnan, Flags.nv) else (fF32.infBits, 0)
    | .exp2 => if neg then (0, 0) else (fF32.infBits, 0)
    | .log2 => if neg then (fF32.qnan, Flags.nv) else (fF32.infBits, 0)
  | .num neg m e =>
    if m = 0 then
      match fn with
      | .rcp => ((if neg then fF32.signBit else 0) + fF32.infBits, Flags.dz)
      | .rsq => ((if neg then fF32.signBit else 0) + fF32.infBits, Flags.dz)
      | .sqrt => (if neg then fF32.signBit else 0, 0)
      | .exp2 => (fF32.bias * 2 ^ 23, 0)
      | .log2 => (fF32.signBit + fF32.infBits, Flags.dz)
    else
      match fn with
      | .rcp => let (r, q, st) := recipMag m e; roundF fF32 rm neg r q st
      | .rsq => if neg then (fF32.qnan, Flags.nv) else let (r, q, st) := rsqrtMag m e; roundF fF32 rm false r q st
      | .sqrt => if neg then (fF32.qnan, Flags.nv) else let (r, q, st) := sqrtMag m e; roundF fF32 rm false r q st
      | .exp2 => exp2F32 rm neg m e
      | .log2 => if neg then (fF32.qnan, Flags.nv) else log2F32 rm m e

/-- `rne_w96` of an exact sum (R130). -/
def rneW96 (v : Val × Flags) : BitVec 96 := BitVec.ofNat 96 (rndF fW96 .rne false v.1).1

/-- The value of a W96 pattern (R129). -/
def decodeW96 (w : BitVec 96) : Val := decodeF fW96 w.toNat

/-- `zext`, `sext` and `low` (R8) on naturals. -/
def sextN (v n : Nat) : Int := let u := v % 2 ^ n; if u < 2 ^ (n - 1) then u else (u : Int) - (2 ^ n : Nat)
def lowN (v : Int) (n : Nat) : Nat := (v % (2 ^ n : Nat)).toNat

end Sys2Proof.Machine
end

