-- ==== Sys2Proof/Syntax.lean ====
section
/-! DEFINITION. The instructions and events of the opcode table, one constructor per row (spec/opcode_table.json). An encoded
instruction carries the fields of its word, destination first (R141). An event carries the unit it happens at and what the
outside party hands over. A global slot `g` is CORE x 16 + slot (R14). -/

namespace Sys2Proof

/-- Every row of the opcode table. -/
inductive Instr where
  /-- ADD (R164): Writes the 64-bit wrapped sum of rs1 and rs2 to rd. -/
  | add (rd : BitVec 6) (rs1 : BitVec 6) (rs2 : BitVec 6)
  /-- SUB (R164): Writes the 64-bit wrapped difference rs1 minus rs2 to rd. -/
  | sub (rd : BitVec 6) (rs1 : BitVec 6) (rs2 : BitVec 6)
  /-- AND (R164): Writes the bitwise AND of rs1 and rs2 to rd. -/
  | and (rd : BitVec 6) (rs1 : BitVec 6) (rs2 : BitVec 6)
  /-- ANDN (R164): Writes rs1 AND NOT rs2 to rd. -/
  | andn (rd : BitVec 6) (rs1 : BitVec 6) (rs2 : BitVec 6)
  /-- OR (R164): Writes the bitwise OR of rs1 and rs2 to rd. -/
  | or (rd : BitVec 6) (rs1 : BitVec 6) (rs2 : BitVec 6)
  /-- XOR (R164): Writes the bitwise XOR of rs1 and rs2 to rd. -/
  | xor (rd : BitVec 6) (rs1 : BitVec 6) (rs2 : BitVec 6)
  /-- SLL (R166): Shifts rs1 left by rs2 mod 64. -/
  | sll (rd : BitVec 6) (rs1 : BitVec 6) (rs2 : BitVec 6)
  /-- SRL (R166): Shifts rs1 right logically by rs2 mod 64. -/
  | srl (rd : BitVec 6) (rs1 : BitVec 6) (rs2 : BitVec 6)
  /-- SRA (R166): Shifts rs1 right arithmetically by rs2 mod 64. -/
  | sra (rd : BitVec 6) (rs1 : BitVec 6) (rs2 : BitVec 6)
  /-- ROT (R166): Rotates rs1 right by rs2 mod 64. -/
  | rot (rd : BitVec 6) (rs1 : BitVec 6) (rs2 : BitVec 6)
  /-- MUL (R167): Writes the low 64 bits of the product of rs1 and rs2. -/
  | mul (rd : BitVec 6) (rs1 : BitVec 6) (rs2 : BitVec 6)
  /-- MULH (R167): Writes the high 64 bits of the signed product. -/
  | mulh (rd : BitVec 6) (rs1 : BitVec 6) (rs2 : BitVec 6)
  /-- MULHN (R167): Writes the high 64 bits of the unsigned product. -/
  | mulhn (rd : BitVec 6) (rs1 : BitVec 6) (rs2 : BitVec 6)
  /-- DIV (R168): Writes the signed quotient truncated toward zero, with the defined corner results. -/
  | div (rd : BitVec 6) (rs1 : BitVec 6) (rs2 : BitVec 6)
  /-- DIVN (R168): Writes the unsigned quotient, all ones for a zero divisor. -/
  | divn (rd : BitVec 6) (rs1 : BitVec 6) (rs2 : BitVec 6)
  /-- REM (R168): Writes the signed remainder, the dividend for a zero divisor. -/
  | rem (rd : BitVec 6) (rs1 : BitVec 6) (rs2 : BitVec 6)
  /-- REMN (R168): Writes the unsigned remainder. -/
  | remn (rd : BitVec 6) (rs1 : BitVec 6) (rs2 : BitVec 6)
  /-- MIN (R164): Writes the signed minimum of rs1 and rs2. -/
  | min (rd : BitVec 6) (rs1 : BitVec 6) (rs2 : BitVec 6)
  /-- MAX (R164): Writes the signed maximum of rs1 and rs2. -/
  | max (rd : BitVec 6) (rs1 : BitVec 6) (rs2 : BitVec 6)
  /-- MINN (R164): Writes the unsigned minimum of rs1 and rs2. -/
  | minn (rd : BitVec 6) (rs1 : BitVec 6) (rs2 : BitVec 6)
  /-- MAXN (R164): Writes the unsigned maximum of rs1 and rs2. -/
  | maxn (rd : BitVec 6) (rs1 : BitVec 6) (rs2 : BitVec 6)
  /-- CLZ (R169): Counts leading zero bits of rs1. -/
  | clz (rd : BitVec 6) (rs1 : BitVec 6)
  /-- CTZ (R169): Counts trailing zero bits of rs1. -/
  | ctz (rd : BitVec 6) (rs1 : BitVec 6)
  /-- POPC (R169): Counts the one bits of rs1. -/
  | popc (rd : BitVec 6) (rs1 : BitVec 6)
  /-- BREV (R169): Reverses the bit order of rs1. -/
  | brev (rd : BitVec 6) (rs1 : BitVec 6)
  /-- BSWAP (R169): Reverses the byte order of rs1. -/
  | bswap (rd : BitVec 6) (rs1 : BitVec 6)
  /-- CSEL (R172): Writes rs1 if predicate ps is true, else rs2, popping both sources. -/
  | csel (rd : BitVec 6) (rs1 : BitVec 6) (rs2 : BitVec 6) (ps : BitVec 3)
  /-- ADDI (R165): Adds the sign-extended 13-bit immediate to rs1. -/
  | addi (rd : BitVec 6) (rs1 : BitVec 6) (imm : BitVec 13)
  /-- ANDI (R165): ANDs rs1 with the sign-extended immediate. -/
  | andi (rd : BitVec 6) (rs1 : BitVec 6) (imm : BitVec 13)
  /-- ORI (R165): ORs rs1 with the sign-extended immediate. -/
  | ori (rd : BitVec 6) (rs1 : BitVec 6) (imm : BitVec 13)
  /-- XORI (R165): XORs rs1 with the sign-extended immediate. -/
  | xori (rd : BitVec 6) (rs1 : BitVec 6) (imm : BitVec 13)
  /-- SLLI (R166): Shifts rs1 left by an immediate amount. -/
  | slli (rd : BitVec 6) (rs1 : BitVec 6) (sh : BitVec 6)
  /-- SRLI (R166): Shifts rs1 right logically by an immediate amount. -/
  | srli (rd : BitVec 6) (rs1 : BitVec 6) (sh : BitVec 6)
  /-- SRAI (R166): Shifts rs1 right arithmetically by an immediate amount. -/
  | srai (rd : BitVec 6) (rs1 : BitVec 6) (sh : BitVec 6)
  /-- ROTI (R166): Rotates rs1 right by an immediate amount. -/
  | roti (rd : BitVec 6) (rs1 : BitVec 6) (sh : BitVec 6)
  /-- EXT (R170): Extracts and sign-extends a bit field of rs1. -/
  | extS (rd : BitVec 6) (rs1 : BitVec 6) (pos : BitVec 6) (width : BitVec 6)
  /-- EXTN (R170): Extracts and zero-extends a bit field of rs1. -/
  | extn (rd : BitVec 6) (rs1 : BitVec 6) (pos : BitVec 6) (width : BitVec 6)
  /-- INS (R170): Inserts the low bits of rs1 into a bit field of rd. -/
  | insF (rd : BitVec 6) (rs1 : BitVec 6) (pos : BitVec 6) (width : BitVec 6)
  /-- LIH (R171): Loads a sign-extended 19-bit immediate shifted left by 13 into rd. -/
  | lih (rd : BitVec 6) (imm : BitVec 19)
  /-- ADDPC (R171): Writes PC plus a shifted 19-bit immediate to rd. -/
  | addpc (rd : BitVec 6) (imm : BitVec 19)
  /-- CMP (R173): Compares rs1 with rs2 under condition cc and writes the result to a predicate. -/
  | cmp (pd : BitVec 3) (rs1 : BitVec 6) (rs2 : BitVec 6) (cc : BitVec 3)
  /-- CMPI (R173): Compares rs1 with a sign-extended immediate and writes a predicate. -/
  | cmpi (pd : BitVec 3) (cc : BitVec 3) (rs1 : BitVec 6) (imm : BitVec 13)
  /-- PAND (R174): ANDs two predicates into a third. -/
  | pand (pd : BitVec 3) (ps1 : BitVec 3) (ps2 : BitVec 3)
  /-- POR (R174): ORs two predicates into a third. -/
  | por (pd : BitVec 3) (ps1 : BitVec 3) (ps2 : BitVec 3)
  /-- PXOR (R174): XORs two predicates into a third. -/
  | pxor (pd : BitVec 3) (ps1 : BitVec 3) (ps2 : BitVec 3)
  /-- PANDN (R174): Writes ps1 AND NOT ps2 to a predicate. -/
  | pandn (pd : BitVec 3) (ps1 : BitVec 3) (ps2 : BitVec 3)
  /-- PSET (R174): Sets a predicate to whether rs1 is nonzero. -/
  | pset (pd : BitVec 3) (rs1 : BitVec 6)
  /-- PGET (R174): Writes all eight predicates as bits to rd. -/
  | pget (rd : BitVec 6)
  /-- BP (R175): Branches when a predicate is true. -/
  | bp (ps : BitVec 3) (off : BitVec 13)
  /-- BNP (R175): Branches when a predicate is false. -/
  | bnp (ps : BitVec 3) (off : BitVec 13)
  /-- CBZ (R175): Branches when rs1 is zero. -/
  | cbz (rs1 : BitVec 6) (off : BitVec 13)
  /-- CBNZ (R175): Branches when rs1 is nonzero. -/
  | cbnz (rs1 : BitVec 6) (off : BitVec 13)
  /-- JAL (R176): Jumps PC-relative and writes the return address to rd. -/
  | jal (rd : BitVec 6) (imm : BitVec 19)
  /-- JALR (R177): Jumps to rs1 plus an immediate with bit 0 cleared and writes the link. -/
  | jalr (rd : BitVec 6) (rs1 : BitVec 6) (imm : BitVec 13)
  /-- LD_S8 (R182): Loads a sign-extended byte. -/
  | ldS8 (rd : BitVec 6) (rs1 : BitVec 6) (imm : BitVec 13)
  /-- LD_N8 (R182): Loads a zero-extended byte. -/
  | ldN8 (rd : BitVec 6) (rs1 : BitVec 6) (imm : BitVec 13)
  /-- LD_S16 (R182): Loads a sign-extended halfword. -/
  | ldS16 (rd : BitVec 6) (rs1 : BitVec 6) (imm : BitVec 13)
  /-- LD_N16 (R182): Loads a zero-extended halfword. -/
  | ldN16 (rd : BitVec 6) (rs1 : BitVec 6) (imm : BitVec 13)
  /-- LD_S32 (R182): Loads a sign-extended word. -/
  | ldS32 (rd : BitVec 6) (rs1 : BitVec 6) (imm : BitVec 13)
  /-- LD_N32 (R182): Loads a zero-extended word. -/
  | ldN32 (rd : BitVec 6) (rs1 : BitVec 6) (imm : BitVec 13)
  /-- LD_D64 (R182): Loads an 8-byte doubleword. -/
  | ldD64 (rd : BitVec 6) (rs1 : BitVec 6) (imm : BitVec 13)
  /-- ST_N8 (R182): Stores the low byte of rs2. -/
  | stN8 (imm : BitVec 13) (rs1 : BitVec 6) (rs2 : BitVec 6)
  /-- ST_N16 (R182): Stores the low halfword of rs2. -/
  | stN16 (imm : BitVec 13) (rs1 : BitVec 6) (rs2 : BitVec 6)
  /-- ST_N32 (R182): Stores the low word of rs2. -/
  | stN32 (imm : BitVec 13) (rs1 : BitVec 6) (rs2 : BitVec 6)
  /-- ST_D64 (R182): Stores all 8 bytes of rs2. -/
  | stD64 (imm : BitVec 13) (rs1 : BitVec 6) (rs2 : BitVec 6)
  /-- LDX (R184): Loads 16 bytes single-copy atomically into an even register pair. -/
  | ldx (rd : BitVec 6) (rs1 : BitVec 6) (imm : BitVec 13)
  /-- STX (R184): Stores an even register pair as one 16-byte access. -/
  | stx (imm : BitVec 13) (rs1 : BitVec 6) (rs2 : BitVec 6)
  /-- PREF (R185): Starts a fill of a cacheable line into the L1, or does nothing. -/
  | pref (rs1 : BitVec 6) (imm : BitVec 13)
  /-- AMO32 (R195): Performs an indivisible 4-byte read-modify-write and returns the old value. -/
  | amo32 (rd : BitVec 6) (rs1 : BitVec 6) (rs2 : BitVec 6) (ord : BitVec 3) (op : BitVec 4)
  /-- AMO64 (R195): Performs an indivisible 8-byte read-modify-write and returns the old value. -/
  | amo64 (rd : BitVec 6) (rs1 : BitVec 6) (rs2 : BitVec 6) (ord : BitVec 3) (op : BitVec 4)
  /-- CAS (R195): Compares memory with rd and swaps in rs2 on equality, returning the old value. -/
  | cas (rd : BitVec 6) (rs1 : BitVec 6) (rs2 : BitVec 6) (ord : BitVec 3) (size : BitVec 1)
  /-- RED32 (R195): Performs an indivisible 4-byte reduction with no result. -/
  | red32 (rs1 : BitVec 6) (rs2 : BitVec 6) (ord : BitVec 3) (op : BitVec 4)
  /-- RED64 (R195): Performs an indivisible 8-byte reduction with no result. -/
  | red64 (rs1 : BitVec 6) (rs2 : BitVec 6) (ord : BitVec 3) (op : BitVec 4)
  /-- FRED (R195): Adds an F32 or BF16 value into memory with one RNE rounding. -/
  | fred (rs1 : BitVec 6) (rs2 : BitVec 6) (ord : BitVec 3) (ty : BitVec 1)
  /-- LDFULL (R189): Waits until a tagged word is full and reads it. -/
  | ldfull (rd : BitVec 6) (rs1 : BitVec 6)
  /-- LDTAKE (R189): Waits until a tagged word is full, reads it and sets it empty. -/
  | ldtake (rd : BitVec 6) (rs1 : BitVec 6)
  /-- STFILL (R189): Waits until a tagged word is empty, writes it and sets it full. -/
  | stfill (rs1 : BitVec 6) (rs2 : BitVec 6)
  /-- STFORCE (R189): Writes a tagged word and sets it full without waiting. -/
  | stforce (rs1 : BitVec 6) (rs2 : BitVec 6)
  /-- TAGRD (R189): Reads the full/empty tag of a tagged word. -/
  | tagrd (rd : BitVec 6) (rs1 : BitVec 6)
  /-- TW_BACKOFF_EXPIRY (R191): The doubling backoff after a NACK expires and the core resends the tagged-word request. -/
  | twBackoffExpiry (g : Nat)
  /-- TAGGED_OP_COMPLETE (R190): The result of a tagged-word operation performed at its home slice returns and the slot becomes ready. -/
  | taggedOpComplete (g : Nat)
  /-- WAIT_LIMIT_EXPIRY (R192): A governed wait reaches WAITLIM cycles, sends a withdrawal for a deferral, or traps WAITLIMIT. -/
  | waitLimitExpiry (g : Nat)
  /-- WITHDRAWAL_ANSWER (R193): The home slice's answer to a withdrawal arrives, freeing the deferral and trapping or completing the instruction. -/
  | withdrawalAnswer (g : Nat)
  /-- PHASE (R198): Publishes and/or refreshes at the scope its half and scope fields select, and waits. -/
  | phase (scope : BitVec 2) (half : BitVec 2)
  /-- PUBLISH_COMPLETE (R102): The acknowledgements a publish waits for have all arrived and the waiting slot becomes ready. -/
  | publishComplete (g : Nat)
  /-- MONARM (R200): Arms a monitor entry on an address's line and returns its index. -/
  | monarm (rd : BitVec 6) (rs1 : BitVec 6)
  /-- MONWAIT (R202): Waits until an armed line is written, a message is queued, a rearm is due or the timeout elapses. -/
  | monwait (rd : BitVec 6) (rs1 : BitVec 6)
  /-- MONCLR (R203): Frees one monitor entry or all of them. -/
  | monclr (rs1 : BitVec 6)
  /-- MONITOR_WAKE (R201): A write performed on an armed line reaches the arming core and sets the entry's written bit. -/
  | monitorWake (g : Nat) (entry : Nat)
  /-- MONWAIT_TIMEOUT (R202): The MONWAIT timeout elapses and the wait ends with TIMEOUT. -/
  | monwaitTimeout (g : Nat)
  /-- BARCFG (R206): Configures a barrier context's rectangle and expected count. -/
  | barcfg (rs1 : BitVec 6) (rs2 : BitVec 6) (ctx : BitVec 2)
  /-- BARARR (R208): Publishes and then makes one arrival at a barrier context. -/
  | bararr (ctx : BitVec 2)
  /-- BARWAIT (R208): Waits until the slot's recorded phase is released, then refreshes. -/
  | barwait (ctx : BitVec 2)
  /-- BARDROP (R208): Arrives and lowers the expected count for every later phase. -/
  | bardrop (ctx : BitVec 2)
  /-- BARRIER_SIGNAL (R207): An arrival signal from a neighbouring core reaches a barrier context and is forwarded or discarded with ERR. -/
  | barrierSignal (core : Nat) (ctx : Nat) (fromNorth : Bool) (desc : Nat)
  /-- BARRIER_RELEASE (R207): The release of a phase reaches a core, which advances its phase and wakes its waiters. -/
  | barrierRelease (core : Nat) (ctx : Nat) (desc : Nat)
  /-- SPAWN (R215): Publishes and writes a new CR from a spawn record into a target ready queue, returning a status. -/
  | spawn (rd : BitVec 6) (rs1 : BitVec 6) (rs2 : BitVec 6)
  /-- SPAWN_W (R216): As SPAWN, but suspends the spawner behind its child when the child went to a core or cluster overflow ring. -/
  | spawnW (rd : BitVec 6) (rs1 : BitVec 6) (rs2 : BitVec 6)
  /-- DONE (R217): Awaits outstanding operations, publishes, releases lanes and monitors, and frees the slot. -/
  | doneTask
  /-- YIELD (R218): Suspends the task to its home queue if equal or higher work waits, else acts as a NOP. -/
  | yield
  /-- SUSPEND (R219): Publishes, parks the task's CR at an address with the parked mark, and frees the slot. -/
  | suspend (rs1 : BitVec 6)
  /-- WAKE (R220): Publishes, clears a parked CR's mark indivisibly and enqueues it, returning a status. -/
  | wake (rd : BitVec 6) (rs1 : BitVec 6) (rs2 : BitVec 6)
  /-- RFORK (R221): Allocates a child request with bounded instant and class, returning its RTAG or 0. -/
  | rfork (rd : BitVec 6) (rs1 : BitVec 6) (rs2 : BitVec 6)
  /-- RFORK_SH (R221): Allocates a shared child request held once by the forker. -/
  | rforkSh (rd : BitVec 6) (rs2 : BitVec 6)
  /-- RHOLD (R222): Adds a hold of the slot's request on a shared request. -/
  | rhold (rd : BitVec 6) (rs1 : BitVec 6)
  /-- RDROP (R222): Drops a hold on a shared request, annulling it when holds reach zero. -/
  | rdrop (rd : BitVec 6) (rs1 : BitVec 6)
  /-- RCANCEL (R223): Moves the slot's own or a child request from LIVE to ANNULLED. -/
  | rcancel (rd : BitVec 6) (rs1 : BitVec 6)
  /-- RRETIRE (R223): Moves the slot's own or a child request from LIVE to RETIRED. -/
  | rretire (rd : BitVec 6) (rs1 : BitVec 6)
  /-- RSTAT (R224): Reads a selected word of a request-table entry. -/
  | rstat (rd : BitVec 6) (rs1 : BitVec 6) (rs2 : BitVec 6)
  /-- MSEND (R225): Sends one to four payload words to a message class of a core or peer. -/
  | msend (rs1 : BitVec 6) (rs2 : BitVec 6) (words : BitVec 2)
  /-- MRECV (R226): Waits for and pops the head message of a BOUND class into five registers. -/
  | mrecv (rd : BitVec 6) (rs1 : BitVec 6)
  /-- MBIND (R227): Sets a message class of the core to OFF, BOUND or POOL. -/
  | mbind (rd : BitVec 6) (rs1 : BitVec 6) (rs2 : BitVec 6)
  /-- CLAIM (R230): Claims a Larder name, returning HANDLE, MAKER, BUSY or GONE, or suspending as a waiter. -/
  | claim (rd : BitVec 6) (rs1 : BitVec 6)
  /-- FULFIL (R232): Publishes and makes the maker's MAKING entry READY with a handle, resuming its waiters. -/
  | fulfil (rd : BitVec 6) (rs1 : BitVec 6) (rs2 : BitVec 6)
  /-- ABANDON (R232): Gives up making a Larder entry, handing it over or freeing it. -/
  | abandon (rd : BitVec 6) (rs1 : BitVec 6)
  /-- LPIN (R233): Raises the pin count of a READY Larder entry. -/
  | lpin (rd : BitVec 6) (rs1 : BitVec 6)
  /-- LUNPIN (R233): Lowers the pin count of a READY Larder entry. -/
  | lunpin (rd : BitVec 6) (rs1 : BitVec 6)
  /-- LINVAL (R233): Frees a Larder entry, resuming any waiters with GONE. -/
  | linval (rd : BitVec 6) (rs1 : BitVec 6)
  /-- LARDER_DEFERRED_ENQUEUE (R231): A resumed waiter held in the waiter pool is enqueued once its queue level or ring has room. -/
  | larderDeferredEnqueue (part : Nat)
  /-- HBIND (R234): Binds a Hatch to a kind and argument, or unbinds it. -/
  | hbind (rd : BitVec 6) (rs1 : BitVec 6) (rs2 : BitVec 6)
  /-- HSTAT (R235): Reads a Hatch's binding and fill without popping it. -/
  | hstat (rd : BitVec 6) (rs1 : BitVec 6)
  /-- VCLAIM (R241): Renegotiates the slot's lane grant from the tile pool without waiting for lanes. -/
  | vclaim (rd : BitVec 6) (rs1 : BitVec 6)
  /-- VYIELD (R242): Returns all of the slot's lanes to the pool, cleared. -/
  | vyield
  /-- VADD (R244): Adds integer elements with wraparound. -/
  | vadd (vd : BitVec 5) (vs1 : BitVec 5) (vs2 : BitVec 5) (mk : BitVec 3) (et : BitVec 3)
  /-- VSUB (R244): Subtracts integer elements with wraparound. -/
  | vsub (vd : BitVec 5) (vs1 : BitVec 5) (vs2 : BitVec 5) (mk : BitVec 3) (et : BitVec 3)
  /-- VMUL (R244): Multiplies integer elements keeping the low bits. -/
  | vmul (vd : BitVec 5) (vs1 : BitVec 5) (vs2 : BitVec 5) (mk : BitVec 3) (et : BitVec 3)
  /-- VMIN (R244): Writes the smaller element, floats under the special-value rules. -/
  | vmin (vd : BitVec 5) (vs1 : BitVec 5) (vs2 : BitVec 5) (mk : BitVec 3) (et : BitVec 3)
  /-- VMAX (R244): Writes the larger element, floats under the special-value rules. -/
  | vmax (vd : BitVec 5) (vs1 : BitVec 5) (vs2 : BitVec 5) (mk : BitVec 3) (et : BitVec 3)
  /-- VABS (R244): Writes the absolute value of each element. -/
  | vabs (vd : BitVec 5) (vs2 : BitVec 5) (mk : BitVec 3) (et : BitVec 3)
  /-- VNEG (R244): Negates each element. -/
  | vneg (vd : BitVec 5) (vs2 : BitVec 5) (mk : BitVec 3) (et : BitVec 3)
  /-- VAND (R244): Bitwise AND of lanes. -/
  | vand (vd : BitVec 5) (vs1 : BitVec 5) (vs2 : BitVec 5) (mk : BitVec 3) (et : BitVec 3)
  /-- VOR (R244): Bitwise OR of lanes. -/
  | vor (vd : BitVec 5) (vs1 : BitVec 5) (vs2 : BitVec 5) (mk : BitVec 3) (et : BitVec 3)
  /-- VXOR (R244): Bitwise XOR of lanes. -/
  | vxor (vd : BitVec 5) (vs1 : BitVec 5) (vs2 : BitVec 5) (mk : BitVec 3) (et : BitVec 3)
  /-- VNOT (R244): Bitwise NOT of lanes. -/
  | vnot (vd : BitVec 5) (vs2 : BitVec 5) (mk : BitVec 3) (et : BitVec 3)
  /-- VSHL (R244): Shifts integer elements left. -/
  | vshl (vd : BitVec 5) (vs1 : BitVec 5) (vs2 : BitVec 5) (mk : BitVec 3) (et : BitVec 3)
  /-- VSHR (R244): Shifts integer elements right logically. -/
  | vshr (vd : BitVec 5) (vs1 : BitVec 5) (vs2 : BitVec 5) (mk : BitVec 3) (et : BitVec 3)
  /-- VSRA (R244): Shifts integer elements right arithmetically. -/
  | vsra (vd : BitVec 5) (vs1 : BitVec 5) (vs2 : BitVec 5) (mk : BitVec 3) (et : BitVec 3)
  /-- VSEL (R249): Selects each element from vs1 or vs2 by the mask. -/
  | vsel (vd : BitVec 5) (vs1 : BitVec 5) (vs2 : BitVec 5) (mk : BitVec 3) (et : BitVec 3)
  /-- VMOV (R244): Copies vs2's active elements to vd. -/
  | vmov (vd : BitVec 5) (vs2 : BitVec 5) (mk : BitVec 3) (et : BitVec 3)
  /-- VFADD (R246): Adds float elements with one rounding in the RM mode. -/
  | vfadd (vd : BitVec 5) (vs1 : BitVec 5) (vs2 : BitVec 5) (mk : BitVec 3) (et : BitVec 3) (rm : BitVec 2)
  /-- VFSUB (R246): Subtracts float elements with one rounding. -/
  | vfsub (vd : BitVec 5) (vs1 : BitVec 5) (vs2 : BitVec 5) (mk : BitVec 3) (et : BitVec 3) (rm : BitVec 2)
  /-- VFMUL (R246): Multiplies float elements with one rounding. -/
  | vfmul (vd : BitVec 5) (vs1 : BitVec 5) (vs2 : BitVec 5) (mk : BitVec 3) (et : BitVec 3) (rm : BitVec 2)
  /-- VFMA (R246): Computes a times b plus d fused with one rounding. -/
  | vfma (vd : BitVec 5) (vs1 : BitVec 5) (vs2 : BitVec 5) (mk : BitVec 3) (et : BitVec 3) (rm : BitVec 2)
  /-- VFMS (R246): Computes d minus a times b fused with one rounding. -/
  | vfms (vd : BitVec 5) (vs1 : BitVec 5) (vs2 : BitVec 5) (mk : BitVec 3) (et : BitVec 3) (rm : BitVec 2)
  /-- VCVT (R247): Converts elements from the source type in vs1 to the target type ET. -/
  | vcvt (vd : BitVec 5) (src : BitVec 3) (vs2 : BitVec 5) (mk : BitVec 3) (et : BitVec 3) (rm : BitVec 2)
  /-- VSQRT (R246): Correctly rounded F32 square root. -/
  | vsqrt (vd : BitVec 5) (vs2 : BitVec 5) (mk : BitVec 3) (rm : BitVec 2)
  /-- VRCP (R246): Correctly rounded F32 reciprocal. -/
  | vrcp (vd : BitVec 5) (vs2 : BitVec 5) (mk : BitVec 3) (rm : BitVec 2)
  /-- VRSQ (R246): Correctly rounded F32 reciprocal square root. -/
  | vrsq (vd : BitVec 5) (vs2 : BitVec 5) (mk : BitVec 3) (rm : BitVec 2)
  /-- VEXP2 (R246): Correctly rounded F32 base-2 exponential. -/
  | vexp2 (vd : BitVec 5) (vs2 : BitVec 5) (mk : BitVec 3) (rm : BitVec 2)
  /-- VLOG2 (R246): Correctly rounded F32 base-2 logarithm. -/
  | vlog2 (vd : BitVec 5) (vs2 : BitVec 5) (mk : BitVec 3) (rm : BitVec 2)
  /-- VCMP (R248): Compares elements under eq, ne, lt or ge and writes a mask. -/
  | vcmp (vd : BitVec 3) (vs1 : BitVec 5) (vs2 : BitVec 5) (mk : BitVec 3) (et : BitVec 3) (cc : BitVec 2)
  /-- VSPLAT (R249): Writes a scalar register's low bits to every active element. -/
  | vsplat (vd : BitVec 5) (vs1 : BitVec 5) (mk : BitVec 3) (et : BitVec 3)
  /-- VEXTR (R249): Extracts one element into a scalar register. -/
  | vextr (vd : BitVec 5) (vs1 : BitVec 5) (vs2 : BitVec 5) (mk : BitVec 3) (et : BitVec 3)
  /-- VIOTA (R249): Writes each active element's index. -/
  | viota (vd : BitVec 5) (mk : BitVec 3) (et : BitVec 3)
  /-- VRED (R250): Reduces active elements in a fixed pairwise tree into element 0 of lane 0. -/
  | vred (vd : BitVec 5) (op : BitVec 5) (vs2 : BitVec 5) (mk : BitVec 3) (et : BitVec 3)
  /-- VSCAN (R251): Computes an inclusive left-fold scan of active elements. -/
  | vscan (vd : BitVec 5) (op : BitVec 5) (vs2 : BitVec 5) (mk : BitVec 3) (et : BitVec 3)
  /-- VPERM (R252): Moves whole lanes by index, recording valid sources in the mask. -/
  | vperm (vd : BitVec 5) (vs1 : BitVec 5) (vs2 : BitVec 5) (mk : BitVec 3)
  /-- VSLIDE (R253): Moves whole lanes by a signed scalar amount as VPERM does. -/
  | vslide (vd : BitVec 5) (vs1 : BitVec 5) (vs2 : BitVec 5) (mk : BitVec 3)
  /-- MAND (R254): ANDs two masks. -/
  | mand (vd : BitVec 3) (vs1 : BitVec 3) (vs2 : BitVec 3)
  /-- MOR (R254): ORs two masks. -/
  | mor (vd : BitVec 3) (vs1 : BitVec 3) (vs2 : BitVec 3)
  /-- MNOT (R254): Complements a mask. -/
  | mnot (vd : BitVec 3) (vs2 : BitVec 3)
  /-- MPOP (R254): Counts the set mask positions of lanes below VL. -/
  | mpop (vd : BitVec 5) (vs2 : BitVec 3)
  /-- MFIRST (R254): Returns the lowest set mask position, or all ones. -/
  | mfirst (vd : BitVec 5) (vs2 : BitVec 3)
  /-- VLD (R257): Loads contiguous vector elements. -/
  | vld (vd : BitVec 5) (rs1 : BitVec 6) (sz : BitVec 2) (mk : BitVec 3)
  /-- VST (R257): Stores contiguous vector elements. -/
  | vst (vd : BitVec 5) (rs1 : BitVec 6) (sz : BitVec 2) (mk : BitVec 3)
  /-- VLDS (R257): Loads vector elements at a scalar stride. -/
  | vlds (vd : BitVec 5) (rs1 : BitVec 6) (xs : BitVec 6) (sz : BitVec 2) (mk : BitVec 3)
  /-- VSTS (R257): Stores vector elements at a scalar stride. -/
  | vsts (vd : BitVec 5) (rs1 : BitVec 6) (xs : BitVec 6) (sz : BitVec 2) (mk : BitVec 3)
  /-- VGATH (R257): Gathers elements at indexed addresses. -/
  | vgath (vd : BitVec 5) (rs1 : BitVec 6) (vs2 : BitVec 5) (sz : BitVec 2) (mk : BitVec 3)
  /-- VSCAT (R257): Scatters elements to indexed addresses. -/
  | vscat (vd : BitVec 5) (rs1 : BitVec 6) (vs2 : BitVec 5) (sz : BitVec 2) (mk : BitVec 3)
  /-- VLDL (R256): Loads each lane's elements from the same offset of its own lane-store slice. -/
  | vldl (vd : BitVec 5) (rs1 : BitVec 6) (sz : BitVec 2) (mk : BitVec 3)
  /-- VSTL (R256): Stores each lane's elements to its own lane-store slice. -/
  | vstl (vd : BitVec 5) (rs1 : BitVec 6) (sz : BitVec 2) (mk : BitVec 3)
  /-- VADD_16 (R143): 16-bit form: vd := vd plus vs2 under VTYPE's element type. -/
  | vadd16 (vd : BitVec 5) (vs2 : BitVec 5)
  /-- VSUB_16 (R143): 16-bit form of vector subtract. -/
  | vsub16 (vd : BitVec 5) (vs2 : BitVec 5)
  /-- VMUL_16 (R143): 16-bit form of vector multiply. -/
  | vmul16 (vd : BitVec 5) (vs2 : BitVec 5)
  /-- VMIN_16 (R143): 16-bit form of VMIN. -/
  | vmin16 (vd : BitVec 5) (vs2 : BitVec 5)
  /-- VMAX_16 (R143): 16-bit form of VMAX. -/
  | vmax16 (vd : BitVec 5) (vs2 : BitVec 5)
  /-- VABS_16 (R143): 16-bit form of VABS. -/
  | vabs16 (vd : BitVec 5) (vs2 : BitVec 5)
  /-- VNEG_16 (R143): 16-bit form of VNEG. -/
  | vneg16 (vd : BitVec 5) (vs2 : BitVec 5)
  /-- VAND_16 (R143): 16-bit form of VAND. -/
  | vand16 (vd : BitVec 5) (vs2 : BitVec 5)
  /-- VOR_16 (R143): 16-bit form of VOR. -/
  | vor16 (vd : BitVec 5) (vs2 : BitVec 5)
  /-- VXOR_16 (R143): 16-bit form of VXOR. -/
  | vxor16 (vd : BitVec 5) (vs2 : BitVec 5)
  /-- VNOT_16 (R143): 16-bit form of VNOT. -/
  | vnot16 (vd : BitVec 5) (vs2 : BitVec 5)
  /-- VSHL_16 (R143): 16-bit form of VSHL. -/
  | vshl16 (vd : BitVec 5) (vs2 : BitVec 5)
  /-- VSHR_16 (R143): 16-bit form of VSHR. -/
  | vshr16 (vd : BitVec 5) (vs2 : BitVec 5)
  /-- VSRA_16 (R143): 16-bit form of VSRA. -/
  | vsra16 (vd : BitVec 5) (vs2 : BitVec 5)
  /-- VMOV_16 (R143): 16-bit form of VMOV. -/
  | vmov16 (vd : BitVec 5) (vs2 : BitVec 5)
  /-- VRCP_16 (R143): 16-bit form of VRCP with RNE. -/
  | vrcp16 (vd : BitVec 5) (vs2 : BitVec 5)
  /-- MCFG_SHAPE (R265): Sets the slot's M, N and K. -/
  | mcfgShape (rs1 : BitVec 6)
  /-- MCFG_FMT (R265): Sets the A and B formats and target accumulator. -/
  | mcfgFmt (rs1 : BitVec 6)
  /-- MCFG_A (R265): Sets the A operand base and stride. -/
  | mcfgA (rs1 : BitVec 6) (rs2 : BitVec 6)
  /-- MCFG_B (R265): Sets the B operand base and stride. -/
  | mcfgB (rs1 : BitVec 6) (rs2 : BitVec 6)
  /-- MMA (R267): Performs a multiply-accumulate over the configured shape into the owned accumulator. -/
  | mma
  /-- MMA_Z (R267): Clears the region and flags, then performs the multiply-accumulate. -/
  | mmaZ
  /-- MZERO (R269): Zeroes an accumulator and its flags, optionally releasing ownership. -/
  | mzero (rs1 : BitVec 6)
  /-- MLOAD (R270): Loads the configured region of an accumulator from memory in RAW form. -/
  | mload (rs1 : BitVec 6) (rs2 : BitVec 6)
  /-- MSTORE (R270): Stores the configured accumulator region, converted, and returns flags. -/
  | mstore (rd : BitVec 6) (rs1 : BitVec 6) (rs2 : BitVec 6) (rm : BitVec 2)
  /-- MSCALE (R272): Adds a Q96 accumulator scaled by block scales into the other as W96. -/
  | mscale (rs1 : BitVec 6) (rs2 : BitVec 6)
  /-- MCELL (R273): Loads a cell program replacing the multiply-add step. -/
  | mcell (rs1 : BitVec 6)
  /-- KSEL (R280): Bounds a query against key-page summaries and writes the selected page list. -/
  | ksel (rd : BitVec 6) (rs1 : BitVec 6) (rs2 : BitVec 6)
  /-- KGATHER (R282): Hands copies of listed key and value pages to the cluster copy engine. -/
  | kgather (rs1 : BitVec 6)
  /-- KSRESET (R277): Resets a key page's summary record and advances its generation. -/
  | ksreset (rs1 : BitVec 6)
  /-- DRAW_G (R286): Returns the argmax of the logits. -/
  | drawG (rd : BitVec 6) (rs1 : BitVec 6)
  /-- DRAW_S (R286): Returns the argmax of logits plus Philox-derived Gumbel noise. -/
  | drawS (rd : BitVec 6) (rs1 : BitVec 6)
  /-- DRAW_V (R286): Samples as DRAW.S and reports whether a draft token is accepted. -/
  | drawV (rd : BitVec 6) (rs1 : BitVec 6) (rs2 : BitVec 6)
  /-- MATRIX_OP_COMPLETE (R260): A unit operation or KSEL/DRAW finishes, the slot becomes ready and a queued operation starts. -/
  | matrixOpComplete (g : Nat)
  /-- CSRR (R345): Reads a CSR into rd. -/
  | csrr (rd : BitVec 6) (csr : BitVec 11)
  /-- CSRW (R345): Writes rs1 to a CSR, returning the old value. -/
  | csrw (rd : BitVec 6) (rs1 : BitVec 6) (csr : BitVec 11)
  /-- CSRSET (R345): Sets CSR bits given by rs1, returning the old value. -/
  | csrset (rd : BitVec 6) (rs1 : BitVec 6) (csr : BitVec 11)
  /-- CSRCLR (R345): Clears CSR bits given by rs1, returning the old value. -/
  | csrclr (rd : BitVec 6) (rs1 : BitVec 6) (csr : BitVec 11)
  /-- NOP (R153): Advances PC with no other effect. -/
  | nop
  /-- TRET (R179): Returns from a delegated user trap to TRAPPC and clears STATUS.DH. -/
  | tret
  /-- BRK (R356): Raises the BRK trap at itself. -/
  | brk
  /-- ERET (R352): Returns from a supervisor trap, restoring mode, DH, IE and delegated trap registers. -/
  | eret
  /-- RQENQ (R358): Enqueues a trusted CR into a target ready queue. -/
  | rqenq (rd : BitVec 6) (rs1 : BitVec 6) (rs2 : BitVec 6)
  /-- RQDEQ (R358): Removes the next eligible CR of masked levels of a queue and writes it to memory. -/
  | rqdeq (rd : BitVec 6) (rs1 : BitVec 6) (rs2 : BitVec 6)
  /-- SLOTCTL_QUERY (R359): Reports a slot's state, mode, RTAG and class. -/
  | slotctlQuery (rd : BitVec 6) (rs1 : BitVec 6) (rs2 : BitVec 6)
  /-- SLOTCTL_START (R359): Dispatches a CR into a free slot. -/
  | slotctlStart (rd : BitVec 6) (rs1 : BitVec 6) (rs2 : BitVec 6)
  /-- SLOTCTL_PREEMPT (R359): Preempts another slot into the Closet and waits until it is free. -/
  | slotctlPreempt (rd : BitVec 6) (rs1 : BitVec 6) (rs2 : BitVec 6)
  /-- SLOTCTL_RESUME (R359): Resumes a saved context from a Closet place or spill unit into a free slot. -/
  | slotctlResume (rd : BitVec 6) (rs1 : BitVec 6) (rs2 : BitVec 6)
  /-- SLOTCTL_KILL (R359): Ends another slot's task as annulment does, without notice. -/
  | slotctlKill (rd : BitVec 6) (rs1 : BitVec 6) (rs2 : BitVec 6)
  /-- SLOTCTL_COPYSTOP (R359): Suspends every running copy pushed by a slot. -/
  | slotctlCopystop (rd : BitVec 6) (rs1 : BitVec 6) (rs2 : BitVec 6)
  /-- SLOTCTL_RELEASE (R359): Lets a halted slot continue after its HALT or at STVEC. -/
  | slotctlRelease (rd : BitVec 6) (rs1 : BitVec 6) (rs2 : BitVec 6)
  /-- CLOSAVE (R362): Writes a saved context out as an image and frees its places. -/
  | closave (rd : BitVec 6) (rs1 : BitVec 6) (rs2 : BitVec 6)
  /-- CLOREST (R362): Reads a context image into the lowest free Closet places. -/
  | clorest (rd : BitVec 6) (rs1 : BitVec 6)
  /-- TLBINV (R363): Invalidates TLB entries for a page, a partition or the device. -/
  | tlbinv (rs1 : BitVec 6) (rs2 : BitVec 6)
  /-- CFLUSH_LINE (R364): Publishes and drops one line from the core's L1 and pool. -/
  | cflushLine (rs1 : BitVec 6) (rs2 : BitVec 6)
  /-- CFLUSH_WRITEBACK (R364): Publishes a line, writes it back to HBM and drops every cached copy. -/
  | cflushWriteback (rs1 : BitVec 6) (rs2 : BitVec 6)
  /-- CFLUSH_ALL (R364): Publishes and drops the core's whole L1 and pool. -/
  | cflushAll (rs1 : BitVec 6) (rs2 : BitVec 6)
  /-- HALT (R364): Takes the slot out of rotation holding its context until release or kill. -/
  | halt
  /-- TRAP (R356): Raises TRAPI with the immediate in TRAPVAL. -/
  | trapImm (imm : BitVec 13)
  /-- TAKE_ASYNC_TRAP (R350): At an instruction boundary a pending BUDGET, TIMER or MSG trap is taken. -/
  | takeAsyncTrap (g : Nat)
  /-- BUDGET_EXPIRY (R381): BUDGETLEFT reaches zero, the budget leaves force and BUDGET becomes pending. -/
  | budgetExpiry (g : Nat)
  /-- TIMERCMP_EXPIRY (R354): TIME reaches TIMERCMP on a supervised core and TIMER becomes pending on slot 0. -/
  | timercmpExpiry (core : Nat)
  /-- LOAD_COMPLETE (R183): A load's value returns, is written to its destination or pushed to its Hatch, and dependants proceed. -/
  | loadComplete (g : Nat) (data : BitVec 128) (code : Nat)
  /-- ATOMIC_COMPLETE (R197): The old value of an AMO or CAS performed away from the slot returns to rd. -/
  | atomicComplete (g : Nat) (data : Word) (code : Nat)
  /-- DISPATCH (R36): A freed slot in hardware dispatch mode takes the first eligible CR or saved context and starts it. -/
  | dispatch (core : Nat)
  /-- RESUME_CONTEXT (R52): A preempted or fault-suspended context resumes on its core once lanes and accumulators are available. -/
  | resumeContext (core : Nat)
  /-- TIMER_PREEMPTION (R378): A task's time slice has run out while equal or higher work waits, and the core preempts it. -/
  | timerPreemption (core : Nat)
  /-- DEMAND_PREEMPTION (R49): A waiting CR of a more urgent class finds no free slot and the core preempts the least urgent unpinned slot. -/
  | demandPreemption (core : Nat)
  /-- RING_MOVE (R373): When a queue level has a free entry, the head CR of its overflow ring moves into it or is discarded if annulled. -/
  | ringMove (queue : Nat) (level : Nat)
  /-- LAUNCH_QUEUE_WRITE (R421): A host or peer 64-byte record write arrives at a launch queue and is enqueued or discarded and counted. -/
  | launchQueueWrite (die : Nat) (part : Nat) (offset : Nat) (data : List Byte)
  /-- LAUNCH_ACCEPT (R32): The record at a launch queue's head is accepted as a new LIVE request, or discarded, once room and quota allow. -/
  | launchAccept (die : Nat) (part : Nat)
  /-- REQUEST_EXPIRY (R60): The expiry scanner reaches a request's instant and makes its annulment point, sending annul notices. -/
  | requestExpiry (rtag : Nat)
  /-- ANNUL_NOTICE_ARRIVAL (R64): An annul notice reaches a die or core and ends the tag's work wherever it sits. -/
  | annulNoticeArrival (die : Nat) (rtag : Nat)
  /-- SLOT_ANNUL (R65): A slot under an annulled tag ends at its next boundary, discards its context and optionally sends a notice. -/
  | slotAnnul (g : Nat)
  /-- ANNUL_ACK_ARRIVAL (R61): A die's acknowledgement of its sweep reaches the entry's die, which judges annulment complete. -/
  | annulAckArrival (rtag : Nat) (die : Nat)
  /-- PEER_WORK_ARRIVAL (R59): Work from a peer arrives and is mapped to a partition and a proxy, allocated if new, or dropped. -/
  | peerWorkArrival (work : PeerWork)
  /-- PEER_CANCEL_NOTICE (R426): A cancel notice arrives at a peer and annuls the proxy. -/
  | peerCancelNotice (dev : Nat) (rtag : Nat)
  /-- DRAIN_MARKER (R426): A drain marker arrives at a peer, which frees the proxy after annulment and acknowledges. -/
  | drainMarker (dev : Nat) (rtag : Nat)
  /-- DRAIN_ACK (R426): A peer's drain acknowledgement reaches the sender's entry die. -/
  | drainAck (rtag : Nat) (peer : Nat)
  /-- NOPROXY_RESEND (R425): 4,096 cycles after a NOPROXY answer the interface resends the load, atomic or CAS. -/
  | noproxyResend (g : Nat)
  /-- MESSAGE_ARRIVAL (R45): A message reaches a core's class and is discarded, queued, dispatched as a POOL handler, dropped or refused. -/
  | messageArrival (core : Nat) (cls : Nat) (msg : Msg)
  /-- FREE_SLOT_NOTICE (R45): A receiver's free-slot notice reaches a sender's interface, which retries its refused message. -/
  | freeSlotNotice (core : Nat)
  /-- LINEAR (R301): The copy engine copies a linear byte range, optionally multicast. -/
  | copyLinear (core : Nat) (hatch : Nat)
  /-- STRIDED (R301): The copy engine copies rows with source and destination strides. -/
  | copyStrided (core : Nat) (hatch : Nat)
  /-- GATHER (R301): The copy engine gathers listed pieces back to back into a destination. -/
  | copyGather (core : Nat) (hatch : Nat)
  /-- SCATTER (R301): The copy engine scatters a source to listed destinations. -/
  | copyScatter (core : Nat) (hatch : Nat)
  /-- RESUME (R304): Resumes a suspended copy matching its completion address and RTAG. -/
  | copyResume (core : Nat) (hatch : Nat)
  /-- GROUP (R305): Registers a collective group record with the die's collective engine. -/
  | collGroup (core : Nat) (hatch : Nat)
  /-- ALLREDUCE (R307): Folds every member's source in rank order into every destination. -/
  | collAllreduce (core : Nat) (hatch : Nat)
  /-- ALLGATHER (R307): Concatenates every member's source into every destination. -/
  | collAllgather (core : Nat) (hatch : Nat)
  /-- REDSCAT (R307): Reduces and scatters one slice to each member. -/
  | collRedscat (core : Nat) (hatch : Nat)
  /-- BCAST (R307): Copies the root's source to every member. -/
  | collBcast (core : Nat) (hatch : Nat)
  /-- READ (R310): A Cellar engine reads 4 KiB blocks from a drive into memory. -/
  | cellarRead (core : Nat) (hatch : Nat)
  /-- WRITE (R310): A Cellar engine writes memory to 4 KiB blocks of a drive. -/
  | cellarWrite (core : Nat) (hatch : Nat)
  /-- SEND (R311): Offers a 256-byte sequence-numbered record over a Stair. -/
  | stairSend (core : Nat) (hatch : Nat)
  /-- RESET (R314): Sends a Stair reset to a committed sequence number on the control class. -/
  | stairReset (core : Nat) (hatch : Nat)
  /-- BUF (R312): Sets a Stair receiver's ring, expected number and freed number. -/
  | stairBuf (core : Nat) (hatch : Nat)
  /-- FREE (R312): Advances a Stair receiver's freed number. -/
  | stairFree (core : Nat) (hatch : Nat)
  /-- STAIR_RECORD_ARRIVAL (R313): The record at the head of a sender's Stair queue is judged by the receiver and written, dropped, rejected or held. -/
  | stairRecordArrival (dir : Nat)
  /-- STAIR_RESET_ARRIVAL (R314): A Stair reset reaches the receiver, which resets its numbers and removes later arrival words. -/
  | stairResetArrival (dir : Nat) (number : Nat)
  /-- COMMAND_COMPLETION (R298): An engine command ends and its completion word is written and pushed to its DONE entry. -/
  | commandCompletion (id : Nat)
  /-- NVME_COMPLETION (R310): A drive completes an NVMe Read or Write piece and the Cellar engine advances the command or fault service. -/
  | nvmeCompletion (id : Nat) (status : Nat) (data : List Byte)
  /-- WALK_COMPLETE (R397): A page-table walk ends, installing a translation or raising a fault, suspension, side-log retire or Cellar service. -/
  | walkComplete (g : Nat)
  /-- DIRTY_LOG_MERGE (R395): The cluster merge agent sets D bits for a core's dirty log when it reaches 16 entries. -/
  | dirtyLogMerge (core : Nat)
  /-- DHARVEST_GO (R396): A write of GO merges every dirty log of the cluster. -/
  | dharvestGo (cluster : Nat)
  /-- FBHEAD_READ (R400): A 16-byte read returns the oldest unreturned fault-buffer entry and advances. -/
  | fbheadRead (die : Nat)
  /-- FBRESP_RETRY (R402): Frees a fault entry and makes its accesses walk again or resumes its Cellar service. -/
  | fbrespRetry (die : Nat) (index : Nat)
  /-- FBRESP_FAIL_XLATE (R402): Frees a fault entry and makes its held accesses trap XLATE, discarding side-log entries. -/
  | fbrespFailXlate (die : Nat) (index : Nat)
  /-- FBRESP_FAIL_PERM (R402): Frees a fault entry and makes its held accesses trap PERM, discarding side-log entries. -/
  | fbrespFailPerm (die : Nat) (index : Nat)
  /-- CLUSTCTL_DRAIN (R408): Drains a cluster: moves its CRs, preempts slots, writes contexts out and unbinds Hatches and classes. -/
  | clustctlDrain (cluster : Nat)
  /-- CLUSTCTL_ASSIGN (R407): Assigns an idle cluster to a partition, zeroing its state on a change of partition. -/
  | clustctlAssign (cluster : Nat) (part : Nat)
  /-- RTFREE_WRITE (R386): Frees a request entry whose parked CRs will never be woken, or reports why not. -/
  | rtfreeWrite (die : Nat) (value : Word)
  /-- DQCTL_WRITE (R371): Sets a partition's slice, EDF levels and demand classes, reordering levels whose EDF bit changes. -/
  | dqctlWrite (die : Nat) (part : Nat) (value : Word)
  /-- RINGD_WRITE (R372): Places an overflow ring, ignored unless the level and ring are empty. -/
  | ringdWrite (queue : Nat) (level : Nat) (value : Word)
  /-- FFPOOL_WRITE (R387): Places a free-frame pool ring and resets its head and tail. -/
  | ffpoolWrite (die : Nat) (part : Nat) (value : Word)
  /-- FFTAIL_WRITE (R387): Adds frames to the pool ring, ignored if it would overfill. -/
  | fftailWrite (die : Nat) (part : Nat) (value : Word)
  /-- WALKSHARE_WRITE (R387): Sets a partition's guaranteed walkers, ignored if the cluster sum would exceed 16. -/
  | walkshareWrite (cluster : Nat) (part : Nat) (value : Word)
  /-- TILECAP_WRITE (R412): Caps a tile's operating point, changing its DVFS target. -/
  | tilecapWrite (tile : Nat) (value : Word)
  /-- STATUS_SCHED_WRITE (R376): Switches a core between hardware dispatch and supervised mode, effective only from slot 0. -/
  | statusSchedWrite (g : Nat) (value : Bool)
  /-- TIMERCMP_WRITE (R354): Sets the timer instant and clears a pending TIMER. -/
  | timercmpWrite (core : Nat) (value : Word)
  /-- LMSPLIT_WRITE (R78): Changes the scratchpad/L1 split after publishing and refreshing, zeroing units that change role. -/
  | lmsplitWrite (core : Nat) (value : Word)
  /-- LMSHARE_WRITE (R77): Changes the exposed CSM size, completing when all cluster copies hold it. -/
  | lmshareWrite (core : Nat) (value : Word)
  /-- LMGROUP_WRITE (R79): Forms or dissolves the tile victim pool after publishing and refreshing all four cores. -/
  | lmgroupWrite (tile : Nat) (value : Word)
  /-- DSPLIT_WRITE (R78): Changes the die's L2/die-scratchpad split, writing back and zeroing units that change role. -/
  | dsplitWrite (die : Nat) (value : Word)
  /-- VGRANT_WRITE (R237): Sets VL, clamped to GRANT, and clears LOST when 1 is written to it. -/
  | vgrantWrite (g : Nat) (value : Word)
  /-- FREQREQ_WRITE (R412): Requests an operating point, changing the tile's DVFS target. -/
  | freqreqWrite (core : Nat) (value : Word)
  /-- FEATMASK_WRITE (R347): Lowers a core's feature level; a raise is ignored. -/
  | featmaskWrite (core : Nat) (value : Word)
  /-- BUDGETLEFT_WRITE (R381): Sets the remaining budget, putting a budget in force when nonzero. -/
  | budgetleftWrite (g : Nat) (value : Word)
  /-- REGISTER_WRITE (R366): Writes a register with no behaviour of its own, effective for later decisions. -/
  | registerWrite (addr : Nat) (value : Word)
  /-- DVFS_STEP (R413): A 12.5 mV voltage step completes and the controller steps again or settles the clock. -/
  | dvfsStep (tile : Nat)
  /-- POWER_PERIOD (R415): Every 10 µs the controller compares power with PWRLIM and takes or undoes one action. -/
  | powerPeriod (reading : PowerReading)
  /-- TIME_SYNC (R428): Every 1 µs a device exchanges time-synchronisation flits with the master and slews its offset. -/
  | timeSync (offset : Int) (route : Bool)
  /-- LINK_FAILURE (R422): A Tlamet port fails to recover a flit and ends the operations in flight over it. -/
  | linkFailure (port : Nat)
  /-- ATS_INVALIDATION (R419): A host ATS invalidation drops cached translations, completing once their accesses are performed. -/
  | atsInvalidation (page : Nat)
  /-- HOST_MEM_ACCESS (R419): A host CXL.mem access through the HDM decoder is performed at the line's home slice. -/
  | hostMemAccess (write : Bool) (addr : Nat) (data : List Byte)
  /-- DRIVE_TIMEOUT (R430): A drive command stays outstanding for 30 seconds and Valsis resets the controller. -/
  | driveTimeout (port : Nat)
  /-- DRIVE_LINK_DOWN (R430): A storage link goes down and Valsis resets the controller, failing its commands with LINK. -/
  | driveLinkDown (port : Nat)
  /-- DEVICE_RESET (R435): Power-on or device reset returns the device to stage 0. -/
  | deviceReset
  /-- ROM_SELF_CHECK (R435): Valsis runs from ROM and checks itself, measuring the ROM. -/
  | romSelfCheck (ok : Bool)
  /-- FIRMWARE_VERIFY (R437): The ROM verifies and measures a firmware image from the primary or backup slot. -/
  | firmwareVerify
  /-- CALIBRATION (R436): HBM PHYs, die-to-die links, host link and SerDes are calibrated. -/
  | calibration (found : Calibration)
  /-- MEMORY_INIT (R440): Zeroes HBM and SRAMs, empties tags, queues and tables, and frees request entries. -/
  | memoryInit (ok : List Bool)
  /-- FIRMWARE_CONFIG (R441): Firmware sets TIME, partitions, per-core state, queues, links and power. -/
  | firmwareConfig (ok : Bool) (ptm : Word) (writes : List (Nat × Word))
  /-- SET_READY (R441): Measurement 5 is recorded and READY is set, raising MSI-X vector 0. -/
  | setReady
  /-- FIRMWARE_DELIVERY (R437): A firmware image delivered through the management port is written to the unused slot. -/
  | firmwareDelivery (image : Image)
  /-- ROLLBACK_RAISE (R437): An explicit management command raises the fused rollback counter. -/
  | rollbackRaise (counter : Nat)
  /-- GET_VERSION (R439): SPDM request answered with supported versions, or Busy before stage 3. -/
  | getVersion
  /-- GET_CAPABILITIES (R439): SPDM request answered with the responder's capabilities. -/
  | getCapabilities
  /-- NEGOTIATE_ALGORITHMS (R439): SPDM request settling SHA-256 and SLH-DSA-SHA2-192s. -/
  | negotiateAlgorithms (sha256 : Bool) (slhDsa : Bool)
  /-- GET_DIGESTS (R439): SPDM request returning certificate chain digests. -/
  | getDigests
  /-- GET_CERTIFICATE (R439): SPDM request returning the device identity certificate chain. -/
  | getCertificate (offset : Nat) (length : Nat)
  /-- GET_MEASUREMENTS (R439): SPDM request returning the signed measurements of R438. -/
  | getMeasurements (index : Nat) (signed : Bool) (nonce : List Byte)
  /-- ILLEGAL_OP (R140): An encoding that is not an instruction (unassigned major or function value, nonzero reserved field, register field 48-63, the all-zero halfword, 16-bit opcodes 0 and 17-31) traps ILLEGAL_OP with TRAPVAL holding the encoding. -/
  | illegalOp (g : Nat) (encoding : Word)
  /-- FETCH_FAULT (R139): An instruction fetch at PC that cannot be performed traps with TRAPPC at the first halfword and TRAPVAL at the faulting fetch address. -/
  | fetchFault (g : Nat)
  /-- PREEMPTION_COMPLETE (R50): A started preemption finishes saving the context to the Closet or spill units, releases the grant and frees the slot, which a waiting SLOTCTL PREEMPT and dispatch then see. -/
  | preemptionComplete (core : Nat)
  /-- DIE_TO_DIE_LINK_FAILURE (R295): A die-to-die link fails, so its Stair's UP reads 0, pushes to it trap STAIR, and commands in flight over it fail with LINK. -/
  | dieToDieLinkFailure (stair : Nat)
  /-- DRIVE_CONTROLLER_READY (R430): A drive controller that Valsis reset becomes ready again, and new commands to the drive stop failing at once with LINK. -/
  | driveControllerReady (port : Nat)
  /-- HARVEST_COMPLETE (R396): A dirty-log harvest completes when its last atomic OR is performed, and DHARVEST.GO stops reading 1. -/
  | harvestComplete (cluster : Nat)
  deriving DecidableEq, Repr

end Sys2Proof
end

