-- ==== Sys2Proof/WellFormed.lean ====
section
/-! DEFINITION. Which instruction terms have a legal encoding (R140 check 2), and which events name units that exist (R14). -/

namespace Sys2Proof

/-- A scalar register field names x0-x31 or h0-h15 (R137). -/
def regOk (r : RegField) : Bool := decide (r.toNat < 48)

/-- The field does not name a Hatch (R138). -/
def notHatch (r : RegField) : Bool := decide (r.toNat < 32)

/-- A register pair field: even, 0 to 30 (R184, R228). -/
def pairOk (r : RegField) : Bool := decide (r.toNat ≤ 30 ∧ r.toNat % 2 = 0)

/-- Position plus width does not exceed 64 (R146); the field holds width - 1. -/
def fits (pos width : BitVec 6) : Bool := decide (pos.toNat + width.toNat + 1 ≤ 64)

/-- An integer element type: ET 0-4 (R154, R155). -/
def intType (et : BitVec 3) : Bool := decide (et.toNat ≤ 4)

/-- The CSR number is one of R346. -/
def csrAssigned (c : BitVec 11) : Bool :=
  let n := c.toNat
  decide (n ≤ 0x008) || decide (0x010 ≤ n ∧ n ≤ 0x019) || decide (0x020 ≤ n ∧ n ≤ 0x023) ||
  decide (0x028 ≤ n ∧ n ≤ 0x02B) || decide (0x030 ≤ n ∧ n ≤ 0x034) || decide (0x040 ≤ n ∧ n ≤ 0x046) ||
  decide (0x048 ≤ n ∧ n ≤ 0x04D)

/-- The checks of each row. -/
def wellFormed : Instr → Bool
  | .add rd rs1 rs2 => regOk rd && regOk rs1 && regOk rs2
  | .sub rd rs1 rs2 => regOk rd && regOk rs1 && regOk rs2
  | .and rd rs1 rs2 => regOk rd && regOk rs1 && regOk rs2
  | .andn rd rs1 rs2 => regOk rd && regOk rs1 && regOk rs2
  | .or rd rs1 rs2 => regOk rd && regOk rs1 && regOk rs2
  | .xor rd rs1 rs2 => regOk rd && regOk rs1 && regOk rs2
  | .sll rd rs1 rs2 => regOk rd && regOk rs1 && regOk rs2
  | .srl rd rs1 rs2 => regOk rd && regOk rs1 && regOk rs2
  | .sra rd rs1 rs2 => regOk rd && regOk rs1 && regOk rs2
  | .rot rd rs1 rs2 => regOk rd && regOk rs1 && regOk rs2
  | .mul rd rs1 rs2 => regOk rd && regOk rs1 && regOk rs2
  | .mulh rd rs1 rs2 => regOk rd && regOk rs1 && regOk rs2
  | .mulhn rd rs1 rs2 => regOk rd && regOk rs1 && regOk rs2
  | .div rd rs1 rs2 => regOk rd && regOk rs1 && regOk rs2
  | .divn rd rs1 rs2 => regOk rd && regOk rs1 && regOk rs2
  | .rem rd rs1 rs2 => regOk rd && regOk rs1 && regOk rs2
  | .remn rd rs1 rs2 => regOk rd && regOk rs1 && regOk rs2
  | .min rd rs1 rs2 => regOk rd && regOk rs1 && regOk rs2
  | .max rd rs1 rs2 => regOk rd && regOk rs1 && regOk rs2
  | .minn rd rs1 rs2 => regOk rd && regOk rs1 && regOk rs2
  | .maxn rd rs1 rs2 => regOk rd && regOk rs1 && regOk rs2
  | .clz rd rs1 => regOk rd && regOk rs1
  | .ctz rd rs1 => regOk rd && regOk rs1
  | .popc rd rs1 => regOk rd && regOk rs1
  | .brev rd rs1 => regOk rd && regOk rs1
  | .bswap rd rs1 => regOk rd && regOk rs1
  | .csel rd rs1 rs2 _ => regOk rd && regOk rs1 && regOk rs2
  | .addi rd rs1 _ => regOk rd && regOk rs1
  | .andi rd rs1 _ => regOk rd && regOk rs1
  | .ori rd rs1 _ => regOk rd && regOk rs1
  | .xori rd rs1 _ => regOk rd && regOk rs1
  | .slli rd rs1 _ => regOk rd && regOk rs1
  | .srli rd rs1 _ => regOk rd && regOk rs1
  | .srai rd rs1 _ => regOk rd && regOk rs1
  | .roti rd rs1 _ => regOk rd && regOk rs1
  | .extS rd rs1 pos width => regOk rd && regOk rs1 && fits pos width
  | .extn rd rs1 pos width => regOk rd && regOk rs1 && fits pos width
  | .insF rd rs1 pos width => regOk rd && regOk rs1 && fits pos width && notHatch rd
  | .lih rd _ => regOk rd
  | .addpc rd _ => regOk rd
  | .cmp _ rs1 rs2 cc => regOk rs1 && regOk rs2 && decide (cc.toNat < 6)
  | .cmpi _ cc rs1 _ => regOk rs1 && decide (cc.toNat < 6)
  | .pand _ _ _ => true
  | .por _ _ _ => true
  | .pxor _ _ _ => true
  | .pandn _ _ _ => true
  | .pset _ rs1 => regOk rs1
  | .pget rd => regOk rd
  | .bp _ _ => true
  | .bnp _ _ => true
  | .cbz rs1 _ => regOk rs1
  | .cbnz rs1 _ => regOk rs1
  | .jal rd _ => regOk rd
  | .jalr rd rs1 _ => regOk rd && regOk rs1
  | .ldS8 rd rs1 _ => regOk rd && regOk rs1
  | .ldN8 rd rs1 _ => regOk rd && regOk rs1
  | .ldS16 rd rs1 _ => regOk rd && regOk rs1
  | .ldN16 rd rs1 _ => regOk rd && regOk rs1
  | .ldS32 rd rs1 _ => regOk rd && regOk rs1
  | .ldN32 rd rs1 _ => regOk rd && regOk rs1
  | .ldD64 rd rs1 _ => regOk rd && regOk rs1
  | .stN8 _ rs1 rs2 => regOk rs1 && regOk rs2
  | .stN16 _ rs1 rs2 => regOk rs1 && regOk rs2
  | .stN32 _ rs1 rs2 => regOk rs1 && regOk rs2
  | .stD64 _ rs1 rs2 => regOk rs1 && regOk rs2
  | .ldx rd rs1 _ => regOk rd && regOk rs1 && pairOk rd
  | .stx _ rs1 rs2 => regOk rs1 && regOk rs2 && pairOk rs2
  | .pref rs1 _ => regOk rs1
  | .amo32 rd rs1 rs2 ord op => regOk rd && regOk rs1 && regOk rs2 && decide (op.toNat ≤ 8) && ord != 7#3
  | .amo64 rd rs1 rs2 ord op => regOk rd && regOk rs1 && regOk rs2 && decide (op.toNat ≤ 8) && ord != 7#3
  | .cas rd rs1 rs2 ord _ => regOk rd && regOk rs1 && regOk rs2 && notHatch rd && ord != 7#3
  | .red32 rs1 rs2 ord op => regOk rs1 && regOk rs2 && decide (op.toNat ≤ 7) && ord != 7#3
  | .red64 rs1 rs2 ord op => regOk rs1 && regOk rs2 && decide (op.toNat ≤ 7) && ord != 7#3
  | .fred rs1 rs2 ord _ => regOk rs1 && regOk rs2 && ord != 7#3
  | .ldfull rd rs1 => regOk rd && regOk rs1
  | .ldtake rd rs1 => regOk rd && regOk rs1
  | .stfill rs1 rs2 => regOk rs1 && regOk rs2
  | .stforce rs1 rs2 => regOk rs1 && regOk rs2
  | .tagrd rd rs1 => regOk rd && regOk rs1
  | .twBackoffExpiry g => decide (g < 32768)
  | .taggedOpComplete g => decide (g < 32768)
  | .waitLimitExpiry g => decide (g < 32768)
  | .withdrawalAnswer g => decide (g < 32768)
  | .phase scope half => half != 0#2 && scope != 3#2
  | .publishComplete g => decide (g < 32768)
  | .monarm rd rs1 => regOk rd && regOk rs1
  | .monwait rd rs1 => regOk rd && regOk rs1
  | .monclr rs1 => regOk rs1
  | .monitorWake g entry => decide (g < 32768) && decide (entry < 4)
  | .monwaitTimeout g => decide (g < 32768)
  | .barcfg rs1 rs2 _ => regOk rs1 && regOk rs2
  | .bararr _ => true
  | .barwait _ => true
  | .bardrop _ => true
  | .barrierSignal core ctx _ _ => decide (core < 2048) && decide (ctx < 4)
  | .barrierRelease core ctx _ => decide (core < 2048) && decide (ctx < 4)
  | .spawn rd rs1 rs2 => regOk rd && regOk rs1 && regOk rs2
  | .spawnW rd rs1 rs2 => regOk rd && regOk rs1 && regOk rs2
  | .doneTask => true
  | .yield => true
  | .suspend rs1 => regOk rs1
  | .wake rd rs1 rs2 => regOk rd && regOk rs1 && regOk rs2
  | .rfork rd rs1 rs2 => regOk rd && regOk rs1 && regOk rs2
  | .rforkSh rd rs2 => regOk rd && regOk rs2
  | .rhold rd rs1 => regOk rd && regOk rs1
  | .rdrop rd rs1 => regOk rd && regOk rs1
  | .rcancel rd rs1 => regOk rd && regOk rs1
  | .rretire rd rs1 => regOk rd && regOk rs1
  | .rstat rd rs1 rs2 => regOk rd && regOk rs1 && regOk rs2
  | .msend rs1 rs2 words => regOk rs1 && regOk rs2 && decide (rs2.toNat + words.toNat ≤ 31)
  | .mrecv rd rs1 => regOk rd && regOk rs1 && decide (1 ≤ rd.toNat ∧ rd.toNat ≤ 27)
  | .mbind rd rs1 rs2 => regOk rd && regOk rs1 && regOk rs2
  | .claim rd rs1 => regOk rd && regOk rs1 && (rd == 2#6 || rd == 4#6) && pairOk rs1
  | .fulfil rd rs1 rs2 => regOk rd && regOk rs1 && regOk rs2 && pairOk rs1
  | .abandon rd rs1 => regOk rd && regOk rs1 && pairOk rs1
  | .lpin rd rs1 => regOk rd && regOk rs1 && pairOk rs1
  | .lunpin rd rs1 => regOk rd && regOk rs1 && pairOk rs1
  | .linval rd rs1 => regOk rd && regOk rs1 && pairOk rs1
  | .larderDeferredEnqueue part => decide (part < 16)
  | .hbind rd rs1 rs2 => regOk rd && regOk rs1 && regOk rs2
  | .hstat rd rs1 => regOk rd && regOk rs1
  | .vclaim rd rs1 => regOk rd && regOk rs1
  | .vyield => true
  | .vadd _ _ _ _ et => intType et
  | .vsub _ _ _ _ et => intType et
  | .vmul _ _ _ _ et => intType et
  | .vmin _ _ _ _ _ => true
  | .vmax _ _ _ _ _ => true
  | .vabs _ _ _ _ => true
  | .vneg _ _ _ _ => true
  | .vand _ _ _ _ _ => true
  | .vor _ _ _ _ _ => true
  | .vxor _ _ _ _ _ => true
  | .vnot _ _ _ _ => true
  | .vshl _ _ _ _ et => intType et
  | .vshr _ _ _ _ et => intType et
  | .vsra _ _ _ _ et => intType et
  | .vsel _ _ _ _ _ => true
  | .vmov _ _ _ _ => true
  | .vfadd _ _ _ _ et _ => !intType et
  | .vfsub _ _ _ _ et _ => !intType et
  | .vfmul _ _ _ _ et _ => !intType et
  | .vfma _ _ _ _ et _ => !intType et
  | .vfms _ _ _ _ et _ => !intType et
  | .vcvt _ _ _ _ _ _ => true
  | .vsqrt _ _ _ _ => true
  | .vrcp _ _ _ _ => true
  | .vrsq _ _ _ _ => true
  | .vexp2 _ _ _ _ => true
  | .vlog2 _ _ _ _ => true
  | .vcmp _ _ _ _ _ _ => true
  | .vsplat _ _ _ _ => true
  | .vextr _ _ _ _ _ => true
  | .viota _ _ _ => true
  | .vred _ op _ _ _ => decide (op.toNat ≤ 5)
  | .vscan _ op _ _ _ => decide (op.toNat ≤ 5)
  | .vperm _ _ _ _ => true
  | .vslide _ _ _ _ => true
  | .mand _ _ _ => true
  | .mor _ _ _ => true
  | .mnot _ _ => true
  | .mpop _ _ => true
  | .mfirst _ _ => true
  | .vld _ rs1 sz _ => regOk rs1 && sz != 3#2
  | .vst _ rs1 sz _ => regOk rs1 && sz != 3#2
  | .vlds _ rs1 xs sz _ => regOk rs1 && regOk xs && sz != 3#2
  | .vsts _ rs1 xs sz _ => regOk rs1 && regOk xs && sz != 3#2
  | .vgath _ rs1 _ sz _ => regOk rs1 && sz != 3#2
  | .vscat _ rs1 _ sz _ => regOk rs1 && sz != 3#2
  | .vldl _ rs1 sz _ => regOk rs1 && sz != 3#2
  | .vstl _ rs1 sz _ => regOk rs1 && sz != 3#2
  | .vadd16 _ _ => true
  | .vsub16 _ _ => true
  | .vmul16 _ _ => true
  | .vmin16 _ _ => true
  | .vmax16 _ _ => true
  | .vabs16 _ _ => true
  | .vneg16 _ _ => true
  | .vand16 _ _ => true
  | .vor16 _ _ => true
  | .vxor16 _ _ => true
  | .vnot16 _ _ => true
  | .vshl16 _ _ => true
  | .vshr16 _ _ => true
  | .vsra16 _ _ => true
  | .vmov16 _ _ => true
  | .vrcp16 _ _ => true
  | .mcfgShape rs1 => regOk rs1
  | .mcfgFmt rs1 => regOk rs1
  | .mcfgA rs1 rs2 => regOk rs1 && regOk rs2
  | .mcfgB rs1 rs2 => regOk rs1 && regOk rs2
  | .mma => true
  | .mmaZ => true
  | .mzero rs1 => regOk rs1
  | .mload rs1 rs2 => regOk rs1 && regOk rs2
  | .mstore rd rs1 rs2 _ => regOk rd && regOk rs1 && regOk rs2
  | .mscale rs1 rs2 => regOk rs1 && regOk rs2
  | .mcell rs1 => regOk rs1
  | .ksel rd rs1 rs2 => regOk rd && regOk rs1 && regOk rs2
  | .kgather rs1 => regOk rs1
  | .ksreset rs1 => regOk rs1
  | .drawG rd rs1 => regOk rd && regOk rs1
  | .drawS rd rs1 => regOk rd && regOk rs1
  | .drawV rd rs1 rs2 => regOk rd && regOk rs1 && regOk rs2
  | .matrixOpComplete g => decide (g < 32768)
  | .csrr rd csr => regOk rd && csrAssigned csr
  | .csrw rd rs1 csr => regOk rd && regOk rs1 && csrAssigned csr
  | .csrset rd rs1 csr => regOk rd && regOk rs1 && csrAssigned csr
  | .csrclr rd rs1 csr => regOk rd && regOk rs1 && csrAssigned csr
  | .nop => true
  | .tret => true
  | .brk => true
  | .eret => true
  | .rqenq rd rs1 rs2 => regOk rd && regOk rs1 && regOk rs2
  | .rqdeq rd rs1 rs2 => regOk rd && regOk rs1 && regOk rs2
  | .slotctlQuery rd rs1 rs2 => regOk rd && regOk rs1 && regOk rs2
  | .slotctlStart rd rs1 rs2 => regOk rd && regOk rs1 && regOk rs2
  | .slotctlPreempt rd rs1 rs2 => regOk rd && regOk rs1 && regOk rs2
  | .slotctlResume rd rs1 rs2 => regOk rd && regOk rs1 && regOk rs2
  | .slotctlKill rd rs1 rs2 => regOk rd && regOk rs1 && regOk rs2
  | .slotctlCopystop rd rs1 rs2 => regOk rd && regOk rs1 && regOk rs2
  | .slotctlRelease rd rs1 rs2 => regOk rd && regOk rs1 && regOk rs2
  | .closave rd rs1 rs2 => regOk rd && regOk rs1 && regOk rs2
  | .clorest rd rs1 => regOk rd && regOk rs1
  | .tlbinv rs1 rs2 => regOk rs1 && regOk rs2
  | .cflushLine rs1 rs2 => regOk rs1 && regOk rs2
  | .cflushWriteback rs1 rs2 => regOk rs1 && regOk rs2
  | .cflushAll rs1 rs2 => regOk rs1 && regOk rs2
  | .halt => true
  | .trapImm _ => true
  | .takeAsyncTrap g => decide (g < 32768)
  | .budgetExpiry g => decide (g < 32768)
  | .timercmpExpiry core => decide (core < 2048)
  | .loadComplete g _ _ => decide (g < 32768)
  | .atomicComplete g _ _ => decide (g < 32768)
  | .dispatch core => decide (core < 2048)
  | .resumeContext core => decide (core < 2048)
  | .timerPreemption core => decide (core < 2048)
  | .demandPreemption core => decide (core < 2048)
  | .ringMove queue level => decide (queue < 2176) && decide (level < 4)
  | .launchQueueWrite die part _ _ => decide (die < 4) && decide (part < 16)
  | .launchAccept die part => decide (die < 4) && decide (part < 16)
  | .requestExpiry rtag => decide (rtag < 262144)
  | .annulNoticeArrival die rtag => decide (die < 4) && decide (rtag < 262144)
  | .slotAnnul g => decide (g < 32768)
  | .annulAckArrival rtag die => decide (rtag < 262144) && decide (die < 4)
  | .peerWorkArrival _ => true
  | .peerCancelNotice _ rtag => decide (rtag < 262144)
  | .drainMarker _ rtag => decide (rtag < 262144)
  | .drainAck rtag _ => decide (rtag < 262144)
  | .noproxyResend g => decide (g < 32768)
  | .messageArrival core cls _ => decide (core < 2048) && decide (cls < 8)
  | .freeSlotNotice core => decide (core < 2048)
  | .copyLinear core hatch => decide (core < 2048) && decide (hatch < 16)
  | .copyStrided core hatch => decide (core < 2048) && decide (hatch < 16)
  | .copyGather core hatch => decide (core < 2048) && decide (hatch < 16)
  | .copyScatter core hatch => decide (core < 2048) && decide (hatch < 16)
  | .copyResume core hatch => decide (core < 2048) && decide (hatch < 16)
  | .collGroup core hatch => decide (core < 2048) && decide (hatch < 16)
  | .collAllreduce core hatch => decide (core < 2048) && decide (hatch < 16)
  | .collAllgather core hatch => decide (core < 2048) && decide (hatch < 16)
  | .collRedscat core hatch => decide (core < 2048) && decide (hatch < 16)
  | .collBcast core hatch => decide (core < 2048) && decide (hatch < 16)
  | .cellarRead core hatch => decide (core < 2048) && decide (hatch < 16)
  | .cellarWrite core hatch => decide (core < 2048) && decide (hatch < 16)
  | .stairSend core hatch => decide (core < 2048) && decide (hatch < 16)
  | .stairReset core hatch => decide (core < 2048) && decide (hatch < 16)
  | .stairBuf core hatch => decide (core < 2048) && decide (hatch < 16)
  | .stairFree core hatch => decide (core < 2048) && decide (hatch < 16)
  | .stairRecordArrival dir => decide (dir < 8)
  | .stairResetArrival dir _ => decide (dir < 8)
  | .commandCompletion _ => true
  | .nvmeCompletion _ _ _ => true
  | .walkComplete g => decide (g < 32768)
  | .dirtyLogMerge core => decide (core < 2048)
  | .dharvestGo cluster => decide (cluster < 64)
  | .fbheadRead die => decide (die < 4)
  | .fbrespRetry die _ => decide (die < 4)
  | .fbrespFailXlate die _ => decide (die < 4)
  | .fbrespFailPerm die _ => decide (die < 4)
  | .clustctlDrain cluster => decide (cluster < 64)
  | .clustctlAssign cluster part => decide (cluster < 64) && decide (part < 16)
  | .rtfreeWrite die _ => decide (die < 4)
  | .dqctlWrite die part _ => decide (die < 4) && decide (part < 16)
  | .ringdWrite queue level _ => decide (queue < 2176) && decide (level < 4)
  | .ffpoolWrite die part _ => decide (die < 4) && decide (part < 16)
  | .fftailWrite die part _ => decide (die < 4) && decide (part < 16)
  | .walkshareWrite cluster part _ => decide (cluster < 64) && decide (part < 16)
  | .tilecapWrite tile _ => decide (tile < 512)
  | .statusSchedWrite g _ => decide (g < 32768)
  | .timercmpWrite core _ => decide (core < 2048)
  | .lmsplitWrite core _ => decide (core < 2048)
  | .lmshareWrite core _ => decide (core < 2048)
  | .lmgroupWrite tile _ => decide (tile < 512)
  | .dsplitWrite die _ => decide (die < 4)
  | .vgrantWrite g _ => decide (g < 32768)
  | .freqreqWrite core _ => decide (core < 2048)
  | .featmaskWrite core _ => decide (core < 2048)
  | .budgetleftWrite g _ => decide (g < 32768)
  | .registerWrite _ _ => true
  | .dvfsStep tile => decide (tile < 512)
  | .powerPeriod _ => true
  | .timeSync _ _ => true
  | .linkFailure port => decide (port < 12)
  | .atsInvalidation _ => true
  | .hostMemAccess _ _ _ => true
  | .driveTimeout port => decide (port < 8)
  | .driveLinkDown port => decide (port < 8)
  | .deviceReset => true
  | .romSelfCheck _ => true
  | .firmwareVerify => true
  | .calibration _ => true
  | .memoryInit _ => true
  | .firmwareConfig _ _ _ => true
  | .setReady => true
  | .firmwareDelivery _ => true
  | .rollbackRaise _ => true
  | .getVersion => true
  | .getCapabilities => true
  | .negotiateAlgorithms _ _ => true
  | .getDigests => true
  | .getCertificate _ _ => true
  | .getMeasurements _ _ _ => true
  | .illegalOp g _ => decide (g < 32768)
  | .fetchFault g => decide (g < 32768)
  | .preemptionComplete core => decide (core < 2048)
  | .dieToDieLinkFailure stair => decide (stair < 4)
  | .driveControllerReady port => decide (port < 8)
  | .harvestComplete cluster => decide (cluster < 64)

end Sys2Proof
end

