-- ==== Sys2Proof/Decode.lean ====
section
/-! DEFINITION. The decoder, total on any bytes, and the encoder, from the formats and maps of R139-R158. -/

namespace Sys2Proof

/-- Bits [lo + len - 1 : lo] of a word (R3). -/
def bits (w : BitVec 32) (lo len : Nat) : BitVec len := w.extractLsb' lo len

/-- Bits [lo + len - 1 : lo] of a field. -/
def sub {n : Nat} (x : BitVec n) (lo len : Nat) : BitVec len := x.extractLsb' lo len

/-- The R, T and M formats: FN7, rs2, rs1, rd and the major opcode (R141). -/
def encR (fn7 : BitVec 7) (rs2 rs1 rd maj : BitVec 6) : BitVec 32 := fn7 ++ rs2 ++ rs1 ++ rd ++ maj ++ 1#1

/-- The I format (R141). -/
def encI (imm : BitVec 13) (rs1 rd maj : BitVec 6) : BitVec 32 := imm ++ rs1 ++ rd ++ maj ++ 1#1

/-- The S format: the immediate split around the registers (R141). -/
def encS (imm : BitVec 13) (rs2 rs1 maj : BitVec 6) : BitVec 32 :=
  imm.extractLsb' 6 7 ++ rs2 ++ rs1 ++ imm.extractLsb' 0 6 ++ maj ++ 1#1

/-- The B format (R141). -/
def encB (off : BitVec 13) (rs1 : BitVec 6) (ps cond : BitVec 3) (maj : BitVec 6) : BitVec 32 :=
  off ++ rs1 ++ ps ++ cond ++ maj ++ 1#1

/-- The J format (R141). -/
def encJ (imm : BitVec 19) (rd maj : BitVec 6) : BitVec 32 := imm ++ rd ++ maj ++ 1#1

/-- The C format (R141). -/
def encC (fn2 : BitVec 2) (csr : BitVec 11) (rs1 rd maj : BitVec 6) : BitVec 32 := fn2 ++ csr ++ rs1 ++ rd ++ maj ++ 1#1

/-- The V format (R141). -/
def encV (fn4 : BitVec 4) (et mk : BitVec 3) (vs2 vs1 vd : BitVec 5) (maj : BitVec 6) : BitVec 32 :=
  fn4 ++ et ++ mk ++ vs2 ++ vs1 ++ vd ++ maj ++ 1#1

/-- The VM format (R141). -/
def encVM (mk : BitVec 3) (sz fnh : BitVec 2) (x rs1 : BitVec 6) (vd : BitVec 5) (fnl : BitVec 1) (maj : BitVec 6) : BitVec 32 :=
  mk ++ sz ++ fnh ++ x ++ rs1 ++ vd ++ fnl ++ maj ++ 1#1

/-- The 16-bit format (R143). -/
def enc16 (vs2 vd op5 : BitVec 5) : BitVec 32 := 0#16 ++ vs2 ++ vd ++ op5 ++ 0#1

/-- Major opcode 1 (R144). -/
def decOp (fn7 : BitVec 7) (rs2 : BitVec 6) (rs1 : BitVec 6) (rd : BitVec 6) : Option Instr :=
  if fn7 = 0#7 then some (.add rd rs1 rs2)
  else if fn7 = 1#7 then some (.sub rd rs1 rs2)
  else if fn7 = 2#7 then some (.and rd rs1 rs2)
  else if fn7 = 3#7 then some (.andn rd rs1 rs2)
  else if fn7 = 4#7 then some (.or rd rs1 rs2)
  else if fn7 = 5#7 then some (.xor rd rs1 rs2)
  else if fn7 = 6#7 then some (.sll rd rs1 rs2)
  else if fn7 = 7#7 then some (.srl rd rs1 rs2)
  else if fn7 = 8#7 then some (.sra rd rs1 rs2)
  else if fn7 = 9#7 then some (.rot rd rs1 rs2)
  else if fn7 = 10#7 then some (.mul rd rs1 rs2)
  else if fn7 = 11#7 then some (.mulh rd rs1 rs2)
  else if fn7 = 12#7 then some (.mulhn rd rs1 rs2)
  else if fn7 = 13#7 then some (.div rd rs1 rs2)
  else if fn7 = 14#7 then some (.divn rd rs1 rs2)
  else if fn7 = 15#7 then some (.rem rd rs1 rs2)
  else if fn7 = 16#7 then some (.remn rd rs1 rs2)
  else if fn7 = 17#7 then some (.min rd rs1 rs2)
  else if fn7 = 18#7 then some (.max rd rs1 rs2)
  else if fn7 = 19#7 then some (.minn rd rs1 rs2)
  else if fn7 = 20#7 then some (.maxn rd rs1 rs2)
  else if fn7 = 21#7 ∧ rs2 = 0#6 then some (.clz rd rs1)
  else if fn7 = 22#7 ∧ rs2 = 0#6 then some (.ctz rd rs1)
  else if fn7 = 23#7 ∧ rs2 = 0#6 then some (.popc rd rs1)
  else if fn7 = 24#7 ∧ rs2 = 0#6 then some (.brev rd rs1)
  else if fn7 = 25#7 ∧ rs2 = 0#6 then some (.bswap rd rs1)
  else if sub fn7 3 4 = 8#4 then some (.csel rd rs1 rs2 (sub fn7 0 3))
  else none

/-- Major opcode 6 (R144). -/
def decShi (imm : BitVec 13) (rs1 : BitVec 6) (rd : BitVec 6) : Option Instr :=
  if sub imm 6 7 = 0#7 then some (.slli rd rs1 (sub imm 0 6))
  else if sub imm 6 7 = 32#7 then some (.srli rd rs1 (sub imm 0 6))
  else if sub imm 6 7 = 64#7 then some (.srai rd rs1 (sub imm 0 6))
  else if sub imm 6 7 = 96#7 then some (.roti rd rs1 (sub imm 0 6))
  else none

/-- Major opcode 7 (R144). -/
def decExt (imm : BitVec 13) (rs1 : BitVec 6) (rd : BitVec 6) : Option Instr :=
  if sub imm 6 1 = 0#1 then some (.extS rd rs1 (sub imm 0 6) (sub imm 7 6))
  else if sub imm 6 1 = 1#1 then some (.extn rd rs1 (sub imm 0 6) (sub imm 7 6))
  else none

/-- Major opcode 8 (R144). -/
def decIns (imm : BitVec 13) (rs1 : BitVec 6) (rd : BitVec 6) : Option Instr :=
  if sub imm 6 1 = 0#1 then some (.insF rd rs1 (sub imm 0 6) (sub imm 7 6))
  else none

/-- Major opcode 11 (R144). -/
def decCmp (fn7 : BitVec 7) (rs2 : BitVec 6) (rs1 : BitVec 6) (rd : BitVec 6) : Option Instr :=
  if sub fn7 3 4 = 0#4 ∧ sub rd 3 3 = 0#3 then some (.cmp (sub rd 0 3) rs1 rs2 (sub fn7 0 3))
  else none

/-- Major opcode 13 (R144). -/
def decPred (fn7 : BitVec 7) (rs2 : BitVec 6) (rs1 : BitVec 6) (rd : BitVec 6) : Option Instr :=
  if fn7 = 0#7 ∧ sub rs2 3 3 = 0#3 ∧ sub rs1 3 3 = 0#3 ∧ sub rd 3 3 = 0#3 then some (.pand (sub rd 0 3) (sub rs1 0 3) (sub rs2 0 3))
  else if fn7 = 1#7 ∧ sub rs2 3 3 = 0#3 ∧ sub rs1 3 3 = 0#3 ∧ sub rd 3 3 = 0#3 then some (.por (sub rd 0 3) (sub rs1 0 3) (sub rs2 0 3))
  else if fn7 = 2#7 ∧ sub rs2 3 3 = 0#3 ∧ sub rs1 3 3 = 0#3 ∧ sub rd 3 3 = 0#3 then some (.pxor (sub rd 0 3) (sub rs1 0 3) (sub rs2 0 3))
  else if fn7 = 3#7 ∧ sub rs2 3 3 = 0#3 ∧ sub rs1 3 3 = 0#3 ∧ sub rd 3 3 = 0#3 then some (.pandn (sub rd 0 3) (sub rs1 0 3) (sub rs2 0 3))
  else if fn7 = 4#7 ∧ rs2 = 0#6 ∧ sub rd 3 3 = 0#3 then some (.pset (sub rd 0 3) rs1)
  else if fn7 = 5#7 ∧ rs2 = 0#6 ∧ rs1 = 0#6 then some (.pget rd)
  else none

/-- Major opcode 14 (R144). -/
def decBr (off : BitVec 13) (rs1 : BitVec 6) (ps : BitVec 3) (cond : BitVec 3) : Option Instr :=
  if rs1 = 0#6 ∧ cond = 0#3 then some (.bp ps off)
  else if rs1 = 0#6 ∧ cond = 1#3 then some (.bnp ps off)
  else if ps = 0#3 ∧ cond = 2#3 then some (.cbz rs1 off)
  else if ps = 0#3 ∧ cond = 3#3 then some (.cbnz rs1 off)
  else none

/-- Major opcode 30 (R144). -/
def decMaj30 (imm : BitVec 13) (rs1 : BitVec 6) (rd : BitVec 6) : Option Instr :=
  if rd = 0#6 then some (.pref rs1 imm)
  else none

/-- Major opcode 33 (R144). -/
def decCas (fn7 : BitVec 7) (rs2 : BitVec 6) (rs1 : BitVec 6) (rd : BitVec 6) : Option Instr :=
  if sub fn7 4 3 = 0#3 then some (.cas rd rs1 rs2 (sub fn7 0 3) (sub fn7 3 1))
  else none

/-- Major opcode 34 (R144). -/
def decRed32 (fn7 : BitVec 7) (rs2 : BitVec 6) (rs1 : BitVec 6) (rd : BitVec 6) : Option Instr :=
  if rd = 0#6 then some (.red32 rs1 rs2 (sub fn7 0 3) (sub fn7 3 4))
  else none

/-- Major opcode 35 (R144). -/
def decRed64 (fn7 : BitVec 7) (rs2 : BitVec 6) (rs1 : BitVec 6) (rd : BitVec 6) : Option Instr :=
  if rd = 0#6 then some (.red64 rs1 rs2 (sub fn7 0 3) (sub fn7 3 4))
  else none

/-- Major opcode 36 (R144). -/
def decFred (fn7 : BitVec 7) (rs2 : BitVec 6) (rs1 : BitVec 6) (rd : BitVec 6) : Option Instr :=
  if sub fn7 4 3 = 0#3 ∧ rd = 0#6 then some (.fred rs1 rs2 (sub fn7 0 3) (sub fn7 3 1))
  else none

/-- Major opcode 37 (R144). -/
def decTw (fn7 : BitVec 7) (rs2 : BitVec 6) (rs1 : BitVec 6) (rd : BitVec 6) : Option Instr :=
  if fn7 = 0#7 ∧ rs2 = 0#6 then some (.ldfull rd rs1)
  else if fn7 = 1#7 ∧ rs2 = 0#6 then some (.ldtake rd rs1)
  else if fn7 = 2#7 ∧ rd = 0#6 then some (.stfill rs1 rs2)
  else if fn7 = 3#7 ∧ rd = 0#6 then some (.stforce rs1 rs2)
  else if fn7 = 4#7 ∧ rs2 = 0#6 then some (.tagrd rd rs1)
  else none

/-- Major opcode 38 (R144). -/
def decSync (fn7 : BitVec 7) (rs2 : BitVec 6) (rs1 : BitVec 6) (rd : BitVec 6) : Option Instr :=
  if sub fn7 4 3 = 0#3 ∧ rs2 = 0#6 ∧ rs1 = 0#6 ∧ rd = 0#6 then some (.phase (sub fn7 0 2) (sub fn7 2 2))
  else if fn7 = 16#7 ∧ rs2 = 0#6 then some (.monarm rd rs1)
  else if fn7 = 32#7 ∧ rs2 = 0#6 then some (.monwait rd rs1)
  else if fn7 = 48#7 ∧ rs2 = 0#6 ∧ rd = 0#6 then some (.monclr rs1)
  else if sub fn7 4 3 = 4#3 ∧ sub fn7 0 2 = 0#2 ∧ rd = 0#6 then some (.barcfg rs1 rs2 (sub fn7 2 2))
  else if sub fn7 4 3 = 5#3 ∧ sub fn7 0 2 = 0#2 ∧ rs2 = 0#6 ∧ rs1 = 0#6 ∧ rd = 0#6 then some (.bararr (sub fn7 2 2))
  else if sub fn7 4 3 = 6#3 ∧ sub fn7 0 2 = 0#2 ∧ rs2 = 0#6 ∧ rs1 = 0#6 ∧ rd = 0#6 then some (.barwait (sub fn7 2 2))
  else if sub fn7 4 3 = 7#3 ∧ sub fn7 0 2 = 0#2 ∧ rs2 = 0#6 ∧ rs1 = 0#6 ∧ rd = 0#6 then some (.bardrop (sub fn7 2 2))
  else none

/-- Major opcode 39 (R144). -/
def decTask (fn7 : BitVec 7) (rs2 : BitVec 6) (rs1 : BitVec 6) (rd : BitVec 6) : Option Instr :=
  if fn7 = 0#7 then some (.spawn rd rs1 rs2)
  else if fn7 = 1#7 then some (.spawnW rd rs1 rs2)
  else if fn7 = 4#7 ∧ rs2 = 0#6 ∧ rs1 = 0#6 ∧ rd = 0#6 then some (.doneTask)
  else if fn7 = 8#7 ∧ rs2 = 0#6 ∧ rs1 = 0#6 ∧ rd = 0#6 then some (.yield)
  else if fn7 = 12#7 ∧ rs2 = 0#6 ∧ rd = 0#6 then some (.suspend rs1)
  else if fn7 = 16#7 then some (.wake rd rs1 rs2)
  else if fn7 = 20#7 then some (.rfork rd rs1 rs2)
  else if fn7 = 21#7 ∧ rs1 = 0#6 then some (.rforkSh rd rs2)
  else if fn7 = 24#7 ∧ rs2 = 0#6 then some (.rhold rd rs1)
  else if fn7 = 28#7 ∧ rs2 = 0#6 then some (.rdrop rd rs1)
  else if fn7 = 32#7 ∧ rs2 = 0#6 then some (.rcancel rd rs1)
  else if fn7 = 36#7 ∧ rs2 = 0#6 then some (.rretire rd rs1)
  else if fn7 = 40#7 then some (.rstat rd rs1 rs2)
  else if sub fn7 2 5 = 11#5 ∧ rd = 0#6 then some (.msend rs1 rs2 (sub fn7 0 2))
  else if fn7 = 48#7 ∧ rs2 = 0#6 then some (.mrecv rd rs1)
  else if fn7 = 52#7 then some (.mbind rd rs1 rs2)
  else if fn7 = 56#7 ∧ rs2 = 0#6 then some (.claim rd rs1)
  else if fn7 = 60#7 then some (.fulfil rd rs1 rs2)
  else if fn7 = 64#7 ∧ rs2 = 0#6 then some (.abandon rd rs1)
  else if fn7 = 68#7 ∧ rs2 = 0#6 then some (.lpin rd rs1)
  else if fn7 = 72#7 ∧ rs2 = 0#6 then some (.lunpin rd rs1)
  else if fn7 = 76#7 ∧ rs2 = 0#6 then some (.linval rd rs1)
  else if fn7 = 80#7 then some (.hbind rd rs1 rs2)
  else if fn7 = 84#7 ∧ rs2 = 0#6 then some (.hstat rd rs1)
  else if fn7 = 88#7 ∧ rs2 = 0#6 then some (.vclaim rd rs1)
  else if fn7 = 92#7 ∧ rs2 = 0#6 ∧ rs1 = 0#6 ∧ rd = 0#6 then some (.vyield)
  else none

/-- Major opcode 40 (R144). -/
def decVint (fn4 : BitVec 4) (et : BitVec 3) (mk : BitVec 3) (vs2 : BitVec 5) (vs1 : BitVec 5) (vd : BitVec 5) : Option Instr :=
  if fn4 = 0#4 then some (.vadd vd vs1 vs2 mk et)
  else if fn4 = 1#4 then some (.vsub vd vs1 vs2 mk et)
  else if fn4 = 2#4 then some (.vmul vd vs1 vs2 mk et)
  else if fn4 = 3#4 then some (.vmin vd vs1 vs2 mk et)
  else if fn4 = 4#4 then some (.vmax vd vs1 vs2 mk et)
  else if fn4 = 5#4 ∧ vs1 = 0#5 then some (.vabs vd vs2 mk et)
  else if fn4 = 6#4 ∧ vs1 = 0#5 then some (.vneg vd vs2 mk et)
  else if fn4 = 7#4 then some (.vand vd vs1 vs2 mk et)
  else if fn4 = 8#4 then some (.vor vd vs1 vs2 mk et)
  else if fn4 = 9#4 then some (.vxor vd vs1 vs2 mk et)
  else if fn4 = 10#4 ∧ vs1 = 0#5 then some (.vnot vd vs2 mk et)
  else if fn4 = 11#4 then some (.vshl vd vs1 vs2 mk et)
  else if fn4 = 12#4 then some (.vshr vd vs1 vs2 mk et)
  else if fn4 = 13#4 then some (.vsra vd vs1 vs2 mk et)
  else if fn4 = 14#4 then some (.vsel vd vs1 vs2 mk et)
  else if fn4 = 15#4 ∧ vs1 = 0#5 then some (.vmov vd vs2 mk et)
  else none

/-- Major opcode 41 (R144). -/
def decVf1 (fn4 : BitVec 4) (et : BitVec 3) (mk : BitVec 3) (vs2 : BitVec 5) (vs1 : BitVec 5) (vd : BitVec 5) : Option Instr :=
  if sub fn4 2 2 = 0#2 then some (.vfadd vd vs1 vs2 mk et (sub fn4 0 2))
  else if sub fn4 2 2 = 1#2 then some (.vfsub vd vs1 vs2 mk et (sub fn4 0 2))
  else if sub fn4 2 2 = 2#2 then some (.vfmul vd vs1 vs2 mk et (sub fn4 0 2))
  else if sub fn4 2 2 = 3#2 then some (.vfma vd vs1 vs2 mk et (sub fn4 0 2))
  else none

/-- Major opcode 42 (R144). -/
def decVf2 (fn4 : BitVec 4) (et : BitVec 3) (mk : BitVec 3) (vs2 : BitVec 5) (vs1 : BitVec 5) (vd : BitVec 5) : Option Instr :=
  if sub fn4 2 2 = 0#2 then some (.vfms vd vs1 vs2 mk et (sub fn4 0 2))
  else if sub fn4 2 2 = 1#2 ∧ sub vs1 3 2 = 0#2 then some (.vcvt vd (sub vs1 0 3) vs2 mk et (sub fn4 0 2))
  else if sub fn4 2 2 = 2#2 ∧ et = 6#3 ∧ vs1 = 0#5 then some (.vsqrt vd vs2 mk (sub fn4 0 2))
  else if sub fn4 2 2 = 3#2 ∧ et = 6#3 ∧ vs1 = 0#5 then some (.vrcp vd vs2 mk (sub fn4 0 2))
  else none

/-- Major opcode 43 (R144). -/
def decVf3 (fn4 : BitVec 4) (et : BitVec 3) (mk : BitVec 3) (vs2 : BitVec 5) (vs1 : BitVec 5) (vd : BitVec 5) : Option Instr :=
  if sub fn4 2 2 = 0#2 ∧ et = 6#3 ∧ vs1 = 0#5 then some (.vrsq vd vs2 mk (sub fn4 0 2))
  else if sub fn4 2 2 = 1#2 ∧ et = 6#3 ∧ vs1 = 0#5 then some (.vexp2 vd vs2 mk (sub fn4 0 2))
  else if sub fn4 2 2 = 2#2 ∧ et = 6#3 ∧ vs1 = 0#5 then some (.vlog2 vd vs2 mk (sub fn4 0 2))
  else none

/-- Major opcode 44 (R144). -/
def decVx (fn4 : BitVec 4) (et : BitVec 3) (mk : BitVec 3) (vs2 : BitVec 5) (vs1 : BitVec 5) (vd : BitVec 5) : Option Instr :=
  if sub fn4 2 2 = 0#2 ∧ sub vd 3 2 = 0#2 then some (.vcmp (sub vd 0 3) vs1 vs2 mk et (sub fn4 0 2))
  else if fn4 = 4#4 ∧ vs2 = 0#5 then some (.vsplat vd vs1 mk et)
  else if fn4 = 5#4 then some (.vextr vd vs1 vs2 mk et)
  else if fn4 = 6#4 ∧ vs2 = 0#5 ∧ vs1 = 0#5 then some (.viota vd mk et)
  else if fn4 = 7#4 then some (.vred vd vs1 vs2 mk et)
  else if fn4 = 8#4 then some (.vscan vd vs1 vs2 mk et)
  else if fn4 = 9#4 ∧ et = 0#3 then some (.vperm vd vs1 vs2 mk)
  else if fn4 = 10#4 ∧ et = 0#3 then some (.vslide vd vs1 vs2 mk)
  else if fn4 = 11#4 ∧ et = 0#3 ∧ mk = 0#3 ∧ sub vs2 3 2 = 0#2 ∧ sub vs1 3 2 = 0#2 ∧ sub vd 3 2 = 0#2 then some (.mand (sub vd 0 3) (sub vs1 0 3) (sub vs2 0 3))
  else if fn4 = 12#4 ∧ et = 0#3 ∧ mk = 0#3 ∧ sub vs2 3 2 = 0#2 ∧ sub vs1 3 2 = 0#2 ∧ sub vd 3 2 = 0#2 then some (.mor (sub vd 0 3) (sub vs1 0 3) (sub vs2 0 3))
  else if fn4 = 13#4 ∧ et = 0#3 ∧ mk = 0#3 ∧ sub vs2 3 2 = 0#2 ∧ vs1 = 0#5 ∧ sub vd 3 2 = 0#2 then some (.mnot (sub vd 0 3) (sub vs2 0 3))
  else if fn4 = 14#4 ∧ et = 0#3 ∧ mk = 0#3 ∧ sub vs2 3 2 = 0#2 ∧ vs1 = 0#5 then some (.mpop vd (sub vs2 0 3))
  else if fn4 = 15#4 ∧ et = 0#3 ∧ mk = 0#3 ∧ sub vs2 3 2 = 0#2 ∧ vs1 = 0#5 then some (.mfirst vd (sub vs2 0 3))
  else none

/-- Major opcode 45 (R144). -/
def decVmem (mk : BitVec 3) (sz : BitVec 2) (fnh : BitVec 2) (x : BitVec 6) (rs1 : BitVec 6) (vd : BitVec 5) (fnl : BitVec 1) : Option Instr :=
  if fnh = 0#2 ∧ x = 0#6 ∧ fnl = 0#1 then some (.vld vd rs1 sz mk)
  else if fnh = 0#2 ∧ x = 0#6 ∧ fnl = 1#1 then some (.vst vd rs1 sz mk)
  else if fnh = 1#2 ∧ fnl = 0#1 then some (.vlds vd rs1 x sz mk)
  else if fnh = 1#2 ∧ fnl = 1#1 then some (.vsts vd rs1 x sz mk)
  else if fnh = 2#2 ∧ sub x 5 1 = 0#1 ∧ fnl = 0#1 then some (.vgath vd rs1 (sub x 0 5) sz mk)
  else if fnh = 2#2 ∧ sub x 5 1 = 0#1 ∧ fnl = 1#1 then some (.vscat vd rs1 (sub x 0 5) sz mk)
  else if fnh = 3#2 ∧ x = 0#6 ∧ fnl = 0#1 then some (.vldl vd rs1 sz mk)
  else if fnh = 3#2 ∧ x = 0#6 ∧ fnl = 1#1 then some (.vstl vd rs1 sz mk)
  else none

/-- Major opcode 46 (R144). -/
def decMtx (fn7 : BitVec 7) (rs2 : BitVec 6) (rs1 : BitVec 6) (rd : BitVec 6) : Option Instr :=
  if fn7 = 0#7 ∧ rs2 = 0#6 ∧ rd = 0#6 then some (.mcfgShape rs1)
  else if fn7 = 1#7 ∧ rs2 = 0#6 ∧ rd = 0#6 then some (.mcfgFmt rs1)
  else if fn7 = 2#7 ∧ rd = 0#6 then some (.mcfgA rs1 rs2)
  else if fn7 = 3#7 ∧ rd = 0#6 then some (.mcfgB rs1 rs2)
  else if fn7 = 8#7 ∧ rs2 = 0#6 ∧ rs1 = 0#6 ∧ rd = 0#6 then some (.mma)
  else if fn7 = 9#7 ∧ rs2 = 0#6 ∧ rs1 = 0#6 ∧ rd = 0#6 then some (.mmaZ)
  else if fn7 = 16#7 ∧ rs2 = 0#6 ∧ rd = 0#6 then some (.mzero rs1)
  else if fn7 = 24#7 ∧ rd = 0#6 then some (.mload rs1 rs2)
  else if sub fn7 2 5 = 8#5 then some (.mstore rd rs1 rs2 (sub fn7 0 2))
  else if fn7 = 40#7 ∧ rd = 0#6 then some (.mscale rs1 rs2)
  else if fn7 = 48#7 ∧ rs2 = 0#6 ∧ rd = 0#6 then some (.mcell rs1)
  else if fn7 = 56#7 then some (.ksel rd rs1 rs2)
  else if fn7 = 64#7 ∧ rs2 = 0#6 ∧ rd = 0#6 then some (.kgather rs1)
  else if fn7 = 72#7 ∧ rs2 = 0#6 ∧ rd = 0#6 then some (.ksreset rs1)
  else if fn7 = 80#7 ∧ rs2 = 0#6 then some (.drawG rd rs1)
  else if fn7 = 81#7 ∧ rs2 = 0#6 then some (.drawS rd rs1)
  else if fn7 = 82#7 then some (.drawV rd rs1 rs2)
  else none

/-- Major opcode 47 (R144). -/
def decCsr (fn2 : BitVec 2) (csr : BitVec 11) (rs1 : BitVec 6) (rd : BitVec 6) : Option Instr :=
  if fn2 = 0#2 ∧ rs1 = 0#6 then some (.csrr rd csr)
  else if fn2 = 1#2 then some (.csrw rd rs1 csr)
  else if fn2 = 2#2 then some (.csrset rd rs1 csr)
  else if fn2 = 3#2 then some (.csrclr rd rs1 csr)
  else none

/-- Major opcode 48 (R144). -/
def decSys (fn7 : BitVec 7) (rs2 : BitVec 6) (rs1 : BitVec 6) (rd : BitVec 6) : Option Instr :=
  if fn7 = 0#7 ∧ rs2 = 0#6 ∧ rs1 = 0#6 ∧ rd = 0#6 then some (.nop)
  else if fn7 = 1#7 ∧ rs2 = 0#6 ∧ rs1 = 0#6 ∧ rd = 0#6 then some (.tret)
  else if fn7 = 2#7 ∧ rs2 = 0#6 ∧ rs1 = 0#6 ∧ rd = 0#6 then some (.brk)
  else if fn7 = 3#7 ∧ rs2 = 0#6 ∧ rs1 = 0#6 ∧ rd = 0#6 then some (.eret)
  else if fn7 = 4#7 then some (.rqenq rd rs1 rs2)
  else if fn7 = 5#7 then some (.rqdeq rd rs1 rs2)
  else if fn7 = 6#7 then some (.slotctlQuery rd rs1 rs2)
  else if fn7 = 7#7 then some (.closave rd rs1 rs2)
  else if fn7 = 8#7 ∧ rs2 = 0#6 then some (.clorest rd rs1)
  else if fn7 = 9#7 ∧ rd = 0#6 then some (.tlbinv rs1 rs2)
  else if fn7 = 10#7 ∧ rd = 0#6 then some (.cflushLine rs1 rs2)
  else if fn7 = 11#7 ∧ rs2 = 0#6 ∧ rs1 = 0#6 ∧ rd = 0#6 then some (.halt)
  else none

/-- Major opcode 49 (R144). -/
def decMaj49 (imm : BitVec 13) (rs1 : BitVec 6) (rd : BitVec 6) : Option Instr :=
  if rs1 = 0#6 ∧ rd = 0#6 then some (.trapImm imm)
  else none

/-- The instruction a 32-bit word names by the opcode maps alone (R144-R158), its major opcode first. -/
def raw32 (w : BitVec 32) : Option Instr :=
  match (bits w 1 6).toNat with
  | 1 => decOp (bits w 25 7) (bits w 19 6) (bits w 13 6) (bits w 7 6)
  | 2 => some (.addi (bits w 7 6) (bits w 13 6) (bits w 19 13))
  | 3 => some (.andi (bits w 7 6) (bits w 13 6) (bits w 19 13))
  | 4 => some (.ori (bits w 7 6) (bits w 13 6) (bits w 19 13))
  | 5 => some (.xori (bits w 7 6) (bits w 13 6) (bits w 19 13))
  | 6 => decShi (bits w 19 13) (bits w 13 6) (bits w 7 6)
  | 7 => decExt (bits w 19 13) (bits w 13 6) (bits w 7 6)
  | 8 => decIns (bits w 19 13) (bits w 13 6) (bits w 7 6)
  | 9 => some (.lih (bits w 7 6) (bits w 13 19))
  | 10 => some (.addpc (bits w 7 6) (bits w 13 19))
  | 11 => decCmp (bits w 25 7) (bits w 19 6) (bits w 13 6) (bits w 7 6)
  | 12 => some (.cmpi (bits w 7 3) (bits w 10 3) (bits w 13 6) (bits w 19 13))
  | 13 => decPred (bits w 25 7) (bits w 19 6) (bits w 13 6) (bits w 7 6)
  | 14 => decBr (bits w 19 13) (bits w 13 6) (bits w 10 3) (bits w 7 3)
  | 15 => some (.jal (bits w 7 6) (bits w 13 19))
  | 16 => some (.jalr (bits w 7 6) (bits w 13 6) (bits w 19 13))
  | 17 => some (.ldS8 (bits w 7 6) (bits w 13 6) (bits w 19 13))
  | 18 => some (.ldN8 (bits w 7 6) (bits w 13 6) (bits w 19 13))
  | 19 => some (.ldS16 (bits w 7 6) (bits w 13 6) (bits w 19 13))
  | 20 => some (.ldN16 (bits w 7 6) (bits w 13 6) (bits w 19 13))
  | 21 => some (.ldS32 (bits w 7 6) (bits w 13 6) (bits w 19 13))
  | 22 => some (.ldN32 (bits w 7 6) (bits w 13 6) (bits w 19 13))
  | 23 => some (.ldD64 (bits w 7 6) (bits w 13 6) (bits w 19 13))
  | 24 => some (.stN8 ((bits w 25 7) ++ (bits w 7 6)) (bits w 13 6) (bits w 19 6))
  | 25 => some (.stN16 ((bits w 25 7) ++ (bits w 7 6)) (bits w 13 6) (bits w 19 6))
  | 26 => some (.stN32 ((bits w 25 7) ++ (bits w 7 6)) (bits w 13 6) (bits w 19 6))
  | 27 => some (.stD64 ((bits w 25 7) ++ (bits w 7 6)) (bits w 13 6) (bits w 19 6))
  | 28 => some (.ldx (bits w 7 6) (bits w 13 6) (bits w 19 13))
  | 29 => some (.stx ((bits w 25 7) ++ (bits w 7 6)) (bits w 13 6) (bits w 19 6))
  | 30 => decMaj30 (bits w 19 13) (bits w 13 6) (bits w 7 6)
  | 31 => some (.amo32 (bits w 7 6) (bits w 13 6) (bits w 19 6) (bits w 25 3) (bits w 28 4))
  | 32 => some (.amo64 (bits w 7 6) (bits w 13 6) (bits w 19 6) (bits w 25 3) (bits w 28 4))
  | 33 => decCas (bits w 25 7) (bits w 19 6) (bits w 13 6) (bits w 7 6)
  | 34 => decRed32 (bits w 25 7) (bits w 19 6) (bits w 13 6) (bits w 7 6)
  | 35 => decRed64 (bits w 25 7) (bits w 19 6) (bits w 13 6) (bits w 7 6)
  | 36 => decFred (bits w 25 7) (bits w 19 6) (bits w 13 6) (bits w 7 6)
  | 37 => decTw (bits w 25 7) (bits w 19 6) (bits w 13 6) (bits w 7 6)
  | 38 => decSync (bits w 25 7) (bits w 19 6) (bits w 13 6) (bits w 7 6)
  | 39 => decTask (bits w 25 7) (bits w 19 6) (bits w 13 6) (bits w 7 6)
  | 40 => decVint (bits w 28 4) (bits w 25 3) (bits w 22 3) (bits w 17 5) (bits w 12 5) (bits w 7 5)
  | 41 => decVf1 (bits w 28 4) (bits w 25 3) (bits w 22 3) (bits w 17 5) (bits w 12 5) (bits w 7 5)
  | 42 => decVf2 (bits w 28 4) (bits w 25 3) (bits w 22 3) (bits w 17 5) (bits w 12 5) (bits w 7 5)
  | 43 => decVf3 (bits w 28 4) (bits w 25 3) (bits w 22 3) (bits w 17 5) (bits w 12 5) (bits w 7 5)
  | 44 => decVx (bits w 28 4) (bits w 25 3) (bits w 22 3) (bits w 17 5) (bits w 12 5) (bits w 7 5)
  | 45 => decVmem (bits w 29 3) (bits w 27 2) (bits w 25 2) (bits w 19 6) (bits w 13 6) (bits w 8 5) (bits w 7 1)
  | 46 => decMtx (bits w 25 7) (bits w 19 6) (bits w 13 6) (bits w 7 6)
  | 47 => decCsr (bits w 30 2) (bits w 19 11) (bits w 13 6) (bits w 7 6)
  | 48 => decSys (bits w 25 7) (bits w 19 6) (bits w 13 6) (bits w 7 6)
  | 49 => decMaj49 (bits w 19 13) (bits w 13 6) (bits w 7 6)
  | _ => none

/-- The instruction a 16-bit form names (R143). -/
def raw16 (h : BitVec 16) : Option Instr :=
  match (h.extractLsb' 1 5).toNat with
  | 1 => some (.vadd16 (h.extractLsb' 6 5) (h.extractLsb' 11 5))
  | 2 => some (.vsub16 (h.extractLsb' 6 5) (h.extractLsb' 11 5))
  | 3 => some (.vmul16 (h.extractLsb' 6 5) (h.extractLsb' 11 5))
  | 4 => some (.vmin16 (h.extractLsb' 6 5) (h.extractLsb' 11 5))
  | 5 => some (.vmax16 (h.extractLsb' 6 5) (h.extractLsb' 11 5))
  | 6 => some (.vabs16 (h.extractLsb' 6 5) (h.extractLsb' 11 5))
  | 7 => some (.vneg16 (h.extractLsb' 6 5) (h.extractLsb' 11 5))
  | 8 => some (.vand16 (h.extractLsb' 6 5) (h.extractLsb' 11 5))
  | 9 => some (.vor16 (h.extractLsb' 6 5) (h.extractLsb' 11 5))
  | 10 => some (.vxor16 (h.extractLsb' 6 5) (h.extractLsb' 11 5))
  | 11 => some (.vnot16 (h.extractLsb' 6 5) (h.extractLsb' 11 5))
  | 12 => some (.vshl16 (h.extractLsb' 6 5) (h.extractLsb' 11 5))
  | 13 => some (.vshr16 (h.extractLsb' 6 5) (h.extractLsb' 11 5))
  | 14 => some (.vsra16 (h.extractLsb' 6 5) (h.extractLsb' 11 5))
  | 15 => some (.vmov16 (h.extractLsb' 6 5) (h.extractLsb' 11 5))
  | 16 => some (.vrcp16 (h.extractLsb' 6 5) (h.extractLsb' 11 5))
  | _ => none

/-- The word of an encoded instruction; an event has none (0). A 16-bit form is zero-extended. -/
def word32 : Instr → BitVec 32
  | .add rd rs1 rs2 => encR 0#7 rs2 rs1 rd 1#6
  | .sub rd rs1 rs2 => encR 1#7 rs2 rs1 rd 1#6
  | .and rd rs1 rs2 => encR 2#7 rs2 rs1 rd 1#6
  | .andn rd rs1 rs2 => encR 3#7 rs2 rs1 rd 1#6
  | .or rd rs1 rs2 => encR 4#7 rs2 rs1 rd 1#6
  | .xor rd rs1 rs2 => encR 5#7 rs2 rs1 rd 1#6
  | .sll rd rs1 rs2 => encR 6#7 rs2 rs1 rd 1#6
  | .srl rd rs1 rs2 => encR 7#7 rs2 rs1 rd 1#6
  | .sra rd rs1 rs2 => encR 8#7 rs2 rs1 rd 1#6
  | .rot rd rs1 rs2 => encR 9#7 rs2 rs1 rd 1#6
  | .mul rd rs1 rs2 => encR 10#7 rs2 rs1 rd 1#6
  | .mulh rd rs1 rs2 => encR 11#7 rs2 rs1 rd 1#6
  | .mulhn rd rs1 rs2 => encR 12#7 rs2 rs1 rd 1#6
  | .div rd rs1 rs2 => encR 13#7 rs2 rs1 rd 1#6
  | .divn rd rs1 rs2 => encR 14#7 rs2 rs1 rd 1#6
  | .rem rd rs1 rs2 => encR 15#7 rs2 rs1 rd 1#6
  | .remn rd rs1 rs2 => encR 16#7 rs2 rs1 rd 1#6
  | .min rd rs1 rs2 => encR 17#7 rs2 rs1 rd 1#6
  | .max rd rs1 rs2 => encR 18#7 rs2 rs1 rd 1#6
  | .minn rd rs1 rs2 => encR 19#7 rs2 rs1 rd 1#6
  | .maxn rd rs1 rs2 => encR 20#7 rs2 rs1 rd 1#6
  | .clz rd rs1 => encR 21#7 0#6 rs1 rd 1#6
  | .ctz rd rs1 => encR 22#7 0#6 rs1 rd 1#6
  | .popc rd rs1 => encR 23#7 0#6 rs1 rd 1#6
  | .brev rd rs1 => encR 24#7 0#6 rs1 rd 1#6
  | .bswap rd rs1 => encR 25#7 0#6 rs1 rd 1#6
  | .csel rd rs1 rs2 ps => encR (8#4 ++ ps) rs2 rs1 rd 1#6
  | .addi rd rs1 imm => encI imm rs1 rd 2#6
  | .andi rd rs1 imm => encI imm rs1 rd 3#6
  | .ori rd rs1 imm => encI imm rs1 rd 4#6
  | .xori rd rs1 imm => encI imm rs1 rd 5#6
  | .slli rd rs1 sh => encI (0#7 ++ sh) rs1 rd 6#6
  | .srli rd rs1 sh => encI (32#7 ++ sh) rs1 rd 6#6
  | .srai rd rs1 sh => encI (64#7 ++ sh) rs1 rd 6#6
  | .roti rd rs1 sh => encI (96#7 ++ sh) rs1 rd 6#6
  | .extS rd rs1 pos width => encI (width ++ 0#1 ++ pos) rs1 rd 7#6
  | .extn rd rs1 pos width => encI (width ++ 1#1 ++ pos) rs1 rd 7#6
  | .insF rd rs1 pos width => encI (width ++ 0#1 ++ pos) rs1 rd 8#6
  | .lih rd imm => encJ imm rd 9#6
  | .addpc rd imm => encJ imm rd 10#6
  | .cmp pd rs1 rs2 cc => encR (0#4 ++ cc) rs2 rs1 (0#3 ++ pd) 11#6
  | .cmpi pd cc rs1 imm => encI imm rs1 (cc ++ pd) 12#6
  | .pand pd ps1 ps2 => encR 0#7 (0#3 ++ ps2) (0#3 ++ ps1) (0#3 ++ pd) 13#6
  | .por pd ps1 ps2 => encR 1#7 (0#3 ++ ps2) (0#3 ++ ps1) (0#3 ++ pd) 13#6
  | .pxor pd ps1 ps2 => encR 2#7 (0#3 ++ ps2) (0#3 ++ ps1) (0#3 ++ pd) 13#6
  | .pandn pd ps1 ps2 => encR 3#7 (0#3 ++ ps2) (0#3 ++ ps1) (0#3 ++ pd) 13#6
  | .pset pd rs1 => encR 4#7 0#6 rs1 (0#3 ++ pd) 13#6
  | .pget rd => encR 5#7 0#6 0#6 rd 13#6
  | .bp ps off => encB off 0#6 ps 0#3 14#6
  | .bnp ps off => encB off 0#6 ps 1#3 14#6
  | .cbz rs1 off => encB off rs1 0#3 2#3 14#6
  | .cbnz rs1 off => encB off rs1 0#3 3#3 14#6
  | .jal rd imm => encJ imm rd 15#6
  | .jalr rd rs1 imm => encI imm rs1 rd 16#6
  | .ldS8 rd rs1 imm => encI imm rs1 rd 17#6
  | .ldN8 rd rs1 imm => encI imm rs1 rd 18#6
  | .ldS16 rd rs1 imm => encI imm rs1 rd 19#6
  | .ldN16 rd rs1 imm => encI imm rs1 rd 20#6
  | .ldS32 rd rs1 imm => encI imm rs1 rd 21#6
  | .ldN32 rd rs1 imm => encI imm rs1 rd 22#6
  | .ldD64 rd rs1 imm => encI imm rs1 rd 23#6
  | .stN8 imm rs1 rs2 => encS imm rs2 rs1 24#6
  | .stN16 imm rs1 rs2 => encS imm rs2 rs1 25#6
  | .stN32 imm rs1 rs2 => encS imm rs2 rs1 26#6
  | .stD64 imm rs1 rs2 => encS imm rs2 rs1 27#6
  | .ldx rd rs1 imm => encI imm rs1 rd 28#6
  | .stx imm rs1 rs2 => encS imm rs2 rs1 29#6
  | .pref rs1 imm => encI imm rs1 0#6 30#6
  | .amo32 rd rs1 rs2 ord op => encR (op ++ ord) rs2 rs1 rd 31#6
  | .amo64 rd rs1 rs2 ord op => encR (op ++ ord) rs2 rs1 rd 32#6
  | .cas rd rs1 rs2 ord size => encR (0#3 ++ size ++ ord) rs2 rs1 rd 33#6
  | .red32 rs1 rs2 ord op => encR (op ++ ord) rs2 rs1 0#6 34#6
  | .red64 rs1 rs2 ord op => encR (op ++ ord) rs2 rs1 0#6 35#6
  | .fred rs1 rs2 ord ty => encR (0#3 ++ ty ++ ord) rs2 rs1 0#6 36#6
  | .ldfull rd rs1 => encR 0#7 0#6 rs1 rd 37#6
  | .ldtake rd rs1 => encR 1#7 0#6 rs1 rd 37#6
  | .stfill rs1 rs2 => encR 2#7 rs2 rs1 0#6 37#6
  | .stforce rs1 rs2 => encR 3#7 rs2 rs1 0#6 37#6
  | .tagrd rd rs1 => encR 4#7 0#6 rs1 rd 37#6
  | .phase scope half => encR (0#3 ++ half ++ scope) 0#6 0#6 0#6 38#6
  | .monarm rd rs1 => encR 16#7 0#6 rs1 rd 38#6
  | .monwait rd rs1 => encR 32#7 0#6 rs1 rd 38#6
  | .monclr rs1 => encR 48#7 0#6 rs1 0#6 38#6
  | .barcfg rs1 rs2 ctx => encR (4#3 ++ ctx ++ 0#2) rs2 rs1 0#6 38#6
  | .bararr ctx => encR (5#3 ++ ctx ++ 0#2) 0#6 0#6 0#6 38#6
  | .barwait ctx => encR (6#3 ++ ctx ++ 0#2) 0#6 0#6 0#6 38#6
  | .bardrop ctx => encR (7#3 ++ ctx ++ 0#2) 0#6 0#6 0#6 38#6
  | .spawn rd rs1 rs2 => encR 0#7 rs2 rs1 rd 39#6
  | .spawnW rd rs1 rs2 => encR 1#7 rs2 rs1 rd 39#6
  | .doneTask => encR 4#7 0#6 0#6 0#6 39#6
  | .yield => encR 8#7 0#6 0#6 0#6 39#6
  | .suspend rs1 => encR 12#7 0#6 rs1 0#6 39#6
  | .wake rd rs1 rs2 => encR 16#7 rs2 rs1 rd 39#6
  | .rfork rd rs1 rs2 => encR 20#7 rs2 rs1 rd 39#6
  | .rforkSh rd rs2 => encR 21#7 rs2 0#6 rd 39#6
  | .rhold rd rs1 => encR 24#7 0#6 rs1 rd 39#6
  | .rdrop rd rs1 => encR 28#7 0#6 rs1 rd 39#6
  | .rcancel rd rs1 => encR 32#7 0#6 rs1 rd 39#6
  | .rretire rd rs1 => encR 36#7 0#6 rs1 rd 39#6
  | .rstat rd rs1 rs2 => encR 40#7 rs2 rs1 rd 39#6
  | .msend rs1 rs2 words => encR (11#5 ++ words) rs2 rs1 0#6 39#6
  | .mrecv rd rs1 => encR 48#7 0#6 rs1 rd 39#6
  | .mbind rd rs1 rs2 => encR 52#7 rs2 rs1 rd 39#6
  | .claim rd rs1 => encR 56#7 0#6 rs1 rd 39#6
  | .fulfil rd rs1 rs2 => encR 60#7 rs2 rs1 rd 39#6
  | .abandon rd rs1 => encR 64#7 0#6 rs1 rd 39#6
  | .lpin rd rs1 => encR 68#7 0#6 rs1 rd 39#6
  | .lunpin rd rs1 => encR 72#7 0#6 rs1 rd 39#6
  | .linval rd rs1 => encR 76#7 0#6 rs1 rd 39#6
  | .hbind rd rs1 rs2 => encR 80#7 rs2 rs1 rd 39#6
  | .hstat rd rs1 => encR 84#7 0#6 rs1 rd 39#6
  | .vclaim rd rs1 => encR 88#7 0#6 rs1 rd 39#6
  | .vyield => encR 92#7 0#6 0#6 0#6 39#6
  | .vadd vd vs1 vs2 mk et => encV 0#4 et mk vs2 vs1 vd 40#6
  | .vsub vd vs1 vs2 mk et => encV 1#4 et mk vs2 vs1 vd 40#6
  | .vmul vd vs1 vs2 mk et => encV 2#4 et mk vs2 vs1 vd 40#6
  | .vmin vd vs1 vs2 mk et => encV 3#4 et mk vs2 vs1 vd 40#6
  | .vmax vd vs1 vs2 mk et => encV 4#4 et mk vs2 vs1 vd 40#6
  | .vabs vd vs2 mk et => encV 5#4 et mk vs2 0#5 vd 40#6
  | .vneg vd vs2 mk et => encV 6#4 et mk vs2 0#5 vd 40#6
  | .vand vd vs1 vs2 mk et => encV 7#4 et mk vs2 vs1 vd 40#6
  | .vor vd vs1 vs2 mk et => encV 8#4 et mk vs2 vs1 vd 40#6
  | .vxor vd vs1 vs2 mk et => encV 9#4 et mk vs2 vs1 vd 40#6
  | .vnot vd vs2 mk et => encV 10#4 et mk vs2 0#5 vd 40#6
  | .vshl vd vs1 vs2 mk et => encV 11#4 et mk vs2 vs1 vd 40#6
  | .vshr vd vs1 vs2 mk et => encV 12#4 et mk vs2 vs1 vd 40#6
  | .vsra vd vs1 vs2 mk et => encV 13#4 et mk vs2 vs1 vd 40#6
  | .vsel vd vs1 vs2 mk et => encV 14#4 et mk vs2 vs1 vd 40#6
  | .vmov vd vs2 mk et => encV 15#4 et mk vs2 0#5 vd 40#6
  | .vfadd vd vs1 vs2 mk et rm => encV (0#2 ++ rm) et mk vs2 vs1 vd 41#6
  | .vfsub vd vs1 vs2 mk et rm => encV (1#2 ++ rm) et mk vs2 vs1 vd 41#6
  | .vfmul vd vs1 vs2 mk et rm => encV (2#2 ++ rm) et mk vs2 vs1 vd 41#6
  | .vfma vd vs1 vs2 mk et rm => encV (3#2 ++ rm) et mk vs2 vs1 vd 41#6
  | .vfms vd vs1 vs2 mk et rm => encV (0#2 ++ rm) et mk vs2 vs1 vd 42#6
  | .vcvt vd src vs2 mk et rm => encV (1#2 ++ rm) et mk vs2 (0#2 ++ src) vd 42#6
  | .vsqrt vd vs2 mk rm => encV (2#2 ++ rm) 6#3 mk vs2 0#5 vd 42#6
  | .vrcp vd vs2 mk rm => encV (3#2 ++ rm) 6#3 mk vs2 0#5 vd 42#6
  | .vrsq vd vs2 mk rm => encV (0#2 ++ rm) 6#3 mk vs2 0#5 vd 43#6
  | .vexp2 vd vs2 mk rm => encV (1#2 ++ rm) 6#3 mk vs2 0#5 vd 43#6
  | .vlog2 vd vs2 mk rm => encV (2#2 ++ rm) 6#3 mk vs2 0#5 vd 43#6
  | .vcmp vd vs1 vs2 mk et cc => encV (0#2 ++ cc) et mk vs2 vs1 (0#2 ++ vd) 44#6
  | .vsplat vd vs1 mk et => encV 4#4 et mk 0#5 vs1 vd 44#6
  | .vextr vd vs1 vs2 mk et => encV 5#4 et mk vs2 vs1 vd 44#6
  | .viota vd mk et => encV 6#4 et mk 0#5 0#5 vd 44#6
  | .vred vd op vs2 mk et => encV 7#4 et mk vs2 op vd 44#6
  | .vscan vd op vs2 mk et => encV 8#4 et mk vs2 op vd 44#6
  | .vperm vd vs1 vs2 mk => encV 9#4 0#3 mk vs2 vs1 vd 44#6
  | .vslide vd vs1 vs2 mk => encV 10#4 0#3 mk vs2 vs1 vd 44#6
  | .mand vd vs1 vs2 => encV 11#4 0#3 0#3 (0#2 ++ vs2) (0#2 ++ vs1) (0#2 ++ vd) 44#6
  | .mor vd vs1 vs2 => encV 12#4 0#3 0#3 (0#2 ++ vs2) (0#2 ++ vs1) (0#2 ++ vd) 44#6
  | .mnot vd vs2 => encV 13#4 0#3 0#3 (0#2 ++ vs2) 0#5 (0#2 ++ vd) 44#6
  | .mpop vd vs2 => encV 14#4 0#3 0#3 (0#2 ++ vs2) 0#5 vd 44#6
  | .mfirst vd vs2 => encV 15#4 0#3 0#3 (0#2 ++ vs2) 0#5 vd 44#6
  | .vld vd rs1 sz mk => encVM mk sz 0#2 0#6 rs1 vd 0#1 45#6
  | .vst vd rs1 sz mk => encVM mk sz 0#2 0#6 rs1 vd 1#1 45#6
  | .vlds vd rs1 xs sz mk => encVM mk sz 1#2 xs rs1 vd 0#1 45#6
  | .vsts vd rs1 xs sz mk => encVM mk sz 1#2 xs rs1 vd 1#1 45#6
  | .vgath vd rs1 vs2 sz mk => encVM mk sz 2#2 (0#1 ++ vs2) rs1 vd 0#1 45#6
  | .vscat vd rs1 vs2 sz mk => encVM mk sz 2#2 (0#1 ++ vs2) rs1 vd 1#1 45#6
  | .vldl vd rs1 sz mk => encVM mk sz 3#2 0#6 rs1 vd 0#1 45#6
  | .vstl vd rs1 sz mk => encVM mk sz 3#2 0#6 rs1 vd 1#1 45#6
  | .vadd16 vd vs2 => enc16 vs2 vd 1#5
  | .vsub16 vd vs2 => enc16 vs2 vd 2#5
  | .vmul16 vd vs2 => enc16 vs2 vd 3#5
  | .vmin16 vd vs2 => enc16 vs2 vd 4#5
  | .vmax16 vd vs2 => enc16 vs2 vd 5#5
  | .vabs16 vd vs2 => enc16 vs2 vd 6#5
  | .vneg16 vd vs2 => enc16 vs2 vd 7#5
  | .vand16 vd vs2 => enc16 vs2 vd 8#5
  | .vor16 vd vs2 => enc16 vs2 vd 9#5
  | .vxor16 vd vs2 => enc16 vs2 vd 10#5
  | .vnot16 vd vs2 => enc16 vs2 vd 11#5
  | .vshl16 vd vs2 => enc16 vs2 vd 12#5
  | .vshr16 vd vs2 => enc16 vs2 vd 13#5
  | .vsra16 vd vs2 => enc16 vs2 vd 14#5
  | .vmov16 vd vs2 => enc16 vs2 vd 15#5
  | .vrcp16 vd vs2 => enc16 vs2 vd 16#5
  | .mcfgShape rs1 => encR 0#7 0#6 rs1 0#6 46#6
  | .mcfgFmt rs1 => encR 1#7 0#6 rs1 0#6 46#6
  | .mcfgA rs1 rs2 => encR 2#7 rs2 rs1 0#6 46#6
  | .mcfgB rs1 rs2 => encR 3#7 rs2 rs1 0#6 46#6
  | .mma => encR 8#7 0#6 0#6 0#6 46#6
  | .mmaZ => encR 9#7 0#6 0#6 0#6 46#6
  | .mzero rs1 => encR 16#7 0#6 rs1 0#6 46#6
  | .mload rs1 rs2 => encR 24#7 rs2 rs1 0#6 46#6
  | .mstore rd rs1 rs2 rm => encR (8#5 ++ rm) rs2 rs1 rd 46#6
  | .mscale rs1 rs2 => encR 40#7 rs2 rs1 0#6 46#6
  | .mcell rs1 => encR 48#7 0#6 rs1 0#6 46#6
  | .ksel rd rs1 rs2 => encR 56#7 rs2 rs1 rd 46#6
  | .kgather rs1 => encR 64#7 0#6 rs1 0#6 46#6
  | .ksreset rs1 => encR 72#7 0#6 rs1 0#6 46#6
  | .drawG rd rs1 => encR 80#7 0#6 rs1 rd 46#6
  | .drawS rd rs1 => encR 81#7 0#6 rs1 rd 46#6
  | .drawV rd rs1 rs2 => encR 82#7 rs2 rs1 rd 46#6
  | .csrr rd csr => encC 0#2 csr 0#6 rd 47#6
  | .csrw rd rs1 csr => encC 1#2 csr rs1 rd 47#6
  | .csrset rd rs1 csr => encC 2#2 csr rs1 rd 47#6
  | .csrclr rd rs1 csr => encC 3#2 csr rs1 rd 47#6
  | .nop => encR 0#7 0#6 0#6 0#6 48#6
  | .tret => encR 1#7 0#6 0#6 0#6 48#6
  | .brk => encR 2#7 0#6 0#6 0#6 48#6
  | .eret => encR 3#7 0#6 0#6 0#6 48#6
  | .rqenq rd rs1 rs2 => encR 4#7 rs2 rs1 rd 48#6
  | .rqdeq rd rs1 rs2 => encR 5#7 rs2 rs1 rd 48#6
  | .slotctlQuery rd rs1 rs2 => encR 6#7 rs2 rs1 rd 48#6
  | .slotctlStart rd rs1 rs2 => encR 6#7 rs2 rs1 rd 48#6
  | .slotctlPreempt rd rs1 rs2 => encR 6#7 rs2 rs1 rd 48#6
  | .slotctlResume rd rs1 rs2 => encR 6#7 rs2 rs1 rd 48#6
  | .slotctlKill rd rs1 rs2 => encR 6#7 rs2 rs1 rd 48#6
  | .slotctlCopystop rd rs1 rs2 => encR 6#7 rs2 rs1 rd 48#6
  | .slotctlRelease rd rs1 rs2 => encR 6#7 rs2 rs1 rd 48#6
  | .closave rd rs1 rs2 => encR 7#7 rs2 rs1 rd 48#6
  | .clorest rd rs1 => encR 8#7 0#6 rs1 rd 48#6
  | .tlbinv rs1 rs2 => encR 9#7 rs2 rs1 0#6 48#6
  | .cflushLine rs1 rs2 => encR 10#7 rs2 rs1 0#6 48#6
  | .cflushWriteback rs1 rs2 => encR 10#7 rs2 rs1 0#6 48#6
  | .cflushAll rs1 rs2 => encR 10#7 rs2 rs1 0#6 48#6
  | .halt => encR 11#7 0#6 0#6 0#6 48#6
  | .trapImm imm => encI imm 0#6 0#6 49#6
  | _ => 0#32

/-- Decode of a 32-bit word: the maps, then the combinations they declare illegal (R140 check 2). -/
def decode32 (w : BitVec 32) : Option Instr := (raw32 w).filter wellFormed

/-- Decode of a halfword with bit 0 clear (R143). -/
def decode16 (h : BitVec 16) : Option Instr := (raw16 h).filter wellFormed

/-- Framing (R139): bit 0 of the first halfword gives the length. The halfword at the PC is `lo`, the next one `hi`. -/
def decodeHalves (lo hi : BitVec 16) : Option Instr :=
  if lo.extractLsb' 0 1 = 0#1 then decode16 lo else decode32 (hi ++ lo)

/-- Two bytes, little-endian (R3). -/
def half (b0 b1 : Byte) : BitVec 16 := b1 ++ b0

/-- Decode of any bytes: an instruction with the bytes it leaves, or a refusal. -/
def decode : List Byte → Option (Instr × List Byte)
  | b0 :: b1 :: rest =>
    if b0.extractLsb' 0 1 = 0#1 then (decode16 (half b0 b1)).map (fun i => (i, rest))
    else match rest with
      | b2 :: b3 :: rest' => (decode32 (half b2 b3 ++ half b0 b1)).map (fun i => (i, rest'))
      | _ => none
  | _ => none

/-- The bytes of a number, least significant first. -/
def bytesOf (w : Nat) : Nat → List Byte
  | 0 => []
  | n + 1 => BitVec.ofNat 8 w :: bytesOf (w / 256) n

/-- The instruction read from the table's numbering of bits: bit 0 the least significant bit of the first halfword. -/
def decodeTableWord (_nbits w : Nat) : Option Instr := (decode (bytesOf w 4)).map (fun r => r.1)

/-- The instruction is a 16-bit form (R139, R143). -/
def isShort : Instr → Bool
  | .vadd16 _ _ => true
  | .vsub16 _ _ => true
  | .vmul16 _ _ => true
  | .vmin16 _ _ => true
  | .vmax16 _ _ => true
  | .vabs16 _ _ => true
  | .vneg16 _ _ => true
  | .vand16 _ _ => true
  | .vor16 _ _ => true
  | .vxor16 _ _ => true
  | .vnot16 _ _ => true
  | .vshl16 _ _ => true
  | .vshr16 _ _ => true
  | .vsra16 _ _ => true
  | .vmov16 _ _ => true
  | .vrcp16 _ _ => true
  | _ => false

/-- The bytes of an encoded instruction in memory order. -/
def encode (i : Instr) : List Byte := bytesOf (word32 i).toNat (if isShort i then 2 else 4)

/-- The encoding a trap delivers in TRAPVAL (R140). -/
def encodingOf (i : Instr) : Word := (word32 i).setWidth 64

end Sys2Proof
end

