-- ==== Sys2Proof/Machine/Event.lean ====
section
/-! DEFINITION. What is due or arrives at the device: the rows of the opcode table that no instruction word encodes, as the data State holds.
Each has a constructor of the same name in Instr and the same meaning (`runEvent`, Machine/Events.lean); `spdmRequest`, a request of another kind than the six
that R439 supports, has no row. -/

namespace Sys2Proof.Machine

/-- An event, with the unit it happens at and what the outside party hands over. -/
inductive Event where
  | twBackoffExpiry (g : Nat)
  | taggedOpComplete (g : Nat)
  | waitLimitExpiry (g : Nat)
  | withdrawalAnswer (g : Nat)
  | publishComplete (g : Nat)
  | monitorWake (g : Nat) (entry : Nat)
  | monwaitTimeout (g : Nat)
  | barrierSignal (core : Nat) (ctx : Nat) (fromNorth : Bool) (desc : Nat)
  | barrierRelease (core : Nat) (ctx : Nat) (desc : Nat)
  | larderDeferredEnqueue (part : Nat)
  | matrixOpComplete (g : Nat)
  | takeAsyncTrap (g : Nat)
  | budgetExpiry (g : Nat)
  | timercmpExpiry (core : Nat)
  | loadComplete (g : Nat) (data : BitVec 128) (code : Nat)
  | atomicComplete (g : Nat) (data : Word) (code : Nat)
  | dispatch (core : Nat)
  | resumeContext (core : Nat)
  | timerPreemption (core : Nat)
  | demandPreemption (core : Nat)
  | ringMove (queue : Nat) (level : Nat)
  | launchQueueWrite (die : Nat) (part : Nat) (offset : Nat) (data : List Byte)
  | launchAccept (die : Nat) (part : Nat)
  | requestExpiry (rtag : Nat)
  | annulNoticeArrival (die : Nat) (rtag : Nat)
  | slotAnnul (g : Nat)
  | annulAckArrival (rtag : Nat) (die : Nat)
  | peerWorkArrival (work : PeerWork)
  | peerCancelNotice (dev : Nat) (rtag : Nat)
  | drainMarker (dev : Nat) (rtag : Nat)
  | drainAck (rtag : Nat) (peer : Nat)
  | noproxyResend (g : Nat)
  | messageArrival (core : Nat) (cls : Nat) (msg : Msg)
  | freeSlotNotice (core : Nat)
  | copyLinear (core : Nat) (hatch : Nat)
  | copyStrided (core : Nat) (hatch : Nat)
  | copyGather (core : Nat) (hatch : Nat)
  | copyScatter (core : Nat) (hatch : Nat)
  | copyResume (core : Nat) (hatch : Nat)
  | collGroup (core : Nat) (hatch : Nat)
  | collAllreduce (core : Nat) (hatch : Nat)
  | collAllgather (core : Nat) (hatch : Nat)
  | collRedscat (core : Nat) (hatch : Nat)
  | collBcast (core : Nat) (hatch : Nat)
  | cellarRead (core : Nat) (hatch : Nat)
  | cellarWrite (core : Nat) (hatch : Nat)
  | stairSend (core : Nat) (hatch : Nat)
  | stairReset (core : Nat) (hatch : Nat)
  | stairBuf (core : Nat) (hatch : Nat)
  | stairFree (core : Nat) (hatch : Nat)
  | stairRecordArrival (dir : Nat)
  | stairResetArrival (dir : Nat) (number : Nat)
  | commandCompletion (id : Nat)
  | nvmeCompletion (id : Nat) (status : Nat) (data : List Byte)
  | walkComplete (g : Nat)
  | dirtyLogMerge (core : Nat)
  | dharvestGo (cluster : Nat)
  | fbheadRead (die : Nat)
  | fbrespRetry (die : Nat) (index : Nat)
  | fbrespFailXlate (die : Nat) (index : Nat)
  | fbrespFailPerm (die : Nat) (index : Nat)
  | clustctlDrain (cluster : Nat)
  | clustctlAssign (cluster : Nat) (part : Nat)
  | rtfreeWrite (die : Nat) (value : Word)
  | dqctlWrite (die : Nat) (part : Nat) (value : Word)
  | ringdWrite (queue : Nat) (level : Nat) (value : Word)
  | ffpoolWrite (die : Nat) (part : Nat) (value : Word)
  | fftailWrite (die : Nat) (part : Nat) (value : Word)
  | walkshareWrite (cluster : Nat) (part : Nat) (value : Word)
  | tilecapWrite (tile : Nat) (value : Word)
  | statusSchedWrite (g : Nat) (value : Bool)
  | timercmpWrite (core : Nat) (value : Word)
  | lmsplitWrite (core : Nat) (value : Word)
  | lmshareWrite (core : Nat) (value : Word)
  | lmgroupWrite (tile : Nat) (value : Word)
  | dsplitWrite (die : Nat) (value : Word)
  | vgrantWrite (g : Nat) (value : Word)
  | freqreqWrite (core : Nat) (value : Word)
  | featmaskWrite (core : Nat) (value : Word)
  | budgetleftWrite (g : Nat) (value : Word)
  | registerWrite (addr : Nat) (value : Word)
  | dvfsStep (tile : Nat)
  | powerPeriod (reading : PowerReading)
  | timeSync (offset : Int) (route : Bool)
  | linkFailure (port : Nat)
  | atsInvalidation (page : Nat)
  | hostMemAccess (write : Bool) (addr : Nat) (data : List Byte)
  | driveTimeout (port : Nat)
  | driveLinkDown (port : Nat)
  | deviceReset
  | romSelfCheck (ok : Bool)
  | firmwareVerify
  | calibration (found : Calibration)
  | memoryInit (ok : List Bool)
  | firmwareConfig (ok : Bool) (ptm : Word) (writes : List (Nat × Word))
  | setReady
  | firmwareDelivery (image : Image)
  | rollbackRaise (counter : Nat)
  | getVersion
  | getCapabilities
  | negotiateAlgorithms (sha256 : Bool) (slhDsa : Bool)
  | getDigests
  | getCertificate (offset : Nat) (length : Nat)
  | getMeasurements (index : Nat) (signed : Bool) (nonce : List Byte)
  | spdmRequest (code : Nat)
  | illegalOp (g : Nat) (encoding : Word)
  | fetchFault (g : Nat)
  | preemptionComplete (core : Nat)
  | dieToDieLinkFailure (stair : Nat)
  | driveControllerReady (port : Nat)
  | harvestComplete (cluster : Nat)
  deriving DecidableEq, Repr

end Sys2Proof.Machine
end

