-- ==== Sys2Proof/Machine/State.lean ====
section
/-! DEFINITION. The state of the device as plain data, its reset, and the reasons a step can stop. A map that lists nothing
stands for units all at their reset record: a unit is listed from its first change on. -/

namespace Sys2Proof.Machine

/-- Why the machine stops with a fault. -/
inductive Fault where
  /-- Raised by an event that names a unit the device does not have (R13, R14, R19): no such event can happen. Safe. -/
  | noSuchUnit
  deriving DecidableEq, Repr

/-- Why a step is refused. -/
inductive Refusal where
  /-- Raised only by an arm of exec for an instruction without a meaning. Safe: nothing can be proved of its effect. -/
  | notModelled (mnemonic : String)
  deriving DecidableEq, Repr

/-- Bytes listed by location, in one canonical form (`Memory.wf`): see `Machine/Memory.lean` for the locations. -/
abbrev Memory := List Host.Cell

/-- Records listed by number; an unlisted number has the map's reset record. -/
abbrev Map (α : Type) := List (Nat × α)

/-- How a translation ends for an access (R391, R392, R397). -/
inductive Trans where
  | ok (pa : Nat) (leaf ext : Word)
  | perm
  | fault (level reason : Nat)
  | absent (entry : Nat) (leaf ext : Word)
  deriving DecidableEq, Repr

/-- One element of an access (R90): address, bytes, for the lane store its lane, and what its address must be a multiple of. -/
structure Elem where
  a    : Word
  n    : Nat
  lane : Nat := 0
  al   : Nat := n
  deriving DecidableEq, Repr, Inhabited

/-- Where an element is performed. -/
inductive Place where
  | global (va pa : Nat) (leaf ext : Word)
  | sram (loc : Nat)
  | peer (p : Nat) (a : Word)
  | logged (va : Nat) (why : Trans)
  deriving DecidableEq, Repr

/-- The queue a task was last dispatched from (R38). -/
inductive Home where
  | core | cluster | die
  deriving DecidableEq, Repr, Inhabited

/-- A continuation record (R30, R31): the words by their meaning. -/
structure CR where
  pc      : Word
  instant : Word
  budget  : Nat
  deleg   : Bool
  feat    : Nat
  prio    : Nat
  rtag    : Nat
  x       : List Word
  deriving DecidableEq, Repr, Inhabited

/-- State of a request-table entry (R24, R25). -/
inductive ReqState where
  | free | live | annulled | retired
  deriving DecidableEq, Repr, Inhabited

/-- A request-table entry (R24, R63, R65 WHY, R409, R426). `noticed` lists the dies the annul notice has
reached, `swept` those whose acknowledgement of the annulment sweep has
come (R61); `proxies` the peers that hold a proxy, `acked` those that have acknowledged its drain; `proxyOf` is the sending device and
tag when the entry is itself a proxy (R59), `marker` that its drain marker has come. -/
structure Req where
  state   : ReqState := .free
  instant : Word := 0
  cls     : Nat := 0
  parent  : Nat := 0
  shared  : Bool := false
  holds   : Nat := 0
  held    : List Nat := [0, 0, 0, 0]
  parked  : Nat := 0
  part    : Nat := 0
  why     : Nat := 0
  noticed : List Nat := []
  swept   : List Nat := []
  proxies : List Nat := []
  acked   : List Nat := []
  proxyOf : Option (Nat × Nat) := none
  marker  : Bool := false
  deriving DecidableEq, Repr, Inhabited

/-- One die's free entries: the least index not used since reset, then those freed, oldest first (R63). -/
structure FreePool where
  fresh : Nat := 65536
  freed : List Nat := []
  deriving DecidableEq, Repr, Inhabited

/-- One level of a ready queue with its overflow ring (R370-R373). Entries stand in the order they were enqueued; `ring` lists the places of the ring's memory
that hold its CRs, in ring order. -/
structure Level where
  entries : List CR := []
  ring    : List Nat := []
  deriving DecidableEq, Repr, Inhabited

/-- A launch queue (R368, R369): records as eight words each. -/
structure LaunchQueue where
  records : List (List Word) := []
  disc    : Nat := 0
  fulls   : Nat := 0
  deriving DecidableEq, Repr, Inhabited

/-- Mode of a message class (R45). -/
inductive ClassMode where
  | off | bound | pool
  deriving DecidableEq, Repr, Inhabited

/-- A message class of a core (R45, R227, MSGCFG of R347). -/
structure MsgClass where
  mode    : ClassMode := .off
  slot    : Nat := 0
  hatch   : Option Nat := none
  trp     : Bool := false
  handler : Word := 0
  queue   : List Msg := []
  deriving DecidableEq, Repr, Inhabited

/-- A message in the sender's network interface (R44, R45): to class `cls` of core `dest`, of this device or of a peer; `num` numbers it. -/
structure Outgoing where
  dest    : Nat
  cls     : Nat
  msg     : Msg
  refused : Bool := false
  peer    : Option Nat := none
  num     : Nat := 0
  deriving DecidableEq, Repr, Inhabited

/-- A Hatch entry: its value, its poison mark (R187), the mark of a header that failed its push checks (R295), and whether it
starts a message run (R291) or a command; `user` is the pusher's mode (R392), `rtag`, `g` and `ctx` its tag, slot and context, `rel` that the publish
of a header pushed by a load is still due (R295), of what stands before number `after`, `start` that a message run begins here (R291), `board` the scoreboard
entry recorded for the command this word completes, 0 for none (R92), `done` the DONE Hatch whose entry a header reserved (R295), `num` the number of its push
(R314). -/
structure HatchEntry where
  value  : Word
  poison : Bool := false
  failed : Bool := false
  user   : Bool := true
  rtag   : Nat := 0
  g      : Nat := 0
  ctx    : Nat := 0
  rel    : Bool := false
  start  : Bool := false
  board  : Nat := 0
  done   : Option Nat := none
  after  : Nat := 0
  num    : Nat := 0
  deriving DecidableEq, Repr, Inhabited

/-- A Hatch (R234, R235, R289). `kind` is the code of R234. `entries` are values to pop, `cmd` the command words no engine has taken; the
two share the eight places. `rest` tells of a partial command that an annulment has removed (R297): how many of its words its pusher has still to push, and the
pusher's context. -/
structure Hatch where
  kind    : Nat := 0
  slotA   : Nat := 0
  slotB   : Nat := 0
  arg     : Nat := 0
  entries : List HatchEntry := []
  cmd     : List HatchEntry := []
  resv    : Nat := 0
  rest    : Option (Nat × Nat) := none
  deriving DecidableEq, Repr, Inhabited

/-- A barrier context of a core (R206-R208). `now` and `next` count the arrivals for the phase and the one after it; `expected`,
`expectedNext` and `expectedLater` are the counts in force for the phase, the one after it and all later ones. -/
structure Barrier where
  configured   : Bool := false
  desc         : Nat := 0
  expected     : Nat := 0
  expectedNext : Nat := 0
  expectedLater : Nat := 0
  phase        : Nat := 0
  now          : Nat := 0
  next         : Nat := 0
  fromWest     : Bool := false
  fromNorth    : Bool := false
  sent         : Bool := false
  err          : Bool := false
  deriving DecidableEq, Repr, Inhabited

/-- The tag of a line holding unpublished stores (R66). -/
inductive LineTag where
  | one (rtag : Nat)
  | mixed
  deriving DecidableEq, Repr

/-- A line with unpublished sectors (R66, R97, R98): the bytes stored, by location, and for each stored sector the point of the
coherence history its other bytes were filled at. `leaf` is the summarised page's record word, 0 for none (R390); `zero` the sectors whose fill met
an uncorrectable error (R187). -/
structure Line where
  line  : Nat
  tag   : LineTag
  cells : List Host.Cell
  fills : List (Nat × Nat)
  leaf  : Word := 0
  zero  : List Nat := []
  deriving DecidableEq, Repr

/-- A cached leaf translation (R393): page base and size, physical base, leaf word, summary word; `logged` that its first store has
been logged (R395). -/
structure TlbEntry where
  asid   : Nat
  base   : Nat
  log2   : Nat
  pa     : Nat
  leaf   : Word
  ext    : Word := 0
  logged : Bool := false
  deriving DecidableEq, Repr, Inhabited

/-- What a side-log entry performs on replay (R398). -/
inductive LogOp where
  | store
  | red (op : Nat)
  | fred (bf16 : Bool)
  deriving DecidableEq, Repr, Inhabited

/-- A side-log entry (R398). `id` numbers it, `ctx` is the context that made it, `vec` that it is an element of a vector store (R87). -/
structure LogEntry where
  id   : Nat := 0
  va   : Nat
  data : List Byte
  op   : LogOp
  rtag : Nat
  ctx  : Nat
  user : Bool
  vec  : Bool := false
  deriving DecidableEq, Repr, Inhabited

/-- A range-scoreboard entry (R92): the command, and the ranges it covers, as (first, last) locations. -/
structure Board where
  id     : Nat
  ranges : List (Nat × Nat)
  deriving DecidableEq, Repr, Inhabited

/-- A unit operation of the matrix unit (R260), with the words it was issued with. An MMA carries whether it still clears its region, the k-steps
done before it, and the memory as its start found it, none before it starts (R267, R268); an MSCALE the rows done before it. -/
inductive UnitOp where
  | mma (z : Bool) (done : Nat) (start : Option Memory)
  | mzero (w : Word)
  | mload (a w : Word)
  | mstore (rd : Nat) (a w : Word) (rm : Nat)
  | mscale (a b : Word) (done : Nat)
  deriving DecidableEq, Repr

/-- An operation of a key-selection unit (R260), with what its issue read: KSEL's destination field, block address, block words, descriptor words, query
word and the places of each record (R279-R281); DRAW's destination field, whether noise is added, block words and draft (R284-R286). -/
inductive KeyOp where
  | select (rd : Nat) (block : Word) (w desc : List Word) (query : Word) (recs : List (Nat × List (Elem × Place)))
  | draw (rd : Nat) (noise : Bool) (w : List Word) (draft : Option Word)
  deriving DecidableEq, Repr

/-- One matrix accumulator: cells listed by 64 i + j, flags and owner (R127, R262). -/
structure Acc where
  cells : Map (BitVec 96) := []
  aovf  : Bool := false
  anar  : Bool := false
  owner : Option Nat := none
  deriving DecidableEq, Repr, Inhabited

/-- What the core remembers of a saved context beside its bytes in the Closet or a spill unit (R36, R40, R51, R304):
`place` its Closet scalar place, none when moved; `vplace` and `aplace` its Closet vector and accumulator places; `unit` the spill unit of its
other parts, `unit2` that of a second accumulator; `lanes` its grant, `accs` the accumulators it owned; `order` when it was saved; `num` the context's
number, kept from its dispatch; `fault` the address it waits on, `also` the others of that access that have faulted (R402), `fkind` that access's kind (R400), `failed` the trap it takes when resumed; `yields` the slot a timer preemption freed, until that slot is given away (R378). The marks
of vector lanes and a pending BUDGET go with it. -/
structure Saved where
  num    : Nat
  place  : Option Nat := none
  vplace : Option Nat := none
  aplace : Bool := false
  unit   : Option Nat := none
  unit2  : Option Nat := none
  instant : Word := 0
  cls    : Nat := 0
  rtag   : Nat := 0
  order  : Nat := 0
  fault  : Option Nat := none
  also   : List Nat := []
  fkind  : Nat := 0
  failed : Option (Nat × Word) := none
  yields : Option Nat := none
  lanes  : Nat := 0
  accs   : List Nat := []
  vPoison : Map Word := []
  budgetPending : Bool := false
  deriving DecidableEq, Repr, Inhabited

/-- A preemption in progress (R50, R379): the victim, the slot that waits for it in SLOTCTL with its destination field, and whether the timer
asked. -/
structure Preemption where
  victim : Nat
  waiter : Option (Nat × Nat) := none
  timer  : Bool := false
  deriving DecidableEq, Repr, Inhabited

/-- An operation with .acq that has retired and is not yet performed, logged or sent under a number: its place in the core's issue order, and whether its refresh
invalidates the snapshot (R101, R196). -/
structure Acquire where
  num       : Nat
  order     : Nat
  refreshes : Bool
  deriving DecidableEq, Repr, Inhabited

/-- A core (R18). Registers of core scope (R346) stand under their own names. `csmCopy` lists the new exposed sizes that this core's
copy holds while a write of LMSHARE is not yet complete (R77); `l1` the lines its L1 holds (R98); `seen` and `reverted` the points of the coherence history of bytes by location (R66, R99); `acqs` the
.acq operations that have retired but are not yet performed (R196); `dirtyLog` (ASID, page, partition) entries (R395); `peerOut` the stores,
and reductions not yet acknowledged, as (number, port) (R102); `turnedAway` the devices whose messages it has refused since its last notice (R45); `turns` how many turns its slots have
taken. -/
structure Core where
  lmsplit  : BitVec 4 := 4
  lmshare  : BitVec 4 := 0
  csmCopy  : Map Nat := []
  featmask : BitVec 8 := 3
  asid     : BitVec 16 := 0
  part     : BitVec 4 := 0
  sched    : Bool := false
  an       : Bool := false
  stvec    : Word := 0
  timercmp : Word := BitVec.allOnes 64
  timer    : Bool := false
  msgpend  : BitVec 8 := 0
  freqreq  : BitVec 4 := 15
  ptempl0  : Word := 0
  ptempl1  : Word := 0
  ptempl2  : Word := 0
  ptempl3  : Word := 0
  clspill  : Word := 0
  classes  : Map MsgClass := []
  hatches  : Map Hatch := []
  ni       : List Outgoing := []
  barriers : Map Barrier := []
  board    : List Board := []
  lines    : List Line := []
  coherent : List Nat := []
  refresh  : Nat := 0
  seen     : Map Nat := []
  reverted : Map Nat := []
  l1       : List Nat := []
  acqs     : List Acquire := []
  tlb      : List TlbEntry := []
  dirtyLog : List (Nat × Nat × Nat) := []
  sideLog  : List LogEntry := []
  acc0     : Acc := {}
  acc1     : Acc := {}
  unitBusy : Option (Nat × UnitOp) := none
  unitNext : Option (Nat × UnitOp) := none
  saved    : List Saved := []
  lastSlot : Nat := 0
  removed  : Nat := 0
  preempt  : Option Preemption := none
  peerOut  : List (Nat × Nat) := []
  turnedAway : List Nat := []
  turns    : Nat := 0
  deriving DecidableEq, Repr, Inhabited

/-- Why a tagged-word wait was withdrawn (R192, R193, R382). -/
inductive Withdrawal where
  | limit | preemption | budget
  deriving DecidableEq, Repr

/-- An operation outstanding at a peer (R106, R404, R425); `word` is the load of one word of a record or a block that an instruction reads. -/
inductive PeerWait where
  | load (rd : List (Nat × Nat)) (addr : Word) (bytes : Nat) (signed : Bool)
  | atomic (rd : Nat) (addr : Word) (bytes : Nat) (ord : Nat)
  | word (addr : Word)
  deriving DecidableEq, Repr

/-- A tagged-word operation under way (R189): its function value, destination field, address, physical address and value to store, and whether its address
is to be translated again before it is sent again (R363). -/
structure TagOp where
  op    : Nat
  rd    : Nat
  addr  : Word
  pa    : Nat
  value : Word
  stale : Bool := false
  deriving DecidableEq, Repr, Inhabited

/-- What a waiting slot waits for (R43). A slot that waits holds its PC at the waiting instruction. -/
inductive Wait where
  | hatch | fetch | board | sideLog | dirtyLog | copyRoom | unitBusy | message | interface | publish | stores | turn | acquire | share | cap | keyUnit
  | late (values : List (Nat × Word × Bool))
  | tagged (w : TagOp) (deferred : Bool) (naks retry : Nat)
  | tagAnswer (w : TagOp) (answer : Word) (poison : Bool)
  | withdrawn (w : TagOp) (why : Withdrawal)
  | monitor (start limit : Nat)
  | barrier (ctx : Nat)
  | arrival (ctx : Nat)
  | matrix
  | peer (op : PeerWait) (resend : Bool)
  | fault (va : Nat)
  | preempting (g : Nat)
  deriving DecidableEq, Repr

/-- State of a slot (R359 QUERY; a victim of a preemption in progress is known from its core). -/
inductive SlotState where
  | free | ready | waiting | faultHeld | halted
  deriving DecidableEq, Repr, Inhabited

/-- A slot (R18): the task's registers and the per-slot CSRs (R346). `ctx` numbers its context from dispatch on; `checked` are the places
of an access that has passed its checks and is held (R93); `awaits` the number below which a publish waits for what is outstanding (R102); `fkind` the
kind of the access that holds it on a fault (R400), `also` the other addresses of that access that have faulted (R402); `stays` that its fault found no room to save it (R40); `killed` that SLOTCTL KILL has ended its task,
which awaits an answer (R65, R359); `inst` the instruction that has issued and waits, with its place in the core's issue order (R43, R93, R95), `read` the words of
its record or block that it has read so far; `first` the count of its core's turns before which its task does not issue (R37). -/
structure Slot where
  state    : SlotState := .free
  wait     : Option Wait := none
  since    : Nat := 0
  x        : Map Word := []
  xPoison  : BitVec 32 := 0
  p        : BitVec 8 := 1
  pc       : Word := 0
  expiry   : Word := 0
  rtag     : Nat := 0
  prio     : Nat := 0
  feat     : Nat := 0
  deleg    : Bool := false
  mode     : Bool := false
  dh       : Bool := false
  pmode    : Bool := false
  pdh      : Bool := false
  ie       : Bool := false
  pie      : Bool := false
  nest     : Bool := false
  grant    : Nat := 0
  vl       : Nat := 0
  lost     : Bool := false
  vtype    : BitVec 3 := 0
  vflags   : BitVec 5 := 0
  waitlim  : BitVec 32 := 0
  budget   : BitVec 32 := 0
  inForce  : Bool := false
  budgetPending : Bool := false
  oovdraft : BitVec 32 := 0
  tvec     : Word := 0
  trapcause : BitVec 8 := 0
  trappc   : Word := 0
  trapval  : Word := 0
  dcause   : BitVec 8 := 0
  dpc      : Word := 0
  dval     : Word := 0
  sscratch : Word := 0
  lprot0   : Word := 0
  lprot1   : Word := 0
  lprot2   : Word := 0
  lprot3   : Word := 0
  v        : Map (BitVec 32) := []
  vPoison  : Map Word := []
  m        : Map (BitVec 512) := []
  shape    : Word := 0
  fmt      : Word := 0
  aBase    : Word := 0
  aStride  : Word := 0
  bBase    : Word := 0
  bStride  : Word := 0
  cell     : Word := 0
  progress : Word := 0
  monitors : Map (Nat × Nat) := []
  written  : BitVec 4 := 0
  rearm    : Bool := false
  recorded : Map (Option Nat) := []
  home     : Home := .core
  started  : Nat := 0
  doubleHalt : Bool := false
  held     : List (Nat × HatchEntry) := []
  reserve  : Option Nat := none
  pushing  : Option Nat := none
  vprog    : Nat := 0
  logFailed : Option (Nat × Word) := none
  ctx      : Nat := 0
  checked  : Option (List Place) := none
  awaits   : Option Nat := none
  fkind    : Nat := 0
  also     : List Nat := []
  stays    : Bool := false
  killed   : Bool := false
  inst     : Option (Instr × Nat) := none
  read     : List Word := []
  first    : Nat := 0
  deriving DecidableEq, Repr, Inhabited

/-- A command at an engine (R293, R302, R310): its words, the request, core, slot and Hatch it was pushed with, the pusher's mode, and its
DONE Hatch if reserved. `plan` is the pieces of a copy (source, destination, length) once its lists are read (`planned`), `mask` its
multicast mask, `left` the 128-byte granules not yet written of its `total` bytes, `snap` the memory as of its start, `since` the point of the
coherence history its sources are read from, `wrote` the locations it has written, each with the byte it took, `landed` the frames that
have come in since its start, each with the point of the coherence history it came at, `waits` the pages it has waited for.
`pushed` is the number of its last word's push (R314); `lost` counts the bytes a KGATHER's failed pages leave out (R282). `ctx` is the pusher's context and `tie` that a suspension by preemption ties it to it (R304); `owes` that its SUSPENDED word is still to be written. `pieces` are the (first block, address,
blocks) of a Cellar command still to do, `sent` those with the drive. `ended` marks a command that only waits for its completion to be written, with
its final `state`, `error` and `bytes`. `seq` is a collective command's index among its rank's (R307), `port` the
storage root port of a Cellar command. A Cellar command keeps in `left` the pieces not yet submitted, in `wrote` the status each finished one ended
with, and in `times` when each was submitted (R430). -/
structure Cmd where
  id     : Nat
  op     : Nat
  words  : List Word
  rtag   : Nat
  core   : Nat
  g      : Nat
  hatch  : Nat
  user   : Bool
  part   : Nat
  done   : Option Nat := none
  planned : Bool := false
  plan   : List (Word × Word × Nat) := []
  mask   : Option Word := none
  left   : List Nat := []
  snap   : Memory := []
  since  : Nat := 0
  wrote  : Map Nat := []
  landed : Map Nat := []
  waits  : List Nat := []
  bytes  : Nat := 0
  lost   : Nat := 0
  total  : Nat := 0
  error  : Nat := 0
  state  : Nat := 0
  suspended : Bool := false
  ctx    : Nat := 0
  tie    : Bool := false
  owes   : Bool := false
  pieces : List (Nat × Word × Nat) := []
  sent   : Bool := false
  ended   : Bool := false
  seq    : Nat := 0
  port   : Nat := 0
  times  : Map Nat := []
  pushed : Nat := 0
  deriving DecidableEq, Repr, Inhabited

/-- What a member at a peer has contributed to a group's j-th collective (R307, R308): its rank, the index, the fields that must match (OP, TYPE, RED,
count, root), whether it was annulled before acceptance, and its source's bytes. -/
structure Contribution where
  rank    : Nat
  seq     : Nat
  fields  : List Nat
  dead    : Bool
  data    : List Byte
  deriving DecidableEq, Repr, Inhabited

/-- A group registered with a die's collective engine (R305): its members in rank order, and the ranks registered with their cores. `counts` is how
many collective commands of a rank have been counted (R307), `skips` the (rank, index) pairs of commands dropped before their engine took them,
`dead` the indexes whose match has ended without a result, each with the state and error every member gets (R68, R307). -/
structure Group where
  die     : Nat
  part    : Nat
  id      : Nat
  members : List Word
  ranks   : List (Nat × Nat)
  counts  : Map Nat := []
  skips   : List (Nat × Nat) := []
  dead    : List (Nat × Nat × Nat) := []
  parts   : List Contribution := []
  deriving DecidableEq, Repr, Inhabited

/-- One direction of a Stair (R311-R314). The receiver's part and the sender's queue of commands. -/
structure Stair where
  queue : List Nat := []
  made  : Bool := false
  base  : Word := 0
  core  : Nat := 0
  hatch : Nat := 0
  user  : Bool := true
  n     : Nat := 0
  e     : Nat := 0
  f     : Nat := 0
  deriving DecidableEq, Repr, Inhabited

/-- State of a Larder entry (R229). -/
inductive LarderState where
  | making | ready
  deriving DecidableEq, Repr

/-- A Larder entry that is not FREE (R228, R229); its place in the list is its recency, latest last. A waiter is its CR, the register
its CLAIM answers in, and the queue it was last dispatched from (R231). -/
structure LarderEntry where
  name   : BitVec 128
  state  : LarderState
  maker  : Nat
  handle : Word
  pins   : Nat
  waiters : List (CR × Nat × Nat)
  deriving DecidableEq, Repr

/-- A partition's Larder: entries, and resumed waiters still waiting for queue room (R231), each with its queue. -/
structure Larder where
  entries : List LarderEntry := []
  stalled : List (CR × Nat) := []
  deriving DecidableEq, Repr, Inhabited

/-- A deferred tagged-word operation at a slice (R190), of slot `g`. -/
structure Deferral where
  slice : Nat
  w     : TagOp
  g     : Nat
  deriving DecidableEq, Repr, Inhabited

/-- A fault-buffer entry (R400). `ctx` is the context of a fault held at its core (R401). -/
structure FaultEntry where
  index  : Nat
  level  : Nat
  reason : Nat
  rtag   : Nat
  core   : Nat
  kind   : Nat
  asid   : Nat
  part   : Nat
  va     : Nat
  shown  : Bool := false
  ctx    : Nat := 0
  deriving DecidableEq, Repr, Inhabited

/-- A die's fault buffer (R400, R401, FAULTSTAT of R347). -/
structure FaultBuffer where
  entries : List FaultEntry := []
  held    : List FaultEntry := []
  ovf     : Bool := false
  deriving DecidableEq, Repr, Inhabited

/-- A Cellar fault service in progress (R399): `va` is the first faulting address, `since` when its read was submitted (R430). -/
structure Service where
  id     : Nat
  part   : Nat
  asid   : Nat
  die    : Nat
  page   : Nat
  leafPa : Nat
  leaf   : Word
  ext    : Word
  frame  : Option Nat
  rtag   : Nat := 0
  core   : Nat := 0
  port   : Nat
  va     : Nat := 0
  since  : Nat := 0
  deriving DecidableEq, Repr, Inhabited

/-- A cluster: CLUSTCTL's STATE (R407), bytes of images its drain has written (R408), MEMCAP, DHARVEST.GO, its TLB, the commands of its copy
engine, and the slots whose KSEL or DRAW its key-selection unit holds, in order of arrival (R260). -/
structure Cluster where
  state   : Nat := 0
  drained : Nat := 0
  memcap  : Nat := 0
  harvest : Bool := false
  tlb     : List TlbEntry := []
  copies  : List Cmd := []
  keys    : List (Nat × KeyOp) := []
  deriving DecidableEq, Repr, Inhabited

/-- A tile's operating point (R412, R413): the level whose clock is in force and the level it last settled at, the voltage in 12.5 mV steps above
0.6 V, and the step under way, if any: whether it goes up, and the TIME it completes. `pool` is its victim pool: (core, line) (R79). -/
structure Tile where
  level   : Nat := 15
  settled : Nat := 15
  voltage : Nat := 30
  moving  : Option (Bool × Nat) := none
  power   : Nat := 0
  lmgroup : Bool := false
  pool    : List (Nat × Nat) := []
  deriving DecidableEq, Repr, Inhabited

/-- A storage root port (R429, R430, R436), with the namespaces that Valsis found on its drive. -/
structure Drive where
  present : Bool := false
  ready   : Bool := false
  spaces  : List Namespace := []
  deriving DecidableEq, Repr, Inhabited

/-- An NVMe command given to a drive (R310, R399, R429): its number, root port, namespace identifier, whether it writes, first block, blocks, and for a
write the bytes. -/
structure NvmeCmd where
  id     : Nat
  port   : Nat
  nsid   : Nat
  write  : Bool
  first  : Nat
  blocks : Nat
  data   : List Byte
  deriving DecidableEq, Repr

/-- An action of the power controller (R415): it lowered a cluster's cap, or removed one more slot on these cores. -/
inductive PowerAction where
  | cap (cluster : Nat)
  | removal (cores : List Nat)
  deriving DecidableEq, Repr

/-- The device. -/
structure State where
  -- bring-up (R435-R443)
  stage    : Nat
  ready    : Bool
  failed   : Bool
  tslost   : Bool
  vectors  : List Nat
  primary  : Option Image
  backup   : Option Image
  usedBackup : Bool
  keyDigest : List Byte
  rollback : Nat
  measured : Map (List Byte)
  configured : List (Nat × Word)
  spdm     : List (List Byte)
  spdmStage : Nat
  spdmHash : Bool
  spdmSlh  : Bool
  -- time (R427, R428)
  time     : Nat
  badRuns  : Nat
  goodRuns : Nat
  slew     : Int
  -- the HDM decoder's capacity in bytes (R419)
  hdm      : Nat
  -- memory (R82, R84, R96)
  mem      : Memory
  tags     : List Nat
  bad      : List Nat
  history  : List (List Host.Cell)
  -- what the host still sees of its memory where device stores have not reached it (R112): the byte, and those stores in order, with their cores
  hostLag  : Map (Byte × List (Nat × Byte))
  -- configuration space (R367)
  regs     : Map Word
  rtfree   : Map Nat
  -- queues and requests
  launch   : Map LaunchQueue
  levels   : Map Level
  reqs     : Map Req
  pools    : Map FreePool
  -- cores and slots
  cores    : Map Core
  slots    : Map Slot
  clusters : Map Cluster
  tiles    : Map Tile
  dsplit   : Map Nat
  -- engines
  cellars  : List Cmd
  colls    : List Cmd
  groups   : List Group
  stairs   : Map Stair
  sends    : List Cmd
  services : List Service
  kept     : List Cmd
  nextId   : Nat
  -- Larder, tagged words, faults
  larders  : Map Larder
  deferred : List Deferral
  faults   : Map FaultBuffer
  fbhead   : BitVec 128
  atc      : List Nat
  -- power, links, drives, peers
  actions  : List PowerAction
  power    : Nat
  overTime : Nat
  ports    : Map Bool
  dieLinks : Map Bool
  drives   : Map Drive
  outbox   : List (Nat × PeerWork)
  replies  : List (Nat × Nat × PeerAnswer)
  inbox    : List (PeerWork × List Nat)
  notices  : List (Nat × Nat × Bool)
  cancelled : List (Nat × Nat)
  nvme     : List NvmeCmd
  hostData : List (List Byte)
  atsWaits : List Nat
  atsDone  : List Nat
  doubleTraps : List Nat
  dropped  : Nat
  -- the model's own: which slot exec acts for, free values used, what is due, who moves next
  curCore  : Nat
  curSlot  : Nat
  free     : Nat
  pending  : List Event
  schedule : List (Option Nat)
  deriving DecidableEq, Repr

/-- The device right after reset: stage 0, compute dies unpowered (R435), every register at its reset value (R347, R367 and the registers
it names), nothing listed. Valsis takes it through bring-up from here. -/
def State.reset : State where
  stage := 0
  ready := false
  failed := false
  tslost := false
  vectors := []
  primary := none
  backup := none
  usedBackup := false
  keyDigest := List.replicate 32 0
  rollback := 0
  measured := []
  configured := []
  spdm := []
  spdmStage := 0
  spdmHash := false
  spdmSlh := false
  time := 0
  badRuns := 0
  goodRuns := 0
  slew := 0
  hdm := 0
  mem := []
  tags := []
  bad := []
  history := []
  hostLag := []
  regs := []
  rtfree := []
  launch := []
  levels := []
  reqs := []
  pools := []
  cores := []
  slots := []
  clusters := []
  tiles := []
  dsplit := []
  cellars := []
  colls := []
  groups := []
  stairs := []
  sends := []
  services := []
  kept := []
  nextId := 1
  larders := []
  deferred := []
  faults := []
  fbhead := 0
  atc := []
  actions := []
  power := 0
  overTime := 0
  ports := []
  dieLinks := []
  drives := []
  outbox := []
  replies := []
  inbox := []
  notices := []
  cancelled := []
  nvme := []
  hostData := []
  atsWaits := []
  atsDone := []
  doubleTraps := []
  dropped := 0
  curCore := 0
  curSlot := 0
  free := 0
  pending := []
  schedule := []

end Sys2Proof.Machine
end

