-- ==== Sys2Proof/Machine/Maps.lean ====
section
/-! DEFINITION. Maps by number, the byte memory in canonical form, and the bit fields of registers. -/

namespace Sys2Proof.Machine

/-- The record at `k`, or the reset record `d`. -/
def look {α : Type} (d : α) (k : Nat) : List (Nat × α) → α
  | [] => d
  | (j, w) :: r => if j = k then w else look d k r

/-- The map with `v` at `k`. -/
def put {α : Type} (k : Nat) (v : α) : List (Nat × α) → List (Nat × α)
  | [] => [(k, v)]
  | (j, w) :: r => if j < k then (j, w) :: put k v r else if j = k then (k, v) :: r else (k, v) :: (j, w) :: r

/-- The map without `k`. -/
def drop {α : Type} (k : Nat) (m : List (Nat × α)) : List (Nat × α) := m.filter (fun c => c.1 != k)

/-- What an unlisted byte reads as: zero (R440; before memory initialisation a DESIGN CHOICE, log 2). -/
def Memory.blank : Byte := 0

/-- Keys strictly rising. -/
def rising {α : Type} : List (Nat × α) → Bool
  | [] => true
  | [_] => true
  | a :: b :: r => decide (a.1 < b.1) && rising (b :: r)

/-- The canonical form: locations strictly rising, and no entry equal to what an unlisted location reads as. -/
def Memory.wf (m : Memory) : Bool := rising m && m.all (fun c => c.2 != Memory.blank)

/-- The byte at a location. -/
def Memory.read (m : Memory) (a : Nat) : Byte := look Memory.blank a m

/-- The memory with one byte written, kept in canonical form. -/
def Memory.write (m : Memory) (a : Nat) (v : Byte) : Memory := if v = Memory.blank then drop a m else put a v m

/-- The memory with several bytes written in order. -/
def Memory.writes (m : Memory) : List Host.Cell → Memory
  | [] => m
  | (a, v) :: r => (m.write a v).writes r

/-- The n bytes from a location. -/
def Memory.readN (m : Memory) (a : Nat) : Nat → List Byte
  | 0 => []
  | n + 1 => m.read a :: m.readN (a + 1) n

/-- Bytes as a number, the first least significant (R3). -/
def leNat : List Byte → Nat
  | [] => 0
  | b :: r => b.toNat + 256 * leNat r

/-- The n low bytes of a number, the least significant first (R3). -/
def leBytes (v : Nat) : Nat → List Byte
  | 0 => []
  | n + 1 => BitVec.ofNat 8 v :: leBytes (v / 256) n

/-- Consecutive cells from a location. -/
def cellsAt (a : Nat) : List Byte → List Host.Cell
  | [] => []
  | b :: r => (a, b) :: cellsAt (a + 1) r

/-! Locations. A physical address is its own location (R82); the on-chip SRAMs follow above the 52-bit physical space. -/

/-- First location beyond physical addresses. -/
def sramBase : Nat := 2 ^ 52
/-- Byte `o` of core `c`'s scratchpad (R73, R74). -/
def locScratch (c o : Nat) : Nat := sramBase + c * 2 ^ 18 + o
/-- Byte `o` of core `c`'s Closet (R73, R360). -/
def locCloset (c o : Nat) : Nat := sramBase + 2 ^ 30 + c * 2 ^ 16 + o
/-- Byte `o` of die `d`'s scratchpad (R73, R75). -/
def locDie (d o : Nat) : Nat := sramBase + 2 ^ 31 + d * 2 ^ 27 + o
/-- Byte `o` of the lane-store slice of lane `l` of slot `g`'s grant (R73). -/
def locLane (g l o : Nat) : Nat := sramBase + 2 ^ 32 + (g * 128 + l) * 512 + o

/-! Register fields (R3). -/

/-- v[lo + len - 1 : lo] as a number. -/
def fld (v : Word) (lo len : Nat) : Nat := v.toNat / 2 ^ lo % 2 ^ len
/-- v[n]. -/
def bit (v : Word) (n : Nat) : Bool := v.toNat / 2 ^ n % 2 = 1
/-- A word from a number. -/
def wd (n : Nat) : Word := BitVec.ofNat 64 n
/-- A bit as a number. -/
def b2n (b : Bool) : Nat := if b then 1 else 0
/-- A number shifted into place. -/
def at_ (n lo : Nat) : Nat := n * 2 ^ lo
/-- `sext` of an immediate to 64 bits (R8). -/
def sx {n : Nat} (v : BitVec n) : Word := v.signExtend 64

/-- Sum of a list. -/
def sumN (l : List Nat) : Nat := l.foldl (· + ·) 0

/-- Replace the element at an index. -/
def setAt {α : Type} (l : List α) (i : Nat) (v : α) : List α := l.set i v

/-- The index and element that is least under `lt`, the first among equals. -/
def leastBy {α : Type} (lt : α → α → Bool) : List α → Option α
  | [] => none
  | a :: r => match leastBy lt r with
    | none => some a
    | some b => if lt b a then some b else some a

/-- The list without its element at an index. -/
def eraseAt {α : Type} (l : List α) (i : Nat) : List α := l.take i ++ l.drop (i + 1)

end Sys2Proof.Machine
end

