-- ==== Sys2Proof/Machine/Base.lean ====
section
/-! DEFINITION. Access to the units of the device, their numbering (R13-R19), and the configuration registers (R366, R367). -/

namespace Sys2Proof.Machine

/-! Numbering (R14, R19). -/

def dieOf (c : Nat) : Nat := c / 512
def rowOf (c : Nat) : Nat := c / 32 % 16
def colOf (c : Nat) : Nat := c % 32
/-- Tile of a core (R14). -/
def tileOf (c : Nat) : Nat := dieOf c * 128 + rowOf c * 8 + colOf c / 4
/-- Cluster of a core (R14). -/
def clusterOf (c : Nat) : Nat := dieOf c * 16 + rowOf c / 4 * 4 + colOf c / 8
/-- A core's index within its cluster (R74). -/
def clusterIndex (c : Nat) : Nat := rowOf c % 4 * 8 + colOf c % 8
/-- The core of a cluster with an index (R14, R74). -/
def coreAt (cl i : Nat) : Nat := cl / 16 * 512 + (cl % 16 / 4 * 4 + i / 8) * 32 + cl % 4 * 8 + i % 8
/-- The 32 cores of a cluster, by index. -/
def clusterCores (cl : Nat) : List Nat := (List.range 32).map (coreAt cl)
/-- The four cores of a tile. -/
def tileCores (t : Nat) : List Nat := (List.range 4).map (fun k => t / 128 * 512 + t % 128 / 8 * 32 + t % 8 * 4 + k)
/-- The sixteen global slots of a core. -/
def slotsOf (c : Nat) : List Nat := (List.range 16).map (fun k => c * 16 + k)
/-- The core of a global slot. -/
def coreOf (g : Nat) : Nat := g / 16

/-! Units. -/

def State.core (s : State) (c : Nat) : Core := look {} c s.cores
def State.setCore (s : State) (c : Nat) (k : Core) : State := { s with cores := put c k s.cores }
def State.modCore (s : State) (c : Nat) (f : Core → Core) : State := s.setCore c (f (s.core c))
def State.slot (s : State) (g : Nat) : Slot := look {} g s.slots
def State.setSlot (s : State) (g : Nat) (t : Slot) : State := { s with slots := put g t s.slots }
def State.modSlot (s : State) (g : Nat) (f : Slot → Slot) : State := s.setSlot g (f (s.slot g))
def State.cluster (s : State) (c : Nat) : Cluster := look {} c s.clusters
def State.modCluster (s : State) (c : Nat) (f : Cluster → Cluster) : State :=
  { s with clusters := put c (f (s.cluster c)) s.clusters }
def State.tile (s : State) (t : Nat) : Tile := look {} t s.tiles
def State.modTile (s : State) (t : Nat) (f : Tile → Tile) : State := { s with tiles := put t (f (s.tile t)) s.tiles }
def State.level (s : State) (q l : Nat) : Level := look {} (4 * q + l) s.levels
def State.setLevel (s : State) (q l : Nat) (v : Level) : State := { s with levels := put (4 * q + l) v s.levels }
def State.launchQ (s : State) (d p : Nat) : LaunchQueue := look {} (16 * d + p) s.launch
def State.setLaunchQ (s : State) (d p : Nat) (v : LaunchQueue) : State := { s with launch := put (16 * d + p) v s.launch }
def State.faultBuf (s : State) (d : Nat) : FaultBuffer := look {} d s.faults
def State.setFaultBuf (s : State) (d : Nat) (v : FaultBuffer) : State := { s with faults := put d v s.faults }
def State.stair (s : State) (i : Nat) : Stair := look {} i s.stairs
def State.modStair (s : State) (i : Nat) (f : Stair → Stair) : State := { s with stairs := put i (f (s.stair i)) s.stairs }
def State.larder (s : State) (p : Nat) : Larder := look {} p s.larders
def State.setLarder (s : State) (p : Nat) (v : Larder) : State := { s with larders := put p v s.larders }
def State.drive (s : State) (q : Nat) : Drive := look {} q s.drives
def State.msgClass (s : State) (c k : Nat) : MsgClass := look {} k (s.core c).classes
def State.setClass (s : State) (c k : Nat) (v : MsgClass) : State :=
  s.modCore c (fun q => { q with classes := put k v q.classes })
def State.hatch (s : State) (c h : Nat) : Hatch := look {} h (s.core c).hatches
def State.setHatch (s : State) (c h : Nat) (v : Hatch) : State :=
  s.modCore c (fun q => { q with hatches := put h v q.hatches })
def State.barrier (s : State) (c b : Nat) : Barrier := look {} b (s.core c).barriers
def State.setBarrier (s : State) (c b : Nat) (v : Barrier) : State :=
  s.modCore c (fun q => { q with barriers := put b v q.barriers })
/-- The partition of a core (R347, R405). -/
def State.partOf (s : State) (c : Nat) : Nat := (s.core c).part.toNat
/-- The ASID of a partition: that of a core it owns (R347). -/
def State.asidOf (s : State) (p : Nat) : Nat :=
  match s.cores.find? (fun c => c.2.part.toNat = p && c.2.asid != 0) with
  | some c => c.2.asid.toNat
  | none => 0

/-! The slot exec acts for. -/

def State.me (s : State) : Nat := s.curCore * 16 + s.curSlot
def State.mine (s : State) : Slot := s.slot s.me
def State.here (s : State) : Core := s.core s.curCore
def State.modMe (s : State) (f : Slot → Slot) : State := s.modSlot s.me f
/-- Nominal cycles in a time in nanoseconds: 12 per 5 ns (R381). -/
def cyclesOf (ns : Nat) : Nat := 12 * ns / 5

/-- Cycles since the slot began to wait. -/
def State.waited (s : State) (t : Slot) : Nat := if t.wait.isSome then cyclesOf (s.time - t.since) else 0

/-- Cycles since the slot's instruction issued, if it waits after its issue: one blocked by a Hatch or by a full matrix unit has not issued (R138, R192,
R260), nor has one whose fetch waits. -/
def issuedWait : Option Wait → Bool
  | none => false
  | some .hatch => false
  | some .unitBusy => false
  | some .fetch => false
  | some _ => true
def State.sinceIssue (s : State) (t : Slot) : Nat := if issuedWait t.wait then s.waited t else 0

/-- The instruction that the slot has issued and waits in, with its place in the core's issue order (R43, R95). -/
def Slot.issued (t : Slot) : Option (Instr × Nat) := if issuedWait t.wait then t.inst else none

/-- The executing instruction's place in its core's issue order (R95): one that has not waited issues now. -/
def issueOrder (s : State) : Nat :=
  match s.mine.issued with
  | some x => x.2
  | none => s.nextId

/-- A wait over which the instruction goes on: one that has issued goes on as issued, another is fetched again. -/
def Slot.goesOn (t : Slot) : Slot := { t with wait := if t.inst.isSome then some .turn else none, state := .ready }

/-- The state acting for slot `g`. -/
def State.actFor (s : State) (g : Nat) : State := { s with curCore := g / 16, curSlot := g % 16 }

/-- A free value's index, used up. -/
def State.fresh (s : State) : Nat × State := (s.free, { s with free := s.free + 1 })

/-- An event or input that is now due, behind those already due. -/
def State.post (s : State) (i : Event) : State := { s with pending := s.pending ++ [i] }

/-! Requests (R23, R24, R33). -/

/-- An instant has been reached: all ones is never (R12). -/
def reached (i : Word) (now : Nat) : Bool := i != BitVec.allOnes 64 && decide (i.toNat ≤ now)

/-- Entry of a nonzero RTAG. -/
def State.req (s : State) (r : Nat) : Req := look {} r s.reqs
def State.setReq (s : State) (r : Nat) (v : Req) : State := { s with reqs := put r v s.reqs }
/-- State, instant and class of a tag; RTAG 0 reads as R33 sets. -/
def State.liveTag (s : State) (r : Nat) : Bool := r = 0 || decide ((s.req r).state = .live)
def State.instantOf (s : State) (r : Nat) : Word := if r = 0 then BitVec.allOnes 64 else (s.req r).instant
def State.classOf (s : State) (r : Nat) : Nat := if r = 0 then 0 else (s.req r).cls

/-- The request's annulment point is known at a die: its entry lies there, or its notice has arrived (R61, R212). -/
def annulKnown (s : State) (r d : Nat) : Bool := !s.liveTag r && (decide (r / 65536 = d) || (s.req r).noticed.contains d)

/-- The task of slot g is to end: its request's annulment is known at its core (R65), or SLOTCTL KILL has ended it (R359). -/
def slotDoomed (s : State) (g : Nat) : Bool :=
  let t := s.slot g
  t.state != .free && (t.killed || (t.rtag != 0 && annulKnown s t.rtag (dieOf (coreOf g))))

/-- The slot is the victim of its core's preemption in progress. -/
def isVictim (s : State) (g : Nat) : Bool :=
  match (s.core (coreOf g)).preempt with
  | some p => p.victim = g
  | none => false

/-- A setting made while firmware configures the device is part of what measurement 5 digests (R438, R441). -/
def noteConfig (s : State) (addr : Nat) (v : Word) : State :=
  if s.stage = 5 && !s.ready then { s with configured := s.configured ++ [(addr, v)] } else s

/-- The number by which a setting of a core's CSR is measured (log 20). -/
def csrSetting (c n : Nat) : Nat := 2 ^ 32 + 2048 * c + n

/-! Configuration registers (R367). -/

/-- Bus address of an offset in die d's block. -/
def busAddr (d off : Nat) : Nat := 0x40000000 + d * 0x01000000 + off

/-- Reset value of a register by its offset: DQCTL.DEMAND 1 (R371), TILECAP 15 (R412), PWRLIM 2,400 (R415), the rest 0. -/
def regReset (addr : Nat) : Word :=
  let off := addr % 0x01000000
  if off < 0x80 then 1
  else if 0x2000 ≤ off ∧ off < 0x2400 then 15
  else if addr = busAddr 0 0x040180 then 2400
  else 0

def State.reg (s : State) (addr : Nat) : Word := look (regReset addr) addr s.regs
def State.setReg (s : State) (addr : Nat) (v : Word) : State := { s with regs := put addr v s.regs }

def dqctlAddr (d p : Nat) : Nat := busAddr d (8 * p)
def ffpoolAddr (d p : Nat) : Nat := busAddr d (0x200 + 8 * p)
def ffheadAddr (d p : Nat) : Nat := busAddr d (0x280 + 8 * p)
def fftailAddr (d p : Nat) : Nat := busAddr d (0x300 + 8 * p)
def drainareaAddr (d : Nat) : Nat := busAddr d 0x108
def stairctlAddr (d : Nat) : Nat := busAddr d 0x110
def walkshareAddr (cl p : Nat) : Nat := busAddr (cl / 16) (0x1080 + 256 * (cl % 16) + 8 * p)
def clustctlAddr (cl : Nat) : Nat := busAddr (cl / 16) (0x1000 + 256 * (cl % 16))
def tilecapAddr (t : Nat) : Nat := busAddr (t / 128) (0x2000 + 8 * (t % 128))
def ptbaseAddr (p : Nat) : Nat := busAddr 0 (0x040000 + 8 * p)
def pquotaAddr (p : Nat) : Nat := busAddr 0 (0x040080 + 8 * p)
def plarderAddr (p : Nat) : Nat := busAddr 0 (0x040100 + 8 * p)
def pwrlimAddr : Nat := busAddr 0 0x040180
def peerrouteAddr (k : Nat) : Nat := busAddr 0 (0x041000 + 8 * k)
def peerinAddr (k : Nat) : Nat := busAddr 0 (0x041200 + 8 * k)
def nsassignAddr (p k : Nat) : Nat := busAddr 0 (0x042000 + 2048 * p + 8 * k)

/-- Queue numbers: core c is c, cluster k is 2,048 + k, partition p's die queue on die d is 2,112 + 16 d + p (R370). -/
def qCore (c : Nat) : Nat := c
def qCluster (k : Nat) : Nat := 2048 + k
def qDie (d p : Nat) : Nat := 2112 + 16 * d + p

/-- The RINGD of a queue's level (R367). -/
def ringdAddr (q l : Nat) : Nat :=
  if q < 2048 then busAddr (q / 512) (0x010000 + 32 * (q % 512) + 8 * l)
  else if q < 2112 then busAddr ((q - 2048) / 16) (0x014000 + 32 * ((q - 2048) % 16) + 8 * l)
  else busAddr ((q - 2112) / 16) (0x014200 + 32 * ((q - 2112) % 16) + 8 * l)

/-- STATUS as the CSR map lays it out (R347). -/
def statusWord (k : Core) (t : Slot) : Word :=
  wd (at_ (b2n k.sched) 9 + at_ (b2n k.an) 8 + at_ (b2n t.nest) 7 + at_ (b2n t.pie) 6 + at_ (b2n t.ie) 5 + at_ (b2n t.pdh) 4
    + at_ (b2n t.pmode) 3 + at_ (b2n t.dh) 2 + b2n t.mode)

/-- CR word 2 (R31). -/
def crWord2 (r : CR) : Word :=
  wd (at_ (r.budget % 2 ^ 32) 32 + at_ (b2n r.deleg) 28 + at_ (r.feat % 256) 20 + at_ (r.prio % 4) 18 + r.rtag % 2 ^ 18)

/-- The eight words of a CR (R30). -/
def crWords (r : CR) : List Word :=
  [r.pc, r.instant, crWord2 r] ++ (List.range 5).map (fun i => r.x.getD i 0)

/-- A CR from eight words (R30, R31). -/
def crOf (w : List Word) : CR :=
  let w2 := w.getD 2 0
  { pc := w.getD 0 0, instant := w.getD 1 0, budget := fld w2 32 32, deleg := bit w2 28, feat := fld w2 20 8,
    prio := fld w2 18 2, rtag := fld w2 0 18, x := (w.drop 3).take 5 }

/-- A slot occupied by a task (R359). -/
def Slot.occupied (t : Slot) : Bool := t.state != .free

/-- Lanes free in a core's tile (R241): those no slot of the tile holds. -/
def freeLanes (s : State) (c : Nat) : Nat :=
  128 - sumN ((tileCores (tileOf c)).map (fun k => sumN ((slotsOf k).map (fun g => (s.slot g).grant))))

end Sys2Proof.Machine
end

