-- ==== Sys2Proof/Machine/Ops.lean ====
section
/-! DEFINITION. The named operations every meaning is written with: sequencing, waiting, the PC, and taking and leaving an exception
(R54, R179, R350-R353). -/

namespace Sys2Proof.Machine

/-- How a part of an instruction ends: it goes on with a value, or the instruction is over with this state (a trap was taken, the
slot waits, the slot was freed). -/
inductive Res (α : Type) where
  | go (a : α) (s : State)
  | stop (s : State)

/-- Go on with the next part. -/
def Res.bnd {α β : Type} (r : Res α) (f : α → State → Res β) : Res β :=
  match r with
  | .go a s => f a s
  | .stop s => .stop s

/-- The state a part leaves. -/
def Res.state {α : Type} (r : Res α) : State :=
  match r with
  | .go _ s => s
  | .stop s => s

/-- The outcome of an instruction: its effect is a next state. -/
def Res.outcome {α : Type} (r : Res α) : Host.Outcome State Fault Refusal := .next r.state

/-- Trap causes (R349). -/
inductive Cause where
  | illegalOp | featureAbsent | priv | misalign | attrmix | noncanon | protLocal | xlate | perm | storage | memerr | waitlimit
  | budget | hatch | larder | matrix | barrier | vgrant | stair | trapi | brk | timer | msg
  deriving DecidableEq, Repr

/-- The cause's code (R349). -/
def Cause.code : Cause → Nat
  | .illegalOp => 0x01
  | .featureAbsent => 0x02
  | .priv => 0x03
  | .misalign => 0x04
  | .attrmix => 0x05
  | .noncanon => 0x06
  | .protLocal => 0x07
  | .xlate => 0x08
  | .perm => 0x09
  | .storage => 0x0A
  | .memerr => 0x0B
  | .waitlimit => 0x0C
  | .budget => 0x0D
  | .hatch => 0x0E
  | .larder => 0x0F
  | .matrix => 0x10
  | .barrier => 0x11
  | .vgrant => 0x12
  | .stair => 0x13
  | .trapi => 0x20
  | .brk => 0x21
  | .timer => 0x30
  | .msg => 0x31

/-- The causes a task may take itself (R54, R349). -/
def Cause.delegable : Cause → Bool
  | .misalign => true
  | .waitlimit => true
  | .budget => true
  | .trapi => true
  | _ => false

/-- A delegated trap is possible (R54). -/
def delegates (t : Slot) (c : Cause) : Bool :=
  !t.mode && c.delegable && t.deleg && t.tvec != 0 && !t.dh

/-- The trap registers hold a trap (R349). -/
def recordTrap (t : Slot) (c : Cause) (tpc value : Word) : Slot :=
  { t with trapcause := BitVec.ofNat 8 c.code, trappc := tpc, trapval := value, vprog := 0, checked := none, awaits := none, inst := none, read := [] }

/-- A trapping slot's state after `trap(cause, value)` (R351): delegated (R54), a double trap's halt (R353), or supervisor entry. -/
def trapSlot (t : Slot) (stvec : Word) (c : Cause) (tpc value : Word) : Slot :=
  if delegates t c then
    { recordTrap t c tpc value with dh := true, pc := t.tvec, wait := none, state := .ready }
  else if t.mode && t.nest then
    { recordTrap t c tpc value with wait := none, state := .halted, doubleHalt := true }
  else
    let t1 := if t.dh then { t with dcause := t.trapcause, dpc := t.trappc, dval := t.trapval } else t
    { recordTrap t1 c tpc value with
      pmode := t.mode, pdh := t.dh, pie := t.ie, mode := true, dh := false, ie := false, nest := true,
      pc := stvec, wait := none, state := .ready }

/-- Put back what slot `g`'s instruction popped and reserved at issue (R138): its popped entries return to the heads of their Hatches, its
destination's place and its DONE Hatch's are no longer reserved. -/
def undoIssue (s : State) (g : Nat) : State :=
  let t := s.slot g
  let c := coreOf g
  if t.held.isEmpty && t.reserve.isNone && t.pushing.isNone then s
  else
    let s1 := t.held.foldr (fun x s => let h := s.hatch c x.1; s.setHatch c x.1 { h with entries := x.2 :: h.entries }) s
    let free := fun (s : State) (r : Option Nat) => match r with
      | some n => let h := s.hatch c n; s.setHatch c n { h with resv := h.resv - 1 }
      | none => s
    (free (free s1 t.reserve) t.pushing).modSlot g (fun t => { t with held := [], reserve := none, pushing := none })

/-- A trap of a slot in supervisor mode with NEST set is a double trap (R353). -/
def doubles (t : Slot) (c : Cause) : Bool := !delegates t c && t.mode && t.nest

/-- `trap(cause, value)` on slot `g`, the trap PC given (R351). Valsis is notified of a double trap (R353). -/
def trapAt (s : State) (g : Nat) (c : Cause) (tpc value : Word) : State :=
  let s1 := undoIssue s g
  let s2 := s1.modSlot g (fun t => trapSlot t (s.core (coreOf g)).stvec c tpc value)
  if doubles (s1.slot g) c then { s2 with doubleTraps := s2.doubleTraps ++ [g] } else s2

/-- A trap of the executing instruction, precise at it (R140, R349). -/
def trap (s : State) (c : Cause) (value : Word) : State := trapAt s s.me c s.mine.pc value

/-- The part ends in a trap. -/
def trapRes {α : Type} (s : State) (c : Cause) (value : Word) : Res α := .stop (trap s c value)

/-- A slot's state after ERET (R352). -/
def eretSlot (t : Slot) : Slot :=
  let t1 := if t.pdh then { t with trapcause := t.dcause, trappc := t.dpc, trapval := t.dval } else t
  { t1 with pc := t.trappc &&& ~~~1#64, mode := t.pmode, dh := t.pdh, ie := t.pie, pdh := false, nest := false }

/-- A slot's state after TRET of a delegated handler (R179). -/
def tretSlot (t : Slot) : Slot := { t with pc := t.trappc &&& ~~~1#64, dh := false }

/-- The slot goes on at an address. -/
def jumpTo (s : State) (g : Nat) (a : Word) : State :=
  s.modSlot g (fun t =>
    { t with pc := a, wait := none, state := .ready, held := [], reserve := none, pushing := none, checked := none, awaits := none, inst := none, read := [] })

/-- Bytes of an instruction (R139). -/
def lengthOf (i : Instr) : Nat := if isShort i then 2 else 4

/-- The executing slot goes on `n` bytes further. -/
def advance (s : State) (n : Nat) : State := jumpTo s s.me (s.mine.pc + wd n)

/-- Slot `g` waits (R43); the wait's start stays if its instruction was already waiting after issue (R192). -/
def waitSlot (s : State) (g : Nat) (w : Wait) : State :=
  s.modSlot g (fun t => { t with wait := some w, state := (match w with | .fault _ => .faultHeld | _ => .waiting),
                                 since := if issuedWait t.wait then t.since else s.time })

/-- The executing slot waits at this instruction. -/
def waitHere {α : Type} (s : State) (w : Wait) : Res α := .stop (waitSlot s s.me w)

/-- Stop with a trap unless a condition holds. -/
def need (s : State) (ok : Bool) (c : Cause) (value : Word) : Res Unit := if ok then .go () s else trapRes s c value

end Sys2Proof.Machine
end

