-- ==== Sys2Proof/Machine/Coherence.lean ====
section
/-! DEFINITION. Published memory and its coherence order, a core's snapshot and unpublished stores, publish and refresh (R94-R113),
and the summaries home slices keep (R275-R277). -/

namespace Sys2Proof.Machine

/-- Line and sector numbers of a location (R16). -/
def lineNo (a : Nat) : Nat := a / 128
def sectorNo (a : Nat) : Nat := a / 16

/-- Home die of a physical address (R83). -/
def homeDie (pa : Nat) : Nat := if pa / 2 ^ 51 % 2 = 1 then 0 else pa / 2 ^ 36 % 8 / 2

/-- Home slice of a physical address, numbered die x 128 + slice (R83). -/
def homeSlice (pa : Nat) : Nat :=
  homeDie pa * 128 + Nat.xor (Nat.xor (Nat.xor (pa / 2 ^ 7 % 128) (pa / 2 ^ 14 % 128))
    (Nat.xor (pa / 2 ^ 21 % 128) (pa / 2 ^ 28 % 128))) (pa / 2 ^ 35 % 2)

/-! Summaries. -/

/-- Channels of a key page by DC (R275). -/
def dcChannels (dc : Nat) : Nat := 32 * 2 ^ dc
/-- Element bytes by KF: 0 BF16, 1 T8 (R275). -/
def kfBytes (kf : Nat) : Nat := if kf = 0 then 2 else 1
/-- Bytes of a key page (R275). -/
def pageBytes (dc kf : Nat) : Nat := 64 * dcChannels dc * kfBytes kf
/-- Bytes of a summary record: 16 + 4 d rounded up to a line (R275). -/
def recordBytes (dc : Nat) : Nat := (16 + 4 * dcChannels dc + 127) / 128 * 128

/-- The summary word's fields (R390). -/
def extRpa (e : Word) : Nat := fld e 7 45
def extDc (e : Word) : Nat := fld e 54 2
def extKf (e : Word) : Nat := fld e 56 1

/-- Address of the record for frame offset `o` (R390). -/
def recordPa (e : Word) (o : Nat) : Nat :=
  extRpa e * 128 + o / pageBytes (extDc e) (extKf e) * recordBytes (extDc e)

/-- Two bytes of memory as a number. -/
def read16 (m : Memory) (a : Nat) : Nat := leNat (m.readN a 2)

/-- The value of a key element (R122, R275). -/
def keyValue (kf c : Nat) : Val := if kf = 0 then decodeF fBF16 c else decodeT 8 c

/-- The header byte that holds DC and KF, which the page-table entry fixes (R275). -/
def geometryCell (e : Word) (r : Nat) : List Host.Cell := [(r + 4, BitVec.ofNat 8 (4 * extDc e + extKf e))]

/-- The cells a written element changes in its record (R276). -/
def summaryCells (m : Memory) (e : Word) (pa : Nat) : List Host.Cell :=
  let b := kfBytes (extKf e)
  let d := dcChannels (extDc e)
  let o := pa % 65536
  let within := o % pageBytes (extDc e) (extKf e)
  let t := within / (d * b)
  let c := within % (d * b) / b
  let r := recordPa e o
  let v := keyValue (extKf e) (leNat (m.readN pa b))
  let loA := r + 16 + 2 * c
  let hiA := r + 16 + 2 * d + 2 * c
  let lo := read16 m loA
  let hi := read16 m hiA
  let special := v.isNan || v == .nar
  let lo' := if special then fBF16.signBit + fBF16.infBits
             else if ltZ v (decodeF fBF16 lo) then (rndF fBF16 .rdn false v).1 else lo
  let hi' := if special then fBF16.infBits
             else if ltZ (decodeF fBF16 hi) v then (rndF fBF16 .rup false v).1 else hi
  let tk := read16 m (r + 2)
  cellsAt loA (leBytes lo' 2) ++ cellsAt hiA (leBytes hi' 2) ++ cellsAt (r + 2) (leBytes (max tk (t + 1)) 2) ++ geometryCell e r

/-- The memory after the summary updates of the elements at the given locations (R276). -/
def summarise (e : Word) (m : Memory) : List Nat → Memory
  | [] => m
  | pa :: r => summarise e (m.writes (summaryCells m e pa)) r

/-- The cells of a record reset (R277): bounds empty, TOKENS 0, GEN one up. -/
def resetCells (m : Memory) (e : Word) (pa : Nat) : List Host.Cell :=
  let d := dcChannels (extDc e)
  let r := recordPa e (pa % 65536)
  cellsAt r (leBytes (read16 m r + 1) 2) ++ cellsAt (r + 2) (leBytes 0 2) ++ geometryCell e r ++
    (List.range d).flatMap (fun c => cellsAt (r + 16 + 2 * c) (leBytes 0x7F80 2) ++ cellsAt (r + 16 + 2 * d + 2 * c) (leBytes 0xFF80 2))

/-- The element locations among written bytes. -/
def writtenElems (e : Word) (cells : List Host.Cell) : List Nat :=
  let b := kfBytes (extKf e)
  (cells.map (fun c => c.1 / b * b)).eraseDups

/-! Published writes. -/

/-- The slots that have a line armed (R200). -/
def armedBy (s : State) (ln : Nat) : List (Nat × Nat) :=
  s.slots.flatMap (fun t => (t.2.monitors.filter (fun m => m.2.2 = ln)).map (fun m => (t.1, m.1)))

/-- Some slot of core `c` has the line armed (R100). -/
def armedHere (s : State) (c ln : Nat) : Bool := (armedBy s ln).any (fun p => coreOf p.1 = c)

/-- The line is held coherently by core `c`: for atomics, or armed (R100). -/
def heldHere (s : State) (c ln : Nat) : Bool := (s.core c).coherent.contains ln || armedHere s c ln

/-- The wake events of a write to a line (R201): to every slot that armed it but, for an atomic of slot `g`, that slot, and for a core's own
stores, its core's. -/
def wakes (s : State) (ln : Nat) (core : Option Nat) (g : Option Nat) : List Event :=
  ((armedBy s ln).filter (fun p =>
    match g with
    | some h => p.1 != h
    | none => some (coreOf p.1) != core)).map (fun p => .monitorWake p.1 p.2)

/-- The points of bytes set to `now` (R99). -/
def noteBytes (m : Map Nat) (l : List Nat) (now : Nat) : Map Nat := l.foldl (fun m a => put a now m) m

/-- The locations of a line's bytes. -/
def lineBytes (ln : Nat) : List Nat := (List.range 128).map (fun i => 128 * ln + i)

/-- Another agent's request recalls the line from cores that hold it for atomics (R108): they read nothing older than the point of the recall. Published writes,
atomics, peer accesses and host reads recall it; another core's cacheable fill, an uncached load and an engine's read do not, since they change nothing that the
holder could see: R108 does not name the requests, DESIGN CHOICE, log 65. -/
def recallLine (s : State) (ln : Nat) (core : Option Nat) : State :=
  { s with cores := s.cores.map (fun c =>
      if some c.1 != core && c.2.coherent.contains ln then
        (c.1, { c.2 with
          coherent := c.2.coherent.filter (· != ln)
          seen := noteBytes c.2.seen (lineBytes ln) s.history.length })
      else c) }

/-- First location of host memory: a system page's physical addresses (R82). -/
def hostBase : Nat := 2 ^ 51

/-- Bytes a core publishes to host memory reach the host at its next .sys publish (R101, R112): until then the host sees what it saw. -/
def lagCells (s : State) (c : Nat) (cells : List Host.Cell) : Map (Byte × List (Nat × Byte)) :=
  cells.foldl (fun m x =>
    if x.1 < hostBase then m
    else
      match m.find? (fun y => y.1 = x.1) with
      | some y => put x.1 (y.2.1, y.2.2 ++ [(c, x.2)]) m
      | none => put x.1 (s.mem.read x.1, [(c, x.2)]) m) s.hostLag

/-- One write enters the coherence order of each of its bytes (R96): the replaced values go to the history, fresh check bits clear
errors (R187), armed cores are woken, and a summarised page's record is updated (R276). `core` is the core that writes, if one does: it has seen what it
published, and reads nothing older there (R99); `g` is the slot whose atomic it is. A write by an agent with no core (an engine, a peer, a device's agent) to host
memory is seen by the host at once, whatever it had still to see of those bytes: R112 tells only of what a core publishes, DESIGN CHOICE, log 72. -/
def publishCells (s : State) (cells : List Host.Cell) (ext : Word) (core : Option Nat) (g : Option Nat) : State :=
  let old := cells.map (fun c => (c.1, s.mem.read c.1))
  let m := s.mem.writes cells
  let m := if ext = 0 then m else summarise ext m (writtenElems ext cells)
  let lns := (cells.map (fun c => lineNo c.1)).eraseDups
  let s1 : State := { s with
    mem := m
    history := old :: s.history
    hostLag := match core with
      | some c => lagCells s c cells
      | none => s.hostLag.filter (fun x => !(cells.any (fun c => c.1 = x.1)))
    bad := s.bad.filter (fun a => !(cells.any (fun c => c.1 = a)))
    pending := s.pending ++ lns.flatMap (fun ln => wakes s ln core g) }
  let s2 := lns.foldl (fun s ln => recallLine s ln core) s1
  match core with
  | some c => s2.modCore c (fun k => { k with
      seen := noteBytes k.seen (cells.map (fun x => x.1)) s2.history.length
      reverted := k.reverted.filter (fun r => !(cells.any (fun x => x.1 = r.1))) })
  | none => s2

/-- A write performed in an SRAM (R105): no history, no snapshot. -/
def sramWrite (s : State) (cells : List Host.Cell) : State := { s with mem := s.mem.writes cells }

/-! A core's snapshot (R99). -/

/-- A byte's value `k` published writes ago. -/
def asOf (s : State) (a k : Nat) : Byte :=
  (s.history.take k).foldl (fun v e => look v a e) (s.mem.read a)

/-- The line of unpublished stores covering a location, if any. -/
def dirtyLine (k : Core) (a : Nat) : Option Line := k.lines.find? (fun l => l.line = lineNo a)

/-- The latest point among the last refresh and what was seen of n bytes (R99). -/
def seenBound (k : Core) (a n : Nat) : Nat := (List.range n).foldl (fun b i => max b (look 0 (a + i) k.seen)) k.refresh

/-- The earliest point a load of n bytes of a sector may return the value of (R99): the last refresh or the last value seen, and for a sector with
unpublished stores no earlier than its fill (R97). -/
def sectorBound (k : Core) (a n : Nat) : Nat :=
  let base := seenBound k a n
  match dirtyLine k a with
  | some l => max base (look 0 (sectorNo a) l.fills)
  | none => base

/-- A point of the history from a bound to now, at the device's choice. -/
def drawPoint (s : State) (bound : Nat) : Nat × State :=
  let w := s.history.length - bound
  if w = 0 then (s.history.length, s)
  else
    let (n, s1) := s.fresh
    (s.history.length - Config.loadPoint n % (w + 1), s1)

/-- The point whose values this load of n bytes returns: any down to the bound (R99), now for a line held coherently (R100). -/
def loadPointOf (s : State) (c a n : Nat) : Nat × State :=
  if heldHere s c (lineNo a) then (s.history.length, s) else drawPoint s (sectorBound (s.core c) a n)

/-- One byte as the core reads it at a point: its own latest store (R99), zero in a sector whose fill met an error (R187), the value of the point that
an annulment left (R66), else that of the given point. -/
def snapByte (s : State) (c a p : Nat) : Byte :=
  let k := s.core c
  let now := s.history.length
  let plain := match k.reverted.find? (fun r => r.1 = a) with
    | some r => if heldHere s c (lineNo a) then asOf s a (now - p) else asOf s a (now - r.2)
    | none => asOf s a (now - p)
  match dirtyLine k a with
  | some l => look (if l.zero.contains (sectorNo a) then 0 else plain) a l.cells
  | none => plain

/-- The core holds an unpublished store to a byte (R99). -/
def ownStore (k : Core) (a : Nat) : Bool :=
  match dirtyLine k a with
  | some l => l.cells.any (fun x => x.1 = a)
  | none => false

/-- The bytes at consecutive locations of one sector as the core reads them at a point. -/
def snapBytes (s : State) (c a p : Nat) : Nat → List Byte
  | 0 => []
  | n + 1 => snapByte s c a p :: snapBytes s c (a + 1) p n

/-- The fill of a stored sector moves up to a later load's point (R97, R99). -/
def refill (l : Line) (sec p : Nat) : Line :=
  { l with fills := l.fills.map (fun f => if f.1 = sec then (f.1, max f.2 p) else f) }

/-- A cacheable load of at most one sector by core `c` (R99, R100): the bytes, and the state with their point noted as seen, but for bytes that the core's own
store supplied. A byte that annulment left at an earlier point stays there until the refresh, or until a load of a line held coherently has seen it as it is now. -/
def snapLoad (s : State) (c a n : Nat) : List Byte × State :=
  let (p, s1) := loadPointOf s c a n
  let bs := snapBytes s1 c a p n
  let now := heldHere s1 c (lineNo a)
  let read := ((List.range n).map (a + ·)).filter (fun x => !ownStore (s1.core c) x)
  (bs, s1.modCore c (fun q => { q with
    seen := noteBytes q.seen (read.filter (fun x => now || !(q.reverted.any (fun r => r.1 = x)))) p
    reverted := if now then q.reverted.filter (fun r => !read.contains r.1) else q.reverted
    lines := if read.isEmpty then q.lines else q.lines.map (fun l => if l.line = lineNo a then refill l (sectorNo a) p else l) }))

/-- The sixteen bytes a sector publishes (R97): the stores, and for the rest what the core's snapshot holds: those of the fill, zero where it met an
uncorrectable error (R187), and where an annulment left an earlier point, that point's (R66). -/
def sectorCells (s : State) (k : Core) (l : Line) (sec : Nat) : List Host.Cell :=
  let now := s.history.length
  (List.range 16).map (fun i =>
    let a := sec * 16 + i
    let held : Byte :=
      if l.zero.contains sec then 0
      else asOf s a (now - (match k.reverted.find? (fun r => r.1 = a) with | some r => r.2 | none => look now sec l.fills))
    (a, look held a l.cells))

/-- Publish one sector of a line (R97). -/
def publishSector (s : State) (c : Nat) (l : Line) (sec : Nat) : State :=
  publishCells s (sectorCells s (s.core c) l sec) l.leaf (some c) none

/-- Publish one line as PHASE.REL.dev of it alone would (R98, R108), clearing its tag (R66). -/
def publishLine (s : State) (c ln : Nat) : State :=
  match (s.core c).lines.find? (fun l => l.line = ln) with
  | none => s
  | some l =>
    let s1 := l.fills.foldl (fun s f => publishSector s c l f.1) s
    s1.modCore c (fun q => { q with lines := q.lines.filter (fun l => l.line != ln) })

/-- Publish every line of the core, oldest first. -/
def publishLines (s : State) (c : Nat) : State :=
  (s.core c).lines.foldl (fun s l => publishLine s c l.line) s

/-- Publication scopes (R101). -/
inductive Scope where
  | cl | dev | sys
  deriving DecidableEq, Repr

/-- A byte as the host sees it once core c's stores have reached it: the last of them, and those of other cores that came later still to come (R112). -/
def hostSees (c : Nat) (e : Byte × List (Nat × Byte)) : Byte × List (Nat × Byte) :=
  e.2.foldl (fun y x => if x.1 = c then (x.2, []) else (y.1, y.2 ++ [x])) (e.1, [])

/-- What core c has published to host memory is written there and acknowledged (R101, R112). -/
def reachHost (s : State) (c : Nat) : State :=
  { s with hostLag := (s.hostLag.map (fun x => (x.1, hostSees c x.2))).filter (fun x => !x.2.2.isEmpty) }

/-- The side-log entries of a core that a publish waits for are replayed or discarded (R398). -/
def logDone (k : Core) (bound : Nat) : Bool := k.sideLog.all (fun e => decide (bound ≤ e.id))

/-- The peer-window stores a .sys publish waits for are acknowledged (R101). -/
def peersDone (k : Core) (bound : Nat) : Bool := k.peerOut.all (fun e => decide (bound ≤ e.1))

/-- The instruction stores to memory, or is a tagged-word operation: what a publish waits for (R101). -/
def storing : Instr → Bool
  | .stN8 _ _ _ => true
  | .stN16 _ _ _ => true
  | .stN32 _ _ _ => true
  | .stD64 _ _ _ => true
  | .stx _ _ _ => true
  | .amo32 _ _ _ _ _ => true
  | .amo64 _ _ _ _ _ => true
  | .cas _ _ _ _ _ => true
  | .red32 _ _ _ _ => true
  | .red64 _ _ _ _ => true
  | .fred _ _ _ _ => true
  | .ldfull _ _ => true
  | .ldtake _ _ => true
  | .stfill _ _ => true
  | .stforce _ _ => true
  | .tagrd _ _ => true
  | .vst _ _ _ _ => true
  | .vsts _ _ _ _ _ => true
  | .vscat _ _ _ _ _ => true
  | .vstl _ _ _ _ => true
  | .suspend _ => true
  | .wake _ _ _ => true
  | .rqdeq _ _ _ => true
  | .closave _ _ _ => true
  | _ => false

/-- A publish of the scope waits for a store to the place (R101): local windows at every scope, global memory from .dev on, peers at .sys. -/
def Scope.covers (scope : Scope) : Place → Bool
  | .sram _ => true
  | .peer _ _ => scope = .sys
  | _ => scope != .cl

/-- The slot has issued a store before place n of its core's issue order, which is held at its core and not yet performed, and for which a publish of the scope
waits (R93, R102): a checked access; one whose walk the cap holds back (R416); or the output of an MSTORE or a KSEL, which are local-window stores (R270, R280). -/
def storeHeld (t : Slot) (n : Nat) (scope : Scope) : Bool :=
  match t.issued with
  | none => false
  | some x =>
    decide (x.2 < n) &&
    (match x.1 with
      | .mstore _ _ _ _ => t.wait = some .matrix
      | .ksel _ _ _ => t.wait = some .keyUnit
      | i => storing i &&
        (match t.checked with
          | some ps => ps.any scope.covers
          | none => t.wait = some .cap && scope != .cl))

/-- Some slot of core `c` holds such a store; with `log` one that waits for room in the side log, else another. -/
def storesHeld (s : State) (c n : Nat) (scope : Scope) (log : Bool) : Bool :=
  (slotsOf c).any (fun g => (decide ((s.slot g).wait = some .sideLog) == log) && storeHeld (s.slot g) n scope)

/-- `publish(scope)` by the executing slot (R102): it waits for the core's earlier stores that are held and not yet performed, then publishes the lines, and waits
for its core's side-log entries made before it (R398), a .sys one also for the peer-window stores made before it. Earlier stores still held count at every scope
that awaits their space, cacheable ones from .dev on, and what they log or send is awaited with the rest, DEDUCED, log 47. A tagged-word operation that its slice
has deferred, or answered with a NACK so that its core sends it again after a backoff, counts as acknowledged, DEDUCED, log 47. A slot that is being preempted or is to
end, and has stayed for the first part, goes no further than the second (R104). -/
def publish (s : State) (scope : Scope) : Res Unit :=
  let n := issueOrder s
  if storesHeld s s.curCore n scope false then waitHere s .stores
  else
    let s1 := match scope with
      | .cl => s
      | .dev => publishLines s s.curCore
      | .sys => reachHost (publishLines s s.curCore) s.curCore
    let logs := scope != .cl && storesHeld s s.curCore n scope true
    let bound := s.mine.awaits.getD s.nextId
    let leaving := s.mine.wait = some .stores && (isVictim s s.me || slotDoomed s s.me)
    if !leaving && !logs && (scope = .cl || logDone s1.here bound) && (scope != .sys || peersDone s1.here bound) then .go () s1
    else waitHere (s1.modMe (fun t => { t with awaits := if logs then none else some bound })) .publish

/-- `refresh(scope)` by core `c` (R102): from now on its loads return nothing older. Sectors without unpublished stores leave the L1 and the pool, but in
lines held coherently, for atomics or armed (R100). -/
def refreshCore (s : State) (c : Nat) : State :=
  let k := s.core c
  let keep := fun ln => heldHere s c ln || k.lines.any (fun l => l.line = ln)
  let s1 := s.setCore c { k with refresh := s.history.length, seen := [], reverted := [], l1 := k.l1.filter keep }
  if (s.tile (tileOf c)).pool.isEmpty then s1
  else s1.modTile (tileOf c) (fun t => { t with pool := t.pool.filter (fun x => x.1 != c || keep x.2) })

def refresh (s : State) (scope : Scope) : State :=
  match scope with
  | .cl => s
  | _ => refreshCore s s.curCore

/-! The L1 and the tile victim pool (R78, R79, R98). The spec names no sets or ways: a line leaves only when there is no room for another, DEDUCED,
log 6. -/

/-- A core gives 32 KiB of its L1 to its tile's pool (R79). -/
def poolShare (s : State) (c : Nat) : Bool := (s.tile (tileOf c)).lmgroup && decide ((s.core c).lmsplit.toNat ≤ 6)

/-- Lines of a core's private L1. -/
def l1Lines (s : State) (c : Nat) : Nat := (8 - (s.core c).lmsplit.toNat - b2n (poolShare s c)) * 256

/-- Lines of a tile's pool. -/
def poolLines (s : State) (t : Nat) : Nat := ((tileCores t).filter (poolShare s)).length * 256

/-- One of some lines, at the device's choice. -/
def pickLine {α : Type} (s : State) (l : List α) : Option α × State :=
  match l with
  | [] => (none, s)
  | [x] => (some x, s)
  | l => let (n, s1) := s.fresh; (l[Config.earlyLine n % l.length]?, s1)

/-- A line leaves its core's L1 for the pool, if the tile has one with a place or makes one by letting another line go; a line that leaves both is
published if it holds unpublished stores (R79, R98). -/
def leaveL1 (s : State) (c ln : Nat) : State :=
  let t := tileOf c
  if !(s.tile t).lmgroup || poolLines s t = 0 then publishLine s c ln
  else
    let s1 :=
      if (s.tile t).pool.length < poolLines s t then s
      else
        match pickLine s (s.tile t).pool with
        | (some x, s1) => publishLine (s1.modTile t (fun k => { k with pool := k.pool.filter (· != x) })) x.1 x.2
        | (none, s1) => s1
    s1.modTile t (fun k => { k with pool := k.pool ++ [(c, ln)] })

/-- A line enters the L1 of core `c`, from its pool lines or from its home; a full L1 first lets another go, not one held coherently while there is another
(R98, R108). -/
def bringLine (s : State) (c ln : Nat) : State :=
  let k := s.core c
  if k.l1.contains ln then s
  else
    let s1 := if (s.tile (tileOf c)).pool.isEmpty then s
      else s.modTile (tileOf c) (fun t => { t with pool := t.pool.filter (· != (c, ln)) })
    let s2 :=
      if k.l1.length < l1Lines s c then s1
      else
        let loose := k.l1.filter (fun x => !heldHere s c x)
        match pickLine s1 (if loose.isEmpty then k.l1 else loose) with
        | (some x, s2) => leaveL1 (s2.modCore c (fun q => { q with
            l1 := q.l1.filter (· != x)
            coherent := q.coherent.filter (· != x)
            seen := if q.coherent.contains x then noteBytes q.seen (lineBytes x) s.history.length else q.seen })) c x
        | (none, s2) => s2
    s2.modCore c (fun q => { q with l1 := q.l1 ++ [ln] })

/-! Stores. -/

/-- The line after a store of `cells` under a tag (R66, R97): `fill` is the point a sector first stored in is filled at, `bad` that the fill met an
uncorrectable error (R187). -/
def storeInto (l : Line) (cells : List Host.Cell) (rtag sec fill : Nat) (bad : Bool) : Line :=
  let old := l.fills.any (fun f => f.1 = sec)
  { l with
    tag := if l.tag = .one rtag then l.tag else .mixed
    cells := cells.foldl (fun m c => put c.1 c.2 m) l.cells
    fills := if old then l.fills else put sec fill l.fills
    zero := if old || !bad then l.zero else l.zero ++ [sec] }

/-- The fill of a sector meets an uncorrectable error, in whichever of its bytes (R187). -/
def fillBad (s : State) (sec : Nat) : Bool := (List.range 16).any (fun i => s.bad.contains (16 * sec + i))

/-- The point that a sector core `c` first stores in is filled at: now for a line held coherently, any down to what the core has seen (R97, R100). -/
def fillPoint (s : State) (c sec : Nat) : Nat × State :=
  if heldHere s c (lineNo (16 * sec)) then (s.history.length, s) else drawPoint s (seenBound (s.core c) (16 * sec) 16)

/-- A full core publishes its oldest line with unpublished sectors (R98). -/
def makeRoom (s : State) (c : Nat) : State :=
  if 256 ≤ (s.core c).lines.length then (match (s.core c).lines.head? with | some l => publishLine s c l.line | none => s) else s

/-- A cacheable store of at most one sector by core `c` under a tag (R66, R97, R98, R108): its line is brought in, a 257th line with unpublished sectors
publishes the oldest first, and a line held for atomics goes home. -/
def snapStore (s : State) (c rtag a : Nat) (bs : List Byte) (ext : Word) : State :=
  let ln := lineNo a
  let sec := sectorNo a
  let cells := cellsAt a bs
  let s0 := bringLine s c ln
  let k := s0.core c
  match k.lines.find? (fun l => l.line = ln) with
  | some l =>
    let (fill, s1) := if l.fills.any (fun f => f.1 = sec) then (0, s0) else fillPoint s0 c sec
    s1.modCore c (fun q => { q with
      lines := q.lines.map (fun l => if l.line = ln then storeInto l cells rtag sec fill (fillBad s sec) else l) })
  | none =>
    let (fill, s2) := fillPoint (makeRoom s0 c) c sec
    s2.modCore c (fun q => { q with
      lines := q.lines ++
        [storeInto { line := ln, tag := .one rtag, cells := [], fills := [], leaf := ext } cells rtag sec fill (fillBad s sec)]
      seen := if q.coherent.contains ln then noteBytes q.seen (lineBytes ln) s2.history.length else q.seen
      coherent := q.coherent.filter (· != ln) })

/-- What the annulment point of request `r` does to a core's unpublished lines (R66): its own are discarded, and their bytes read as the snapshot holds
them, at the last refresh or the last value seen (R113); MIXED ones are published. -/
def annulLines (s : State) (c r : Nat) : State :=
  let mine := (s.core c).lines.filter (fun l => l.tag = .one r)
  let mixed := (s.core c).lines.filter (fun l => l.tag = .mixed)
  let s1 := s.modCore c (fun q => { q with
    lines := q.lines.filter (fun l => l.tag != .one r)
    reverted := (mine.flatMap (fun l => l.cells.map (fun x => x.1))).foldl (fun m a =>
      if m.any (fun x => x.1 = a) then m else put a (seenBound q a 1) m) q.reverted })
  mixed.foldl (fun s l => publishLine s c l.line) s1

/-- Before an atomic: the line's unpublished sectors are published, and the line is brought in and held exclusively (R108). -/
def obtainLine (s : State) (c a : Nat) : State :=
  let ln := lineNo a
  let s1 := recallLine (bringLine (publishLine s c ln) c ln) ln (some c)
  s1.modCore c (fun q => { q with
    coherent := if q.coherent.contains ln then q.coherent else q.coherent ++ [ln]
    reverted := q.reverted.filter (fun r => lineNo r.1 != ln) })

end Sys2Proof.Machine
end

