-- ==== Sys2Proof/Machine/Translate.lean ====
section
/-! DEFINITION. Translation: the table walk, the TLBs, permissions, accessed and dirty bits (R387-R396). -/

namespace Sys2Proof.Machine

/-- What an access is, for permissions (R392), fault kinds (R400) and the spaces it may reach (R87): `summary` is KSRESET's (R277), `record` KSEL's reads of records
as published memory (R280). -/
inductive Access where
  | load | store | atomic | fetch | tagLoad | tagStore | monarm | vload | vstore | engineIn | engineOut | summary | record
  deriving DecidableEq, Repr

/-- How a walk ends (R391, R399): a leaf with its entry's address, the group's first entry, its summary word and page; a non-resident
leaf; or a fault of a level and reason. -/
inductive Walk where
  | leaf (first : Nat) (leaf ext : Word) (base log2 : Nat)
  | absent (entry : Nat) (leaf ext : Word) (base : Nat)
  | fault (level reason : Nat)
  deriving DecidableEq, Repr

/-- Eight bytes of physical memory. -/
def read64 (m : Memory) (pa : Nat) : Word := wd (leNat (m.readN pa 8))

/-- The physical address is in a populated range (R82). -/
def populated (pa : Nat) : Bool := pa / 2 ^ 39 = 0 || pa / 2 ^ 51 = 1

/-- Page size of a leaf as a power of two (R390). -/
def leafLog2 (e : Word) : Nat :=
  match fld e 8 2 with
  | 0 => 16
  | 1 => 21
  | _ => 30

def leafRes (e : Word) : Bool := bit e 15
def leafSys (e : Word) : Bool := bit e 14
def leafSb (e : Word) : Bool := bit e 13
def leafSm (e : Word) : Bool := bit e 12
def leafTg (e : Word) : Bool := bit e 11
def leafUc (e : Word) : Bool := bit e 10
def leafD (e : Word) : Bool := bit e 7
def leafA (e : Word) : Bool := bit e 6
def leafU (e : Word) : Bool := bit e 5
def leafX (e : Word) : Bool := bit e 4
def leafW (e : Word) : Bool := bit e 3
def leafR (e : Word) : Bool := bit e 2
/-- Physical base of a leaf's frame (R390). -/
def leafPa (e : Word) : Nat := fld e 16 36 * 65536

/-- A leaf entry is malformed at a level, under an extended table or not (R391). -/
def leafBad (e : Word) (lvl : Nat) (xt : Bool) : Bool :=
  let sz := fld e 8 2
  let pa := leafPa e
  let away := leafSb e && !leafRes e
  fld e 52 4 != 0 || decide (2 ≤ lvl) || sz = 3 || (lvl = 0 && sz = 2) || (lvl = 1 && sz != 2)
    || (!away && pa % 2 ^ leafLog2 e != 0)
    || (!away && (leafSys e != decide (pa / 2 ^ 51 = 1) || !populated pa))
    || (leafTg e && leafSm e) || (leafTg e && leafSys e) || (leafSm e && leafSys e) || (leafSb e && leafSys e)
    || (leafSm e && (!xt || sz != 0)) || (leafSb e && sz != 0)

/-- A table entry is malformed (R389, R391), the table it names outside the populated ranges included. -/
def tableBad (e : Word) (lvl : Nat) : Bool :=
  fld e 52 12 != 0 || fld e 3 10 != 0 || lvl = 0 || (bit e 2 && lvl != 1) || (bit e 2 && bit e 13) || !populated (fld e 13 39 * 8192)

/-- A member's leaf with A and D as its group's first entry keeps them (R390). -/
def withAD (e first : Word) : Word := (e &&& ~~~0xC0#64) ||| (first &&& 0xC0#64)

/-- What one entry of a walk says: a leaf or fault, or the next table with whether it is extended (R389-R391). A summarised page's summary word
goes with bit 63 set, a bit the word leaves zero, so that it is never 0. -/
def walkStep (m : Memory) (va table : Nat) (xt : Bool) (lvl : Nat) : Walk ⊕ (Nat × Bool) :=
  let idx := va / 2 ^ (16 + 10 * lvl) % 1024
  let e := read64 m (table + 8 * idx)
  if !bit e 0 then .inl (.fault lvl 1)
  else if bit e 1 then
    if leafBad e lvl xt then .inl (.fault lvl 2)
    else
      let ext := if xt && leafSm e then read64 m (table + 8192 + 8 * idx) ||| wd (2 ^ 63) else 0
      let lg := leafLog2 e
      let group := if lg = 21 then idx / 32 * 32 else if lg = 30 then idx / 16 * 16 else idx
      if leafSb e && !leafRes e then .inl (.absent (table + 8 * idx) e ext (va / 65536 * 65536))
      else .inl (.leaf (table + 8 * group) (withAD e (read64 m (table + 8 * group))) ext (va / 2 ^ lg * 2 ^ lg) lg)
  else if tableBad e lvl then .inl (.fault lvl 2)
  else .inr (fld e 13 39 * 8192, bit e 2)

/-- The walk from a table at a level (R388-R391). -/
def walkFrom (m : Memory) (va : Nat) : Nat → Nat → Bool → Walk
  | 0, table, xt =>
    match walkStep m va table xt 0 with
    | .inl w => w
    | .inr _ => .fault 0 2
  | l + 1, table, xt =>
    match walkStep m va table xt (l + 1) with
    | .inl w => w
    | .inr (t, x) => walkFrom m va l t x

/-- The walk of a partition's tables (R387, R388). -/
def walk (s : State) (part va : Nat) : Walk :=
  let b := s.reg (ptbaseAddr part)
  if bit b 0 then walkFrom s.mem va 3 (fld b 13 39 * 8192) false else .fault 3 1

/-- A TLB entry serves an address (R393). -/
def TlbEntry.hits (t : TlbEntry) (asid va : Nat) : Bool := t.asid = asid && va / 2 ^ t.log2 * 2 ^ t.log2 = t.base

/-- A list with an entry added; a full one loses an entry of the device's choice (R393). -/
def tlbAdd (cap : Nat) (n : Nat) (l : List TlbEntry) (t : TlbEntry) : List TlbEntry :=
  if l.length < cap then l ++ [t] else eraseAt l (Config.pick n % l.length) ++ [t]

/-- A walker sets bits in a leaf entry by an atomic OR at its home (R395). -/
def orEntry (s : State) (pa : Nat) (v : Word) : State :=
  publishCells s (cellsAt pa (leBytes (read64 s.mem pa ||| v).toNat 8)) 0 none none

/-- Permission of an access by a leaf (R392). -/
def permits (e : Word) (k : Access) (user : Bool) : Bool :=
  (match k with
    | .load => leafR e
    | .vload => leafR e
    | .tagLoad => leafR e
    | .monarm => leafR e
    | .engineIn => leafR e
    | .record => leafR e
    | .store => leafW e
    | .vstore => leafW e
    | .tagStore => leafW e
    | .engineOut => leafW e
    | .summary => leafW e
    | .atomic => leafR e && leafW e
    | .fetch => leafX e) && (!user || leafU e)

/-- The access writes. -/
def Access.writes : Access → Bool
  | .store => true
  | .atomic => true
  | .tagStore => true
  | .vstore => true
  | .engineOut => true
  | .summary => true
  | _ => false

/-- A cached translation of core `c`: its own TLB, then its cluster's (R393). -/
def tlbFind (s : State) (c va : Nat) : Option TlbEntry :=
  let k := s.core c
  match k.tlb.find? (fun t => t.hits k.asid.toNat va) with
  | some t => some t
  | none => (s.cluster (clusterOf c)).tlb.find? (fun t => t.hits k.asid.toNat va)

/-- Install a leaf in the core's and its cluster's TLB, setting A first when it is clear (R393, R395). -/
def tlbInstall (s : State) (c : Nat) (first : Nat) (leaf ext : Word) (base log2 : Nat) : State :=
  let s := if leafA leaf then s else orEntry s first 0x40
  let k := s.core c
  let t : TlbEntry := { asid := k.asid.toNat, base := base, log2 := log2, pa := leafPa leaf, leaf := leaf, ext := ext, logged := leafD leaf }
  let (n, s) := if 64 ≤ k.tlb.length then s.fresh else (0, s)
  let (n', s) := if 4096 ≤ (s.cluster (clusterOf c)).tlb.length then s.fresh else (0, s)
  (s.modCore c (fun q => { q with tlb := tlbAdd 64 n q.tlb t })).modCluster (clusterOf c)
    (fun q => { q with tlb := tlbAdd 4096 n' q.tlb t })

/-- Translate a virtual address for core `c` (R387-R393). A refused translation is not cached. -/
def translate (s : State) (c va : Nat) (k : Access) (user : Bool) : Trans × State :=
  match tlbFind s c va with
  | some t =>
    if permits t.leaf k user then (.ok (t.pa + va % 2 ^ t.log2) t.leaf t.ext, s) else (.perm, s)
  | none =>
    match walk s (s.partOf c) va with
    | .fault l r => (.fault l r, s)
    | .absent e leaf ext _ => if permits leaf k user then (.absent e leaf ext, s) else (.perm, s)
    | .leaf first leaf ext base lg =>
      if permits leaf k user then
        (.ok (leafPa leaf + va % 2 ^ lg) leaf ext, tlbInstall s c first leaf ext base lg)
      else (.perm, s)

/-- Translate a host address by ATS (R419): a page in the 1,024-entry cache is granted; of another the host is asked, and what it answers is its own,
free, log 12. A granted page enters the cache, for one of the device's choice if it is full. The result says whether it translated. -/
def atsTranslate (s : State) (pa : Nat) : Bool × State :=
  let page := pa % 2 ^ 51 / 4096
  if pa / 2 ^ 51 % 2 = 0 || s.atc.contains page then (true, s)
  else
    let (n, s1) := s.fresh
    if Config.hostGrants n then
      if s1.atc.length < 1024 then (true, { s1 with atc := s1.atc ++ [page] })
      else
        let (k, s2) := s1.fresh
        (true, { s2 with atc := eraseAt s2.atc (Config.pick k % s2.atc.length) ++ [page] })
    else (false, s1)

/-- The page's first store through this translation is still to be logged (R395). `leaf` is the leaf the access was translated by, for a translation
that another has replaced since. -/
def needsDirty (s : State) (c va : Nat) (leaf : Word) : Bool :=
  match tlbFind s c va with
  | some t => !t.logged
  | none => !leafD leaf && !((s.core c).dirtyLog.contains ((s.core c).asid.toNat, va / 65536, s.partOf c))

/-- A core's dirty log is full (R395). -/
def dirtyFull (s : State) (c : Nat) : Bool := decide (32 ≤ (s.core c).dirtyLog.length)

/-- Mark the installed translation's store as logged and enter it in the core's dirty log (R395). At 16 entries the merge agent is due. -/
def logDirty (s : State) (c va : Nat) : State :=
  let k := s.core c
  let mark := fun (t : TlbEntry) => if t.hits k.asid.toNat va then { t with logged := true } else t
  let s1 := s.modCore c (fun q => { q with
    tlb := q.tlb.map mark, dirtyLog := q.dirtyLog ++ [(q.asid.toNat, va / 65536, q.part.toNat)] })
  let s2 := s1.modCluster (clusterOf c) (fun q => { q with tlb := q.tlb.map mark })
  if k.dirtyLog.length + 1 = 16 then s2.post (.dirtyLogMerge c) else s2

/-- The merge agent sets D in each logged page's leaf entry, its group's first (R395). -/
def mergeDirty (s : State) (c : Nat) : State :=
  let s1 := (s.core c).dirtyLog.foldl (fun s e =>
    match walk s e.2.2 (e.2.1 * 65536) with
    | .leaf first _ _ _ _ => orEntry s first 0x80
    | _ => s) s
  s1.modCore c (fun q => { q with dirtyLog := [] })

end Sys2Proof.Machine
end

