-- ==== Sys2Proof/Machine/Faults.lean ====
section
/-! DEFINITION. The fault buffer, the side log and Cellar fault service (R397-R403). -/

namespace Sys2Proof.Machine

/-- The fault kind of an access (R400 KIND). -/
def faultKind : Access → Nat
  | .load => 0
  | .vload => 0
  | .monarm => 0
  | .engineIn => 0
  | .record => 0
  | .store => 1
  | .vstore => 1
  | .engineOut => 1
  | .summary => 1
  | .atomic => 2
  | .fetch => 3
  | .tagLoad => 4
  | .tagStore => 4

/-- The least index not used by an entry. -/
def freeIndex (l : List FaultEntry) : Nat → Nat → Nat
  | 0, i => i
  | f + 1, i => if l.any (fun e => e.index = i) then freeIndex l f (i + 1) else i

/-- MSI-X vector raised by Valsis (R442). -/
def raiseVector (s : State) (v : Nat) : State := { s with vectors := s.vectors ++ [v] }

/-- A fault-buffer entry is of a partition's page (R400). -/
def FaultEntry.covers (e : FaultEntry) (p va : Nat) : Bool := e.part = p && e.va / 65536 = va / 65536

/-- A fault of the partition's page could take no entry of the die's buffer now (R401). -/
def bufferFull (s : State) (d p va : Nat) : Bool :=
  let b := s.faultBuf d
  decide (1024 ≤ b.entries.length) && !(b.entries.any (fun e => e.covers p va))

/-- A context's fault of a page is held at its core no longer: it has an entry, or needs none (R401). -/
def dropRecord (s : State) (c ctx va : Nat) : State :=
  let b := s.faultBuf (dieOf c)
  let mine := fun (x : FaultEntry) => x.core = c && x.ctx = ctx && x.covers (s.partOf c) va
  if b.held.any mine then s.setFaultBuf (dieOf c) { b with held := b.held.filter (fun x => !mine x) } else s

/-- A fault that firmware must service (R400): it shares an entry of its partition and page, takes a new one, or is held at its core, once for each
context (R401). -/
def raiseFaultFor (s : State) (c p va kind rtag lvl reason ctx : Nat) : State :=
  let d := dieOf c
  let b := s.faultBuf d
  let e : FaultEntry := { index := freeIndex b.entries 1024 0, level := lvl, reason := reason, rtag := rtag, core := c, kind := kind,
                          asid := s.asidOf p, part := p, va := va, ctx := ctx }
  if b.entries.any (fun e => e.covers p va) then dropRecord s c ctx va
  else if b.entries.length < 1024 then s.setFaultBuf d { b with entries := b.entries ++ [e] }
  else if b.held.any (fun x => x.covers p va && x.ctx = ctx && x.core = c) then s
  else
    let s1 := s.setFaultBuf d { b with held := b.held ++ [e], ovf := true }
    if b.ovf then s1 else raiseVector s1 2

/-- A fault of core c's own. -/
def raiseFault (s : State) (c va kind rtag lvl reason ctx : Nat) : State := raiseFaultFor s c (s.partOf c) va kind rtag lvl reason ctx

/-- The faults held at a core for a context are removed with it (R403). -/
def dropHeld (s : State) (c ctx : Nat) : State :=
  let b := s.faultBuf (dieOf c)
  if b.held.any (fun x => x.core = c && x.ctx = ctx) then
    s.setFaultBuf (dieOf c) { b with held := b.held.filter (fun x => !(x.core = c && x.ctx = ctx)) }
  else s

/-- The FFPOOL ring's fields (R387). -/
def poolSize (s : State) (d p : Nat) : Nat := fld (s.reg (ffpoolAddr d p)) 52 12
def poolBase (s : State) (d p : Nat) : Nat := fld (s.reg (ffpoolAddr d p)) 13 39 * 8192
def poolHead (s : State) (d p : Nat) : Nat := (s.reg (ffheadAddr d p)).toNat
def poolTail (s : State) (d p : Nat) : Nat := (s.reg (fftailAddr d p)).toNat

/-- The frame at the pool's head, taken from it (R399 step 1). -/
def takeFrame (s : State) (d p : Nat) : Option (Nat × State) :=
  let h := poolHead s d p
  if poolSize s d p = 0 || h = poolTail s d p then none
  else
    let w := read64 s.mem (poolBase s d p + 8 * h)
    some (fld w 16 36 * 65536, s.setReg (ffheadAddr d p) (wd ((h + 1) % poolSize s d p)))

/-- A frame word put back at the pool's head, which moves back by one (R399 step 3). -/
def putFrame (s : State) (d p f : Nat) : State :=
  let n := poolSize s d p
  let h := (poolHead s d p + n - 1) % (if n = 0 then 1 else n)
  let s1 := if n = 0 then s else publishCells s (cellsAt (poolBase s d p + 8 * h) (leBytes f 8)) 0 none none
  s1.setReg (ffheadAddr d p) (wd h)

/-- Namespace index and first block of a non-resident leaf (R399). -/
def leafNamespace (e : Word) : Nat := fld e 44 8
def leafBlock (e : Word) : Nat := fld e 16 28 * 16

/-- The addresses at which the access that a slot, or a saved context, is held on has faulted: the one it waits on first (R397, R402). -/
def Slot.faultVas (t : Slot) : List Nat := match t.wait with | some (.fault va) => va :: t.also | _ => []
def Saved.faultVas (x : Saved) : List Nat := match x.fault with | some va => va :: x.also | none => []

/-- Addresses of a page. -/
def onPage (page : Nat) (vas : List Nat) : List Nat := vas.filter (fun va => decide (va / 65536 = page))

/-- A failure joins one a context has pending: of two with one cause, the lower address; of two with different causes, the earlier failure (R398, log 13). -/
def joinFailure (cause : Cause) (va : Nat) (old : Option (Nat × Word)) : Option (Nat × Word) :=
  match old with
  | none => some (cause.code, wd va)
  | some (k, a) => if k = cause.code && decide (va < a.toNat) then some (k, wd va) else some (k, a)

/-- The cause of a failure that a context has pending. -/
def failureCause (code : Nat) : Cause := if code = 0x0A then .storage else if code = 0x09 then .perm else if code = 0x05 then .attrmix else .xlate

/-- What a context has pending once a page fails: the addresses `gone` of its discarded entries join what it had; with none, the address `held` of its held access
does, which traps (R398, R402). One whose access is held there and whose entries are discarded traps once, for the entries: DEDUCED, log 13. -/
def pageFailure (c : Cause) (held gone : List Nat) (old : Option (Nat × Word)) : Option (Nat × Word) :=
  (if gone.isEmpty then held.take 1 else gone).foldl (fun o va => joinFailure c va o) old

/-- The addresses of a context's entries that the page's failure discards. -/
def goneOf (k : Core) (ctx page : Nat) : List Nat := onPage page ((k.sideLog.filter (fun e => e.ctx = ctx)).map (fun e => e.va))

/-- A page fails for a saved context, which traps when it is resumed. -/
def failSaved (c : Cause) (page : Nat) (gone : List Nat) (x : Saved) : Saved :=
  let held := onPage page x.faultVas
  { x with fault := if held.isEmpty then x.fault else none, failed := pageFailure c held gone x.failed }

/-- A page fails on one core: its entries of the page are discarded, its saved contexts will trap. -/
def failCore (c : Cause) (page : Nat) (k : Core) : Core :=
  let here := fun (e : LogEntry) => decide (e.va / 65536 = page)
  { k with
    sideLog := k.sideLog.filter (fun e => !here e)
    acqs := k.acqs.filter (fun a => !((k.sideLog.filter here).any (fun e => e.id = a.num)))
    saved := k.saved.map (fun x => failSaved c page (goneOf k x.num page) x) }

/-- A page fails for slot g: its held access traps now; for discarded entries alone it traps at its next boundary. -/
def failSlot (s : State) (g : Nat) (c : Cause) (page : Nat) (gone : List Nat) : State :=
  let t := s.slot g
  let held := onPage page t.faultVas
  let f := pageFailure c held gone t.logFailed
  match f with
  | some (code, a) =>
    if held.isEmpty then s.modSlot g (fun t => { t with logFailed := f })
    else
      let s1 := t.faultVas.foldl (fun s va => dropRecord s (coreOf g) t.ctx va) (s.modSlot g (fun t => { t with logFailed := none }))
      trapAt s1 g (failureCause code) t.pc a
  | none => s

/-- A page failed on the cores `sel` picks (R398, R399, R402): its held accesses trap, its suspended contexts will, its side-log entries are discarded, and
the contexts that made them trap at their next boundary with the lowest of those addresses, each once. -/
def failPageOn (s : State) (sel : Nat → Bool) (p page : Nat) (c : Cause) : State :=
  let mine := fun (k : Nat) => sel k && s.partOf k = p
  let s1 := { s with cores := s.cores.map (fun k => if mine k.1 then (k.1, failCore c page k.2) else k) }
  s.slots.foldl (fun u t =>
    if mine (coreOf t.1) && t.2.occupied then failSlot u t.1 c page (goneOf (s.core (coreOf t.1)) t.2.ctx page) else u) s1

/-- A service's own fault of an empty pool is held at its core no longer (R401). -/
def dropNoFrame (s : State) (v : Service) : State :=
  let b := s.faultBuf (dieOf v.core)
  let mine := fun (x : FaultEntry) => x.kind = 5 && x.covers v.part v.va
  if b.held.any mine then s.setFaultBuf (dieOf v.core) { b with held := b.held.filter (fun x => !mine x) } else s

/-- The services `sel` picks end, and the faults held for them with them (R399, R401). -/
def endServices (s : State) (sel : Service → Bool) : State :=
  (s.services.filter sel).foldl dropNoFrame { s with services := s.services.filter (fun v => !sel v) }

/-- A page failed for its whole partition: its service ends too (R399). -/
def failPage (s : State) (p page : Nat) (c : Cause) : State :=
  endServices (failPageOn s (fun _ => true) p page c) (fun v => v.part = p && v.page = page)

/-- The NSASSIGN word of a non-resident leaf's namespace (R399). -/
def leafAssign (s : State) (p : Nat) (leaf : Word) : Word := s.reg (nsassignAddr p (leafNamespace leaf))

/-- The namespace can serve the Cellar (R429), and its capacity reaches over the page's blocks (R399). -/
def leafInRange (s : State) (p : Nat) (leaf : Word) : Bool :=
  let ns := leafAssign s p leaf
  match (s.drive (fld ns 32 3)).spaces.find? (fun n => n.nsid = fld ns 0 32) with
  | some n => n.format && decide (leafBlock leaf + 16 ≤ n.blocks)
  | none => true

/-- I/O commands a drive's queues hold: 16 queue pairs of 256 entries (R429). -/
def driveSlots : Nat := 16 * 256

/-- Pieces of a block command that are with its drive. -/
def outstanding (x : Cmd) : List Nat :=
  (List.range x.pieces.length).filter (fun k => !x.left.contains k && !x.wrote.any (fun w => w.1 = k))

/-- Commands outstanding at a drive (R429). -/
def driveLoad (s : State) (q : Nat) : Nat :=
  sumN ((s.cellars.filter (fun x => x.port = q && !x.ended)).map (fun x => (outstanding x).length)) +
    (s.services.filter (fun v => v.port = q && v.frame.isSome)).length

/-- The number by which a drive's completion names a piece. -/
def pieceId (id k : Nat) : Nat := id * 4096 + k

/-- Submit a service's read: it takes a frame, or the page goes to the fault buffer with NOFRAME (R399 step 1). A drive whose queues are full takes it
later (R429). -/
def submitService (s : State) (c : Nat) (v : Service) : State :=
  let keep := fun (s : State) (v : Service) => { s with services := (s.services.filter (fun x => x.id != v.id)) ++ [v] }
  if driveSlots ≤ driveLoad s v.port then keep s { v with frame := none }
  else
    match takeFrame s v.die v.part with
    | some (f, s1) =>
      let ns := leafAssign s1 v.part v.leaf
      let s2 := dropNoFrame (keep s1 { v with frame := some f, since := s1.time }) v
      { s2 with nvme := s2.nvme ++ [{ id := pieceId v.id 0, port := v.port, nsid := fld ns 0 32, write := false, first := leafBlock v.leaf, blocks := 16,
                                      data := [] }] }
    | none => raiseFaultFor (keep s { v with frame := none }) c v.part v.va 5 v.rtag 0 3 0

/-- A page's service cannot be: its namespace is not assigned to the partition, its blocks lie beyond it, or its drive is not ready (R399, R430). -/
def serviceBad (s : State) (p : Nat) (leaf : Word) : Bool :=
  let ns := leafAssign s p leaf
  !bit ns 63 || !leafInRange s p leaf || !(s.drive (fld ns 32 3)).ready

/-- A fault on a non-resident storage-backed page starts a service, or shares the partition's service of the page (R399). A namespace not
assigned to the partition, blocks beyond it, or a drive not ready, end it at once. -/
def startServiceFor (s : State) (c p va rtag entry : Nat) (leaf ext : Word) : State :=
  let page := va / 65536
  if s.services.any (fun v => v.part = p && v.page = page) then s
  else
    let port := fld (leafAssign s p leaf) 32 3
    if serviceBad s p leaf then failPage s p page .storage
    else
      let v : Service := { id := s.nextId, part := p, asid := s.asidOf p, die := dieOf c, page := page, leafPa := entry,
                           leaf := leaf, ext := ext, frame := none, port := port, rtag := rtag, core := c, va := va }
      submitService { s with nextId := s.nextId + 1, services := s.services ++ [v] } c v

/-- A service for a page of core c's own. -/
def startService (s : State) (c va rtag entry : Nat) (leaf ext : Word) : State := startServiceFor s c (s.partOf c) va rtag entry leaf ext

end Sys2Proof.Machine
end

