-- ==== Sys2Proof/Machine/Perform.lean ====
section
/-! DEFINITION. Where an access goes, the checks before it (R72-R90, R392), and performing its elements (R183, R195, R257). -/

namespace Sys2Proof.Machine

/-- The space an address selects (R72, R73). -/
inductive Space where
  | none
  | global
  | peer (p : Nat)
  | window (w : Nat)
  deriving DecidableEq, Repr

/-- The space of an address; a set bit a window requires zero leaves it in none (R72, R73). A vector element past bit 55 of a global address is so in none,
and traps NONCANON before R89's ATTRMIX is looked at: R90's order, DEDUCED, log 61. -/
def spaceOf (a : Word) : Space :=
  let hi := fld a 56 8
  if hi = 0 then .global
  else if 0x80 ≤ hi ∧ hi ≤ 0xBF then .peer (fld a 56 6)
  else if hi = 0xFF then
    match fld a 48 8 with
    | 0 => if fld a 18 30 = 0 then .window 0 else .none
    | 1 => if fld a 9 39 = 0 then .window 1 else .none
    | 2 => if fld a 18 25 = 0 then .window 2 else .none
    | 3 => if fld a 27 19 = 0 then .window 3 else .none
    | 4 => if fld a 16 32 = 0 then .window 4 else .none
    | _ => .none
  else .none

/-- The core a CSM address names, seen from core `c` (R73, R74). -/
def csmCore (c : Nat) (a : Word) : Nat := coreAt (clusterOf c) (fld a 43 5)

/-- Bytes a core exposes as CSM (R76). -/
def exposed (k : Core) : Nat := min k.lmshare.toNat k.lmsplit.toNat * 32768

/-- The exposed size of core `d` as core `c` knows it: its copy may hold the new one before a write of LMSHARE is complete (R77). What a write of LMSPLIT does to
min(SHARE, SPAD) every core knows at once: R77 tells only how a write of LMSHARE reaches the copies, DESIGN CHOICE, log 73. -/
def csmSize (s : State) (c d : Nat) : Nat :=
  match (s.core c).csmCopy.find? (fun x => x.1 = d) with
  | some x => x.2
  | none => exposed (s.core d)

/-- Bytes of die scratchpad on a die (R73, R76). -/
def dieScratchBytes (s : State) (d : Nat) : Nat := 128 * look 0 d s.dsplit * 131072

/-- The n bytes from an address lie within its window's current size (R73). -/
def sizeOk (s : State) (c : Nat) (a : Word) (n : Nat) : Bool :=
  match spaceOf a with
  | .window 0 => decide (fld a 0 18 + n ≤ (s.core c).lmsplit.toNat * 32768)
  | .window 1 => decide (fld a 0 9 + n ≤ 512)
  | .window 2 => decide (fld a 0 18 + n ≤ csmSize s c (csmCore c a))
  | .window 3 => decide (fld a 0 27 + n ≤ dieScratchBytes s (fld a 46 2))
  | .window 4 => decide (fld a 0 16 + n ≤ 65536)
  | _ => true

/-- The linear offset of a local address (R81). -/
def linearOffset (a : Word) : Nat :=
  match spaceOf a with
  | .window 0 => fld a 0 18
  | .window 1 => fld a 0 9
  | .window 2 => fld a 43 5 * 2 ^ 18 + fld a 0 18
  | .window 3 => fld a 46 2 * 2 ^ 27 + fld a 0 27
  | _ => 0

/-- A protection entry matches a window, allows a read or write, and covers a linear offset (R80, R81). -/
def lprotMatch (l : Word) (w : Nat) (rd wr : Bool) : Bool :=
  bit l 63 && (!rd || bit l 62) && (!wr || bit l 61) && fld l 58 3 = w
def lprotCovers (l : Word) (o : Nat) : Bool := decide (fld l 0 26 * 64 ≤ o ∧ o < fld l 26 26 * 64)

/-- The window number, if local. -/
def windowOf (a : Word) : Option Nat :=
  match spaceOf a with
  | .window w => some w
  | _ => none

/-- The protection check of one element (R81): none if allowed, else TRAPVAL. -/
def lprotFail (t : Slot) (e : Elem) (rd wr : Bool) : Option Word :=
  match windowOf e.a with
  | none => none
  | some w =>
    if w = 4 then none
    else
      let o := linearOffset e.a
      let ok := ([t.lprot0, t.lprot1, t.lprot2, t.lprot3]).filter (fun l => lprotMatch l w rd wr)
      let first := ok.filter (fun l => lprotCovers l o)
      if first.any (fun l => decide (o + e.n ≤ fld l 26 26 * 64)) then none
      else
        match leastBy (fun a b => decide (fld b 26 26 < fld a 26 26)) first with
        | some l => some (e.a + wd (fld l 26 26 * 64 - o))
        | none => some e.a

/-- The location of a local address (R73-R75). -/
def sramLoc (c g : Nat) (e : Elem) : Nat :=
  match spaceOf e.a with
  | .window 0 => locScratch c (fld e.a 0 18)
  | .window 1 => locLane g e.lane (fld e.a 0 9)
  | .window 2 => locScratch (csmCore c e.a) (fld e.a 0 18)
  | .window 3 => locDie (fld e.a 46 2) (fld e.a 0 27)
  | _ => locCloset c (fld e.a 0 16)

/-- The core has an L1 (R78). -/
def hasL1 (k : Core) : Bool := k.lmsplit.toNat < 8

/-- The page is held by the L1 under the phase rules: not uncached, not tagged (R84). -/
def cached (leaf : Word) : Bool := !leafUc leaf && !leafTg leaf

/-- A page's attributes accept the operation (R78, R87). -/
def leafAllows (k : Core) (acc : Access) (leaf : Word) : Bool :=
  (hasL1 k || !cached leaf || acc == .fetch || acc == .engineIn || acc == .engineOut || acc == .summary || acc == .record) &&
  (match acc with
    | .atomic => !leafSm leaf
    | .tagLoad => leafTg leaf
    | .tagStore => leafTg leaf
    | .vload => !leafTg leaf
    | .vstore => !leafTg leaf
    | _ => true)

/-- The space and attributes accept the operation (R78, R87). The attributes of a non-resident page are its leaf's; those of a page whose walk faults are
not known until it is mapped. -/
def opAllowed (k : Core) (acc : Access) (e : Elem) (p : Place) : Bool :=
  match p with
  | .global _ _ leaf _ => leafAllows k acc leaf
  | .logged _ (.absent _ leaf _) => leafAllows k acc leaf
  | .logged _ (.ok _ leaf _) => leafAllows k acc leaf
  | .logged _ _ => true
  | .peer _ _ => acc == .load || acc == .store || acc == .atomic || acc == .record
  | .sram _ =>
    match acc with
    | .load => windowOf e.a != some 1
    | .record => windowOf e.a != some 1
    | .store => windowOf e.a != some 1
    | .atomic => windowOf e.a != some 1
    | .vload => true
    | .vstore => true
    | _ => false

/-- The route to a peer is valid (R423). -/
def routeOk (s : State) (p : Nat) : Bool :=
  let r := s.reg (peerrouteAddr p)
  bit r 63 && decide (fld r 0 4 < 12)

/-! Performing one element. -/

/-- A byte of the element carries an uncorrectable error the core would read (R187): not one it has stored, nor one of a sector its stores have filled,
with zeros if the fill met the error. -/
def anyBad (s : State) (c a n : Nat) : Bool :=
  (List.range n).any (fun i => s.bad.contains (a + i) &&
    (match dirtyLine (s.core c) (a + i) with
      | some l => !(l.cells.any (fun x => x.1 = a + i)) && !(l.fills.any (fun f => f.1 = sectorNo (a + i)))
      | none => true))

/-- Read one element: its bytes and whether they carry an error (R99, R105, R106, R187). -/
def readPlace (s : State) (c : Nat) (p : Place) (n : Nat) : List Byte × Bool × State :=
  match p with
  | .global _ pa leaf _ =>
    if cached leaf then
      let (bs, s1) := snapLoad (bringLine s c (lineNo pa)) c pa n
      (bs, anyBad s c pa n, s1)
    else (s.mem.readN pa n, anyBad s c pa n, s)
  | .sram loc => (s.mem.readN loc n, anyBad s c loc n, s)
  | _ => (List.replicate n 0, false, s)

/-- The slot of core `c` that acts, as work to a peer names it: an engine's is 32,768 (R106). -/
def senderSlot (s : State) (c : Nat) : Nat := if s.curCore = c then s.me else 32768

/-- Work sent to a peer over its route under a partition (R106, R423). The request records the peer (R426); one that has already left LIVE sends its cancel
notice and drain marker behind its first work there (R61). -/
def sendWork (s : State) (p rtag part slot : Nat) (op : PeerOp) (addr : Word) (data : List Byte) (cmp : Word) : State :=
  let r := s.reg (peerrouteAddr p)
  let w : PeerWork := { port := fld r 0 4, dev := fld r 32 16, part := part, slot := slot, rtag := rtag,
                        instant := (s.instantOf rtag).toNat, cls := s.classOf rtag, op := op, addr := fld addr 0 56,
                        data := data, compare := cmp }
  let s1 : State := { s with outbox := s.outbox ++ [(p, w)] }
  let q := s1.req rtag
  if rtag = 0 || q.proxies.contains p then s1
  else
    let s2 := s1.setReq rtag { q with proxies := q.proxies ++ [p] }
    if s2.liveTag rtag then s2 else { s2 with notices := s2.notices ++ [(p, rtag, false), (p, rtag, true)] }

/-- Work of core `c`'s acting slot, or of an engine for the core, sent to a peer. -/
def sendPeer (s : State) (p rtag : Nat) (c : Nat) (op : PeerOp) (addr : Word) (data : List Byte) (cmp : Word) : State :=
  sendWork s p rtag (s.partOf c) (senderSlot s c) op addr data cmp

/-- A port's link has failed or was never up (R422, R436). -/
def portDown (s : State) (port : Nat) : Bool := !look true port s.ports

/-- A store or reduction of core c leaves for a peer: a publish at .sys waits for it (R102); over a link that is down it is lost and counted (R422). -/
def notePeer (s : State) (p c : Nat) : State :=
  let port := fld (s.reg (peerrouteAddr p)) 0 4
  if portDown s port then { s with dropped := s.dropped + 1, nextId := s.nextId + 1 }
  else { s.modCore c (fun k => { k with peerOut := k.peerOut ++ [(s.nextId, port)] }) with nextId := s.nextId + 1 }

/-- A first store of a page enters the core's dirty log (R395). -/
def markDirty (s : State) (c : Nat) (p : Place) : State :=
  match p with
  | .global va _ leaf _ => if needsDirty s c va leaf then logDirty s c va else s
  | _ => s

/-- CLOSAVE, and the end of a context, end the tie of its suspended copies (R304). -/
def untie (s : State) (c num : Nat) : State :=
  s.modCluster (clusterOf c) (fun k => { k with copies := k.copies.map (fun x => if x.ctx = num && x.core = c then { x with tie := false } else x) })

/-- A saved context as its Closet place describes it (R360): the header's parts, places and units, its grant, and the fields it is chosen by. None if the place is
no longer valid. -/
def storedContext (s : State) (c p : Nat) (x : Saved) : Option Saved :=
  let w := fun (o : Nat) => read64 s.mem (locCloset c (384 * p) + o)
  let h := w 0x178
  if !bit h 0 then none
  else
    some { x with
      instant := w 0x108, cls := fld (w 0x100) 18 2, rtag := fld (w 0x100) 0 18
      lanes := if bit h 5 then fld (w 0x120) 32 8 else 0
      vplace := if bit h 5 && !bit h 7 then some (fld h 6 1) else none
      accs := if bit h 8 then (if bit h 24 then [fld h 9 1, 1 - fld h 9 1] else [fld h 9 1]) else []
      aplace := bit h 8 && !bit h 10
      unit := if bit h 7 || bit h 10 then some (fld h 14 5) else none
      unit2 := if bit h 24 then some (fld h 25 5) else none }

/-- A store of a Closet changed the contexts in the places it touched (R360): each is what is stored there now, or is gone. -/
def rereadContexts (s : State) (c o n : Nat) : State :=
  (s.core c).saved.foldl (fun s x =>
    match x.place with
    | some p =>
      if o < 384 * p + 384 && 384 * p < o + n then
        match storedContext s c p x with
        | some y => s.modCore c (fun k => { k with saved := k.saved.map (fun z => if z.num = x.num then y else z) })
        | none => (untie s c x.num).modCore c (fun k => { k with saved := k.saved.filter (fun z => z.num != x.num) })
      else s
    | none => s) s

/-- A store to an SRAM, by a core or an engine. -/
def sramStore (s : State) (loc : Nat) (bs : List Byte) : State :=
  let s1 := sramWrite s (cellsAt loc bs)
  if locCloset 0 0 ≤ loc ∧ loc < locDie 0 0 then rereadContexts s1 ((loc - locCloset 0 0) / 65536) ((loc - locCloset 0 0) % 65536) bs.length else s1

/-- Write one element as a store of the core under a tag (R66, R105, R106). -/
def writePlace (s : State) (c rtag : Nat) (p : Place) (bs : List Byte) : State :=
  match p with
  | .global va pa leaf ext =>
    let s1 := markDirty s c (.global va pa leaf ext)
    if cached leaf then snapStore s1 c rtag pa bs ext
    else publishCells s1 (cellsAt pa bs) ext (some c) none
  | .sram loc => sramStore s loc bs
  | .peer p a => notePeer (sendPeer s p rtag c (.store bs.length) a bs 0) p c
  | .logged _ _ => s

/-- Write one element as a published write (SUSPEND's CR, images, engine words) by core `c` under a tag. -/
def writePublished (s : State) (c rtag : Nat) (p : Place) (bs : List Byte) : State :=
  match p with
  | .global va pa leaf ext =>
    let s1 := markDirty s c (.global va pa leaf ext)
    publishCells (publishLine s1 c (lineNo pa)) (cellsAt pa bs) ext (some c) none
  | .sram loc => sramStore s loc bs
  | .peer p a => notePeer (sendPeer s p rtag c (.store bs.length) a bs 0) p c
  | .logged _ _ => s

/-- The function of an AMO or RED on n bytes (R149, R195). -/
def amoFn (op n old v : Nat) : Nat :=
  let w := 8 * n
  match op with
  | 0 => (old + v) % 2 ^ w
  | 1 => Nat.land old v
  | 2 => Nat.lor old v
  | 3 => Nat.xor old v
  | 4 => if sextN v w < sextN old w then v else old
  | 5 => if sextN old w < sextN v w then v else old
  | 6 => min old v
  | 7 => max old v
  | _ => v

/-- FRED's sum (R195): exact, rounded once, RNE. -/
def fredFn (bf16 : Bool) (old v : Nat) : Nat :=
  let f := if bf16 then fBF16 else fF32
  (rnd f .rne (addV .rne (decodeF f old) (decodeF f v))).1

/-- Prepare an atomic at a place: a cacheable line is obtained exclusively (R108), a first write of a page is logged (R395). -/
def atomicPrep (s : State) (c : Nat) (p : Place) : State :=
  match p with
  | .global va pa leaf ext =>
    let s1 := markDirty s c (.global va pa leaf ext)
    if cached leaf then obtainLine s1 c pa else s1
  | _ => s

/-- The location of a place, for its current bytes. -/
def Place.loc : Place → Nat
  | .global _ pa _ _ => pa
  | .sram l => l
  | _ => 0

/-- The write half of an atomic of core `c`: a published write of its own bytes (R97, R107, R195). `g` is its slot. -/
def atomicWrite (s : State) (c : Nat) (p : Place) (g v n : Nat) : State :=
  match p with
  | .global _ pa _ ext => publishCells s (cellsAt pa (leBytes v n)) ext (some c) (some g)
  | .sram loc => sramStore s loc (leBytes v n)
  | _ => s

/-- One read-modify-write at its point (R107, R195): the old value and the state. -/
def atomicAt (s : State) (c g : Nat) (p : Place) (n : Nat) (f : Nat → Nat) : Nat × State :=
  let s1 := atomicPrep s c p
  let old := leNat (s1.mem.readN p.loc n)
  (old, atomicWrite s1 c p g (f old) n)

/-! The side log (R398). -/

/-- The slot of core `c` whose task is a context, or a number no slot has. -/
def slotOfCtx (s : State) (c ctx : Nat) : Nat := ((slotsOf c).find? (fun g => (s.slot g).occupied && (s.slot g).ctx = ctx)).getD 32768

/-- An operation with .acq, logged or sent under a number, has been performed: the core refreshes, and its later loads go on (R196). -/
def acquired (s : State) (c num : Nat) : State :=
  match (s.core c).acqs.find? (fun a => a.num = num) with
  | some a => (if a.refreshes then refreshCore s c else s).modCore c (fun k => { k with acqs := k.acqs.filter (fun a => a.num != num) })
  | none => s

/-- Perform one logged operation at its mapped page. -/
def replayEntry (s : State) (c : Nat) (e : LogEntry) (p : Place) : State :=
  let g := slotOfCtx s c e.ctx
  match e.op with
  | .store => writePlace s c e.rtag p e.data
  | .red op => acquired (atomicAt s c g p e.data.length (fun old => amoFn op e.data.length old (leNat e.data))).2 c e.id
  | .fred b => acquired (atomicAt s c g p e.data.length (fun old => fredFn b old (leNat e.data))).2 c e.id

/-- A context has a trap to take at its next boundary for an operation that was discarded (R398). -/
def failContext (s : State) (c ctx : Nat) (cause : Cause) (va : Nat) : State :=
  let s1 := s.modCore c (fun k => { k with saved := k.saved.map (fun x => if x.num = ctx then { x with failed := joinFailure cause va x.failed } else x) })
  let g := slotOfCtx s1 c ctx
  if g < 32768 then s1.modSlot g (fun t => { t with logFailed := joinFailure cause va t.logFailed }) else s1

/-- One entry is discarded with a cause (R398). -/
def failEntry (s : State) (c : Nat) (e : LogEntry) (cause : Cause) : State :=
  failContext (s.modCore c (fun q => { q with
    sideLog := q.sideLog.filter (fun x => x.id != e.id)
    acqs := q.acqs.filter (fun a => a.num != e.id) })) c e.ctx cause e.va

/-- What a log entry's operation is, for permissions, and for the attributes it may be performed under. -/
def LogOp.access (op : LogOp) (vec : Bool) : Access :=
  match op with
  | .store => if vec then .vstore else .store
  | _ => .atomic

/-- A place's page still has its first store to log (R395). -/
def placeDirty (s : State) (c : Nat) (p : Place) : Bool :=
  match p with
  | .global va _ leaf _ => needsDirty s c va leaf
  | _ => false

/-- Replay a page's entries in log order, each once a walk of it succeeds; an entry that its leaf refuses, or whose attributes do not accept it, is discarded
and its context traps PERM or ATTRMIX (DEDUCED, log 13). From one whose walk faults, or whose page the full dirty log cannot take (R395), the rest stay. -/
def replayList (s : State) (c : Nat) : List LogEntry → State
  | [] => s
  | e :: r =>
    if !((s.core c).sideLog.any (fun x => x.id = e.id)) then replayList s c r
    else
      let acc := e.op.access e.vec
      match translate s c e.va acc e.user with
      | (.ok pa leaf ext, s1) =>
        let (granted, s2) := atsTranslate (dropRecord s1 c e.ctx e.va) pa
        let p : Place := .global e.va pa leaf ext
        if !granted then replayList (failEntry s2 c e .perm) c r
        else if !leafAllows (s2.core c) acc leaf then replayList (failEntry s2 c e .attrmix) c r
        else if dirtyFull s2 c && placeDirty s2 c p then s2
        else replayList (replayEntry (s2.modCore c (fun q => { q with sideLog := q.sideLog.filter (fun x => x.id != e.id) })) c e p) c r
      | (.perm, s1) => replayList (failEntry (dropRecord s1 c e.ctx e.va) c e .perm) c r
      | (_, s1) => s1

/-- Replay a core's entries of a page. -/
def replayPage (s : State) (c page : Nat) : State := replayList s c ((s.core c).sideLog.filter (fun e => e.va / 65536 = page))

/-- Replay a core's entries of every page: its dirty log has room again (R395). -/
def replayPages (s : State) (c : Nat) : State := (((s.core c).sideLog.map (fun e => e.va / 65536)).eraseDups).foldl (fun s p => replayPage s c p) s

/-- A core has entries logged for a page. -/
def pageLogged (s : State) (c va : Nat) : Bool := (s.core c).sideLog.any (fun e => e.va / 65536 = va / 65536)

/-! The checks of R90. -/

/-- The first element with a defect, and its trap value. -/
def firstBad (l : List Elem) (f : Elem → Option Word) : Option Word := l.findSome? f

/-- Two spaces are one for R89: same space, and same window or peer. -/
def sameSpace (a b : Word) : Bool := spaceOf a == spaceOf b

/-- Translate the elements in order (R90): the places, with what the faulting ones met. One of a page whose logged entries the full dirty log still keeps
(R395, R398) is left `logged` behind them. A fault of a page that no longer faults is held at the core no longer (R401). -/
def placeElems (s : State) (c g : Nat) (user : Bool) (acc : Access) : List Elem → List (Place × Trans) × State
  | [] => ([], s)
  | e :: r =>
    let (x, s1) :=
      match spaceOf e.a with
      | .global =>
        let va := fld e.a 0 56
        let s0 := if pageLogged s c va then replayPage s c (va / 65536) else s
        match translate s0 c va acc user with
        | (.ok pa leaf ext, s1) =>
          let (granted, s2) := atsTranslate (dropRecord s1 c (s1.slot g).ctx va) pa
          if !granted then ((Place.logged va .perm, Trans.perm), s2)
          else (((if pageLogged s2 c va then Place.logged va (.ok pa leaf ext) else Place.global va pa leaf ext), .ok pa leaf ext), s2)
        | (.perm, s1) => ((Place.logged va .perm, .perm), dropRecord s1 c (s1.slot g).ctx va)
        | (t, s1) => ((Place.logged va t, t), s1)
      | .peer p => ((Place.peer p e.a, .ok 0 0 0), s)
      | _ => ((Place.sram (sramLoc c g e), .ok 0 0 0), s)
    let (xs, s2) := placeElems s1 c g user acc r
    (x :: xs, s2)

/-- The fault of a translated element, if it met one. -/
def Trans.isFault : Trans → Bool
  | .fault _ _ => true
  | .absent _ _ _ => true
  | _ => false

/-- A fault is reported (R397): firmware's to the fault buffer, a non-resident page's to the Cellar. -/
def reportFault (s : State) (c va rtag kind ctx : Nat) (t : Trans) : State :=
  match t with
  | .fault lvl reason => raiseFault s c va kind rtag lvl reason ctx
  | .absent e leaf ext => startService (dropRecord s c ctx va) c va rtag e leaf ext
  | _ => s

/-- Reads and writes that protection checks see (R80, R81). A tagged-word operation, a summary operation and MONARM, which no local window allows, need neither
kind of an LPROT entry and so come to their ATTRMIX: R81 does not say which kind they are, DESIGN CHOICE, log 62. -/
def Access.protRd : Access → Bool
  | .load => true
  | .record => true
  | .vload => true
  | .atomic => true
  | _ => false
def Access.protWr : Access → Bool
  | .store => true
  | .vstore => true
  | .atomic => true
  | _ => false

/-- A peer-window address whose route is invalid (R423). -/
def unrouted (s : State) (a : Word) : Bool :=
  match spaceOf a with
  | .peer p => !routeOk s p
  | _ => false

/-- A place found by an access's checks is where the same access goes now (R93). -/
def placeFits (c g : Nat) (e : Elem) (p : Place) : Bool :=
  match p with
  | .sram loc => (windowOf e.a).isSome && loc = sramLoc c g e
  | .peer _ a => a = e.a
  | .global va _ _ _ => spaceOf e.a = .global && va = fld e.a 0 56
  | .logged va _ => spaceOf e.a = .global && va = fld e.a 0 56

/-- The slot's access has passed its checks already and is only held (R93): its places. -/
def heldPlaces (t : Slot) (c g : Nat) (l : List Elem) : Option (List Place) :=
  match t.checked with
  | some ps => if ps.length = l.length && (l.zip ps).all (fun z => placeFits c g z.1 z.2) then some ps else none
  | none => none

/-! The cap on a cluster's requests (R416). -/

/-- A waiting slot has a request outstanding beyond its cluster. -/
def outBeyond (w : Option Wait) : Bool :=
  match w with
  | some (.tagged _ d _ _) => d
  | some (.tagAnswer _ _ _) => true
  | some (.withdrawn _ _) => true
  | some (.peer _ resend) => !resend
  | _ => false

/-- Requests of a cluster outstanding beyond it: every other one ends within the step that sends it (R416). -/
def clusterOut (s : State) (cl : Nat) : Nat :=
  (s.slots.filter (fun t => clusterOf (coreOf t.1) = cl && outBeyond t.2.wait)).length +
    sumN ((clusterCores cl).map (fun c => (s.core c).peerOut.length))

/-- A further request of the cluster would exceed its cap (R416). -/
def capReached (s : State) (cl : Nat) : Bool :=
  let cap := (s.cluster cl).memcap
  cap != 0 && decide (cap ≤ clusterOut s cl)

/-- An access to a place sends a request beyond the cluster, a die scratchpad's slice included (R87, R416). -/
def beyond (k : Core) (p : Place) : Bool :=
  match p with
  | .global _ pa leaf _ => !cached leaf || !k.l1.contains (lineNo pa)
  | .peer _ _ => true
  | .sram loc => decide (locDie 0 0 ≤ loc) && decide (loc < locLane 0 0 0)
  | _ => false

/-- A translation of the elements sends a walk (R393, R416). -/
def walks (s : State) (c : Nat) (l : List Elem) : Bool :=
  l.any (fun e => spaceOf e.a = .global && (tlbFind s c (fld e.a 0 56)).isNone)

/-- The places of a held access as they are now: an element left for the side log, or whose translation has been invalidated (R363), is translated again; one
whose page then refuses a store is logged all the same, and fails on its replay (log 13). -/
def resettle (s : State) (c g : Nat) (user : Bool) (acc : Access) : List (Elem × Place) → List (Place × Trans) × State
  | [] => ([], s)
  | (e, p) :: r =>
    let (x, s1) : (Place × Trans) × State :=
      match p with
      | .logged _ _ =>
        match placeElems s c g user acc [e] with
        | ((.global a pa leaf ext, t) :: _, s1) =>
          let s1 := dropRecord s1 c (s1.slot g).ctx a
          (if leafAllows (s1.core c) acc leaf then (.global a pa leaf ext, t) else (.logged a t, t), s1)
        | (y :: _, s1) => (y, s1)
        | ([], s1) => ((p, .ok 0 0 0), s1)
      | p => ((p, .ok 0 0 0), s)
    let (xs, s2) := resettle s1 c g user acc r
    (x :: xs, s2)

/-- The slot is held on the faults its elements met (R397): they are reported, the first is the one it waits on, and the others hold it too (R402). -/
def holdFault {α : Type} (s : State) (zs : List (Elem × Place × Trans)) (acc : Access) (z : Elem × Place × Trans) : Res α :=
  let c := s.curCore
  let t := s.mine
  let s1 := (waitSlot s s.me (.fault (fld z.1.a 0 56))).modMe (fun t => { t with
    fkind := faultKind acc, checked := none, stays := false
    also := ((zs.filter (fun z => z.2.2.isFault)).map (fun z => fld z.1.a 0 56)).filter (· != fld z.1.a 0 56) })
  let s2 := (zs.filter (fun z => z.2.2.isFault)).foldl (fun s z => reportFault s c (fld z.1.a 0 56) t.rtag (faultKind acc) t.ctx z.2.2) s1
  .stop (match z.2.2, s2.mine.wait with
    | .absent _ _ _, some _ => s2.post (.walkComplete s2.me)
    | _, _ => s2)

/-- An access that may not be logged, to a page whose logged entries go first and wait for room in the dirty log (R395, R398). -/
def behindLog (logs : Bool) (ps : List Place) : Bool := !logs && ps.any (fun p => match p with | .logged _ (.ok _ _ _) => true | _ => false)

/-- The access has issued and passed its checks: it waits to be performed at the places found (R93). -/
def holdIssued {α : Type} (s : State) (ps : List Place) (w : Wait) : Res α := waitHere (s.modMe (fun t => { t with checked := some ps })) w

/-- The place is not settled: its element is left for the side log, or is to be translated again. -/
def Place.unsettled (p : Place) : Bool :=
  match p with
  | .logged _ _ => true
  | _ => false

/-- A held access goes on: at the places found, those to be translated again first, which waits while a walk of one would exceed the cluster's cap (R416). A load
that now meets a refusal there traps, or a fault holds it. -/
def goOnHeld (s : State) (l : List Elem) (ps : List Place) (acc : Access) (logs : Bool) : Res (List Place) :=
  if capReached s (clusterOf s.curCore) && walks s s.curCore (((l.zip ps).filter (fun z => z.2.unsettled)).map (fun z => z.1)) then holdIssued s ps .cap
  else
  let (qs, s1) := resettle s s.curCore s.me (!s.mine.mode) acc (l.zip ps)
  let zs := l.zip qs
  let places := qs.map (fun p => p.1)
  let go : Res (List Place) :=
    if behindLog logs places then holdIssued s1 places .dirtyLog else .go places (s1.modMe (fun t => { t with checked := none }))
  if logs then go
  else
    match zs.findSome? (fun z => if z.2.2 = .perm then some z.1.a else none) with
    | some v => trapRes s1 .perm v
    | none =>
      match (ps.zip zs).findSome? (fun z =>
          if !z.1.unsettled || z.2.2.2.isFault || opAllowed (s1.core s1.curCore) acc z.2.1 z.2.2.1 then none else some z.2.1.a) with
      | some v => trapRes s1 .attrmix v
      | none =>
        match zs.find? (fun z => z.2.2.isFault) with
        | some z => holdFault s1 zs acc z
        | none => go

/-- `check_access` for the executing slot (R90), the route an access to a peer needs (R423), and the fault treatment of R397: with `logs` a faulting
element is left `logged` for the side log, otherwise the slot is fault-held. A PERM or ATTRMIX of any element comes before a fault of any, DEDUCED, log 48. -/
def checkAccess (s : State) (l : List Elem) (acc : Access) (logs : Bool) : Res (List Place) :=
  let t := s.mine
  let c := s.curCore
  let a0 := (l.headD { a := 0, n := 1 }).a
  match heldPlaces t c s.me l with
  | some ps => goOnHeld s l ps acc logs
  | none =>
  match firstBad l (fun e => if spaceOf e.a = .none then some e.a else none) with
  | some v => trapRes s .noncanon v
  | none =>
  match firstBad l (fun e => if sameSpace a0 e.a then none else some e.a) with
  | some v => trapRes s .attrmix v
  | none =>
  if windowOf a0 = some 4 && !t.mode && !l.isEmpty then trapRes s .priv a0
  else
  match firstBad l (fun e => if e.a.toNat % e.al != 0 then some e.a else none) with
  | some v => trapRes s .misalign v
  | none =>
  match firstBad l (fun e => if sizeOk s c e.a e.n then none else some e.a) with
  | some v => trapRes s .protLocal v
  | none =>
  match (if t.mode then none else firstBad l (fun e => lprotFail t e acc.protRd acc.protWr)) with
  | some v => trapRes s .protLocal v
  | none =>
  if capReached s (clusterOf c) && walks s c l then waitHere s .cap
  else
  let (ps, s1) := placeElems s c s.me (!t.mode) acc l
  let zs := l.zip ps
  match zs.findSome? (fun z => if z.2.2 = .perm then some z.1.a else none) with
  | some v => trapRes s1 .perm v
  | none =>
  match zs.findSome? (fun z => if opAllowed (s1.core c) acc z.1 z.2.1 || (z.2.2.isFault && !logs) then none else some z.1.a) with
  | some v => trapRes s1 .attrmix v
  | none =>
  match firstBad l (fun e => if unrouted s e.a then some e.a else none) with
  | some v => trapRes s1 .perm v
  | none =>
  match (if logs then none else zs.find? (fun z => z.2.2.isFault)) with
  | none => if behindLog logs (ps.map (fun p => p.1)) then holdIssued s1 (ps.map (fun p => p.1)) .dirtyLog else .go (ps.map (fun p => p.1)) s1
  | some z => holdFault s1 zs acc z

/-- Some place overlaps a range the core's scoreboard holds (R93). -/
def boardHolds (s : State) (c : Nat) (zs : List (Place × Nat)) : Bool :=
  zs.any (fun z => match z.1 with
    | .sram loc => (s.core c).board.any (fun b => b.ranges.any (fun r => decide (loc ≤ r.2 ∧ r.1 < loc + z.2)))
    | _ => false)

/-- Two places lie in one 64-byte block of core c's own scratchpad. -/
def sameBlock (c : Nat) (p q : Place) : Bool :=
  match p, q with
  | .sram a, .sram b => decide (locScratch c 0 ≤ a ∧ a < locScratch c 0 + 2 ^ 18) && a / 64 = b / 64
  | _, _ => false

/-- An access to the core's own scratchpad that has issued earlier is held and not yet performed, and may touch bytes of this one (R105). Accesses to its own
scratchpad are performed in core issue order; the example of R93 performs one that touches none of a held one's bytes, DEDUCED, log 74. -/
def ownHeld (s : State) (zs : List (Place × Nat)) : Bool :=
  (slotsOf s.curCore).any (fun g =>
    match (s.slot g).issued, (s.slot g).checked with
    | some x, some ps => decide (x.2 < issueOrder s) && ps.any (fun p => zs.any (fun z => sameBlock s.curCore p z.1))
    | _, _ => false)

/-- Pages of an access that still have their first store to log (R395). -/
def dirtyPages (s : State) (zs : List (Place × Nat)) : Nat :=
  (((zs.filter (fun z => placeDirty s s.curCore z.1)).map (fun z => match z.1 with | .global va _ _ _ => va / 65536 | _ => 0)).eraseDups).length

/-- The access waits while the scoreboard holds its range (R93), while an earlier one of its own bytes is held (R105), while its requests would exceed the cluster's cap (R416), and for a first store of a
page while the dirty log has no room for it (R395). -/
def holdAccess (s : State) (zs : List (Place × Nat)) (writes : Bool) : Res Unit :=
  let k := s.here
  let ps := zs.map (fun z => z.1)
  if boardHolds s s.curCore zs || ownHeld s zs then holdIssued s ps .board
  else if capReached s (clusterOf s.curCore) && zs.any (fun z => beyond k z.1) then holdIssued s ps .cap
  else if writes && dirtyPages s zs != 0 && decide (32 < k.dirtyLog.length + dirtyPages s zs) then holdIssued s ps .dirtyLog
  else .go () s

/-- ORD names an .acq form (R149). -/
def acqOrd (ord : BitVec 3) : Bool := ord = 1#3 || ord = 3#3 || ord = 5#3

/-- The instruction is an operation with .acq (R149). -/
def acquires : Instr → Bool
  | .amo32 _ _ _ ord _ => acqOrd ord
  | .amo64 _ _ _ ord _ => acqOrd ord
  | .cas _ _ _ ord _ => acqOrd ord
  | .red32 _ _ ord _ => acqOrd ord
  | .red64 _ _ ord _ => acqOrd ord
  | .fred _ _ ord _ => acqOrd ord
  | _ => false

/-- An operation of core c with .acq that issued before place n is not yet performed: it has retired, or its slot still waits in it (R196). -/
def acqBefore (s : State) (c n : Nat) : Bool :=
  (s.core c).acqs.any (fun a => decide (a.order < n)) ||
  (slotsOf c).any (fun g => match (s.slot g).issued with | some x => acquires x.1 && decide (x.2 < n) | none => false)

/-- A load waits besides for the refresh of every earlier operation of its core with .acq (R196). -/
def holdLoad (s : State) (zs : List (Place × Nat)) : Res Unit :=
  (holdAccess s zs false).bnd fun _ s1 =>
    if acqBefore s1 s1.curCore (issueOrder s1) then holdIssued s1 (zs.map (fun z => z.1)) .acquire else .go () s1

/-- The executing task's request is annulled, and its core's die knows it: what it would log is removed at once (R64). -/
def logDead (s : State) : Bool := annulKnown s s.mine.rtag (dieOf s.curCore)

/-- The element is to be logged and the side log is full (R91, R186), or the fault buffer can take no entry for its page (R401). -/
def logFull (s : State) (p : Place) : Bool :=
  match p with
  | .logged va why =>
    !logDead s && (decide (64 ≤ s.here.sideLog.length) ||
      (match why with
        | .fault _ _ => bufferFull s (dieOf s.curCore) (s.partOf s.curCore) va
        | _ => false))
  | _ => false

/-- The slot waits to retire a store into the side log; the fault of a page for which the fault buffer is full is held at its core (R401). -/
def waitLog {α : Type} (s : State) (p : Place) (ps : List Place) (kind : Nat) : Res α :=
  match p with
  | .logged va (.fault lvl reason) =>
    if decide (s.here.sideLog.length < 64) then holdIssued (raiseFault s s.curCore va kind s.mine.rtag lvl reason s.mine.ctx) ps .sideLog
    else holdIssued s ps .sideLog
  | _ => holdIssued s ps .sideLog

/-- Enter an operation in the side log and report its fault (R197, R398). One that needs no service, its page refusing it or standing already, is replayed with
the page's others. -/
def logElem (s : State) (va : Nat) (why : Trans) (bs : List Byte) (op : LogOp) (acc : Access) : State :=
  let t := s.mine
  if logDead s then s
  else
  let s1 : State := { s.modCore s.curCore (fun q => { q with
    sideLog := q.sideLog ++ [{ id := s.nextId, va := va, data := bs, op := op, rtag := t.rtag, ctx := t.ctx, user := !t.mode, vec := acc == .vstore }] }) with
    nextId := s.nextId + 1 }
  let s2 := dropRecord s1 s.curCore t.ctx va
  if why.isFault then reportFault s2 s.curCore va t.rtag (faultKind acc) t.ctx why else replayPage s2 s.curCore (va / 65536)

/-- Perform one store element, or enter it in the side log (R91, R186). -/
def storeElem (s : State) (p : Place) (bs : List Byte) (acc : Access) : State :=
  match p with
  | .logged va why => logElem s va why bs .store acc
  | _ => writePlace s s.curCore s.mine.rtag p bs

end Sys2Proof.Machine
end

