-- ==== Sys2Proof/Machine/Commands.lean ====
section
/-! DEFINITION. Engine command words (R293-R301), the memory an engine command names, and the scoreboard ranges of a copy (R92). -/

namespace Sys2Proof.Machine

/-! The header word (R294). -/

def hOp (w : Word) : Nat := fld w 59 5
def hRel (w : Word) : Bool := bit w 58
def hFence (w : Word) : Bool := bit w 57
def hNw (w : Word) : Nat := fld w 54 3
def hDhe (w : Word) : Bool := bit w 53
def hDh (w : Word) : Nat := fld w 49 4
def hRsv (w : Word) : Nat := fld w 31 18
def hArg (w : Word) : Nat := fld w 18 13
def hTag (w : Word) : Nat := fld w 0 18

/-- Words still missing of the last command among a Hatch's command words (R293). -/
def cmdMissing : List HatchEntry → Nat → Nat
  | [], n => n
  | e :: r, 0 => cmdMissing r (hNw e.value)
  | _ :: r, n + 1 => cmdMissing r n

/-- The next word pushed is a header. -/
def Hatch.atHeader (h : Hatch) : Bool := cmdMissing h.cmd 0 = 0

/-- The headers among a Hatch's command words. -/
def headersOf : List HatchEntry → Nat → List HatchEntry
  | [], _ => []
  | e :: r, 0 => e :: headersOf r (hNw e.value)
  | _ :: r, n + 1 => headersOf r n

/-- The words of the last command: the rest, how many it still lacks, and those gathered. -/
def lastCommandFrom : List HatchEntry → Nat → List HatchEntry → List HatchEntry
  | [], _, cur => cur
  | e :: r, 0, _ => lastCommandFrom r (hNw e.value) [e]
  | e :: r, n + 1, cur => lastCommandFrom r n (cur ++ [e])

/-- The words of the last command of a Hatch. -/
def lastCommand (l : List HatchEntry) : List HatchEntry := lastCommandFrom l 0 []

/-- The command at the head of a Hatch, if complete. -/
def headCommand (h : Hatch) : Option (List HatchEntry) :=
  match h.cmd with
  | [] => none
  | e :: r => if hNw e.value ≤ r.length then some (e :: r.take (hNw e.value)) else none

/-- A word that a context pushes belongs to a partial command of its own that an annulment has removed (R297). -/
def Hatch.swallows (h : Hatch) (ctx : Nat) : Bool :=
  match h.rest with
  | some r => r.2 = ctx
  | none => false

/-- The Hatch once such a word has been pushed: one word less is to come. -/
def Hatch.swallow (h : Hatch) : Hatch :=
  { h with rest := match h.rest with | some (n + 2, k) => some (n + 1, k) | _ => none }

/-- Entries a Hatch holds (R235 COUNT). -/
def Hatch.count (h : Hatch) : Nat := h.entries.length + h.cmd.length

/-- Places of a Hatch that its core's waiting instructions keep for the entries they have popped, which a trap puts back (R138), beside those they have reserved for
their own pushes there: R138 undoes a pop and R18 gives a Hatch eight places, so that a popped entry's place is free only once its instruction is over, DEDUCED,
log 75. -/
def keptPlaces (s : State) (c h : Nat) : Nat :=
  sumN ((slotsOf c).map (fun g =>
    let t := s.slot g
    (t.held.filter (fun x => x.1 = h)).length - b2n (t.reserve = some h) - b2n (t.pushing = some h)))

/-- Places of a Hatch that are taken: by entries, command words, reservations and popped entries (R18, R138). -/
def hatchFill (s : State) (c h : Nat) : Nat := (s.hatch c h).count + (s.hatch c h).resv + keptPlaces s c h

/-- A Hatch has a free entry (R138). -/
def hatchRoom (s : State) (c h : Nat) : Bool := decide (hatchFill s c h < 8)

/-- The slot may pop the Hatch (R289). -/
def Hatch.pops (h : Hatch) (slot : Nat) : Bool :=
  match h.kind with
  | 1 => h.slotB = slot
  | 5 => decide (h.arg / 2 % 2 = 1) && h.slotA = slot
  | 6 => h.slotA = slot
  | 7 => h.slotA = slot
  | _ => false

/-- The slot may push the Hatch (R289). -/
def Hatch.pushes (h : Hatch) (slot : Nat) : Bool := decide (1 ≤ h.kind ∧ h.kind ≤ 5) && h.slotA = slot

/-- The Hatch carries command words. -/
def Hatch.isEngine (h : Hatch) : Bool := decide (2 ≤ h.kind ∧ h.kind ≤ 5)

/-! Memory as an engine sees it (R87, R111, R303). -/

/-- A run of consecutive bytes of a command: at a location, at a peer, failing with an error code (R299), or waiting for a page. -/
inductive Span where
  | run (loc va : Nat) (leaf ext : Word) (len : Nat)
  | far (p : Nat) (a : Word) (len : Nat)
  | fail (err : Nat) (len : Nat)
  | hold (va : Nat) (t : Trans) (len : Nat)
  deriving DecidableEq, Repr

def Span.len : Span → Nat
  | .run _ _ _ _ n => n
  | .far _ _ n => n
  | .fail _ n => n
  | .hold _ _ n => n

/-- Cut a range at page boundaries, translating each part for an engine (R392, R397). A part past the end of its space fails with SPACE (R89). The local
ranges of a user's command are not held against its slot's LPROT entries, DESIGN CHOICE, log 49. -/
def engineSpans (s : State) (c : Nat) (user : Bool) (acc : Access) (a : Word) (n : Nat) : Nat → List Span × State
  | 0 => ([], s)
  | f + 1 =>
    if n = 0 then ([], s)
    else
      match spaceOf a with
      | .global =>
        let va := fld a 0 56
        let len := min n (65536 - va % 65536)
        let (t, s1) := translate s c va acc user
        let (x, s2) := match t with
          | .ok pa leaf ext =>
            let (granted, s2) := atsTranslate s1 pa
            (if granted then .run pa va leaf ext len else Span.fail 5 len, s2)
          | .perm => (.fail 5 len, s1)
          | .fault _ _ => (.fail 4 len, s1)
          | .absent e leaf ext => (.hold va (.absent e leaf ext) len, s1)
        let (r, s3) := engineSpans s2 c user acc (a + wd len) (n - len) f
        (x :: r, s3)
      | .peer p => ([if 2 ^ 56 < fld a 0 56 + n then .fail 3 n else if routeOk s p then .far p a n else .fail 5 n], s)
      | .window w =>
        if w = 1 ∨ w = 4 ∨ !sizeOk s c a n then ([.fail 3 n], s)
        else ([.run (sramLoc c 0 { a := a, n := 1 }) 0 0 0 n], s)
      | .none => ([.fail 3 n], s)

/-- The spans of a range. -/
def spans (s : State) (c : Nat) (user : Bool) (acc : Access) (a : Word) (n : Nat) : List Span × State :=
  engineSpans s c user acc a n (n / 65536 + 2)

/-- A range leaves its space, or names the lane store or the Closet (R89, R296). -/
def leavesSpace (s : State) (c : Nat) (a : Word) (n : Nat) : Bool :=
  n != 0 &&
  (match spaceOf a with
    | .global => decide (2 ^ 56 < fld a 0 56 + n)
    | .peer _ => decide (2 ^ 56 < fld a 0 56 + n)
    | .window w => w = 1 || w = 4 || spaceOf (a + wd (n - 1)) != .window w || !sizeOk s c a n || decide (2 ^ 48 ≤ n)
    | .none => true)

/-- Work of an engine leaves for a peer and is answered (R20, R404, R425): what the peer answers is its own, free (log 7): the work is performed, or the error
code of R299 that its failure gives the command, NOPROXY among them unless its tag is 0. Over a link that is down it fails with LINK (R422). -/
def farWork (s : State) (part rtag p : Nat) (op : PeerOp) (a : Word) (data : List Byte) : Option Nat × State :=
  if portDown s (fld (s.reg (peerrouteAddr p)) 0 4) then (some 15, s)
  else
  let (k, s1) := (sendWork s p rtag part 32768 op a data 0).fresh
  match Config.peerAnswers k % 5 with
  | 1 => (some 4, s1)
  | 2 => (some 5, s1)
  | 3 => (some 6, s1)
  | 4 => (if rtag = 0 then none else some 14, s1)
  | _ => (none, s1)

/-- An engine's read of n bytes at a peer: its bytes are free too. -/
def farRead (s : State) (c rtag p : Nat) (a : Word) (n : Nat) : Except Nat (List Byte) × State :=
  match farWork s (s.partOf c) rtag p (.load n) a [] with
  | (some e, s1) => (.error e, s1)
  | (none, s1) => (.ok ((List.range n).map (fun i => Config.freeByte (s1.free + i))), { s1 with free := s1.free + n })

/-- The bytes of a span as an engine reads them now, or the error code that stops it (R299); a page that is not resident is the caller's to wait for. -/
def spanBytes (s : State) (c rtag : Nat) : Span → Except Nat (List Byte) × State
  | .run loc _ _ _ n =>
    (if (List.range n).any (fun i => s.bad.contains (loc + i)) then .error 6 else .ok (s.mem.readN loc n), s)
  | .far p a n => farRead s c rtag p a n
  | .fail e _ => (.error e, s)
  | .hold _ _ _ => (.error 4, s)

/-- The bytes of spans in order. -/
def spansBytes (s : State) (c rtag : Nat) : List Span → Except Nat (List Byte) × State
  | [] => (.ok [], s)
  | x :: r =>
    match spanBytes s c rtag x with
    | (.error e, s1) => (.error e, s1)
    | (.ok bs, s1) =>
      match spansBytes s1 c rtag r with
      | (.error e, s2) => (.error e, s2)
      | (.ok l, s2) => (.ok (bs ++ l), s2)

/-- The bytes an engine reads for a command under a tag, or the error code that stops it. -/
def engineRead (s : State) (c rtag : Nat) (user : Bool) (a : Word) (n : Nat) : Except Nat (List Byte) × State :=
  let (l, s1) := spans s c user .engineIn a n
  spansBytes s1 c rtag l

/-- The operation has a list of pieces (R301). -/
def hasList (op : Nat) : Bool := op = 2 || op = 3

/-- Address of a copy's list, its entries, and its bytes. -/
def listAddr (op : Nat) (w : List Word) : Word := if op = 2 then w.getD 2 0 else w.getD 3 0
def listCount (w : List Word) : Nat := fld (w.getD 4 0) 0 32

/-- The pairs of a gather or scatter list of n entries (R301): address and length. -/
def listEntries (bs : List Byte) (n : Nat) : List (Word × Nat) :=
  (List.range n).map (fun i =>
    let e := bs.drop (16 * i)
    (wd (leNat (e.take 8)), leNat ((e.drop 8).take 6)))

/-- An address in no space: a piece that names it fails with SPACE. -/
def noSpace : Word := 0x4000000000000000#64

/-- A list entry that leaves its space, or names the lane store or the Closet, as a piece that fails (R89, R302). -/
def entryAddr (s : State) (c : Nat) (e : Word × Nat) : Word := if leavesSpace s c e.1 e.2 then noSpace else e.1

/-- The pieces of a copy as (source, destination, length), in byte order (R300, R301), `l` its list's entries if it has one. -/
def planOf (s : State) (c op : Nat) (w : List Word) (l : List (Word × Nat)) : List (Word × Word × Nat) :=
  let w2 := w.getD 2 0
  let w3 := w.getD 3 0
  let w4 := w.getD 4 0
  match op with
  | 0 => [(w2, w3, fld w4 0 48)]
  | 1 => (List.range (fld w4 32 32)).map (fun i => (w2 + wd i * w.getD 5 0, w3 + wd i * w.getD 6 0, fld w4 0 32))
  | 2 => (l.foldl (fun a e => (a.1 ++ [(entryAddr s c e, w3 + wd a.2, e.2)], a.2 + e.2)) (([] : List (Word × Word × Nat)), 0)).1
  | _ => (l.foldl (fun a e => (a.1 ++ [(w2 + wd a.2, entryAddr s c e, e.2)], a.2 + e.2)) (([] : List (Word × Word × Nat)), 0)).1

/-- The pieces of a copy once its list, if it has one, is read as an engine source (R302). -/
def copyPlan (s : State) (c rtag : Nat) (user : Bool) (op : Nat) (w : List Word) : Except Nat (List (Word × Word × Nat)) × State :=
  if hasList op then
    match engineRead s c rtag user (listAddr op w) (16 * listCount w) with
    | (.error e, s1) => (.error e, s1)
    | (.ok bs, s1) => (.ok (planOf s1 c op w (listEntries bs (listCount w))), s1)
  else (.ok (planOf s c op w []), s)

/-- The pieces of a copy as they can be told now without reading anything that is not at hand: none if its list is not. -/
def peekPlan (s : State) (c : Nat) (user : Bool) (op : Nat) (w : List Word) : Option (List (Word × Word × Nat)) :=
  if hasList op then
    let l := (spans s c user .engineIn (listAddr op w) (16 * listCount w)).1
    if l.all (fun x => match x with | .run _ _ _ _ _ => true | _ => false) then
      match spansBytes s c 0 l with
      | (.ok bs, _) => some (planOf s c op w (listEntries bs (listCount w)))
      | _ => none
    else none
  else some (planOf s c op w [])

/-- The cores a multicast mask names (R302). -/
def maskCores (c : Nat) (mask : Word) : List Nat :=
  ((List.range 32).filter (fun i => bit mask i)).map (coreAt (clusterOf c))

/-- The mask word of a copy whose MC bit is set. -/
def copyMask (w : List Word) : Option Word := if bit (w.getD 0 0) 18 then some (w.getLastD 0) else none

/-- A destination window the scoreboard covers: own scratchpad or CSM (R92). -/
def boardWindow (a : Word) : Bool := windowOf a = some 0 || windowOf a = some 2

/-- The bounding range of a plan's destinations in scratchpad and CSM windows, by location, in every core a mask names (R92). A copy with no destination byte there (of
length 0, or under a mask of 0) has no such range: R92 does not say whether it takes an entry; it records none, and is not blocked while the scoreboard is full,
DESIGN CHOICE, log 76. -/
def planRanges (c : Nat) (w : List Word) (plan : List (Word × Word × Nat)) : List (Nat × Nat) :=
  let locs := (plan.filter (fun p => p.2.2 != 0 && boardWindow p.2.1)).map
    (fun p => let l := sramLoc c 0 { a := p.2.1, n := 1 }; (l, l + p.2.2 - 1))
  match locs with
  | [] => []
  | (lo, hi) :: r =>
    let b := r.foldl (fun (a : Nat × Nat) x => (min a.1 x.1, max a.2 x.2)) (lo, hi)
    match copyMask w with
    | none => [b]
    | some m => (maskCores c m).map (fun k => (locScratch k (b.1 - locScratch c 0), locScratch k (b.2 - locScratch c 0)))

/-- The range a copy's entry records at its push (R92). While its list cannot be read its bounds are not known, and the entry covers every scratchpad
byte the copy may write: DEDUCED, log 50. -/
def copyRanges (s : State) (c : Nat) (user : Bool) (w : List Word) : List (Nat × Nat) :=
  match peekPlan s c user (hOp (w.getD 0 0)) w with
  | some plan => planRanges c w plan
  | none =>
    let all := fun (k : Nat) => (locScratch k 0, locScratch k 262143)
    if hOp (w.getD 0 0) = 3 then (clusterCores (clusterOf c)).map all
    else if boardWindow (w.getD 3 0) then
      match copyMask w with
      | none => [(sramLoc c 0 { a := w.getD 3 0, n := 1 }, (sramLoc c 0 { a := w.getD 3 0, n := 1 } - sramBase) / 262144 * 262144 + sramBase + 262143)]
      | some m => (maskCores c m).map all
    else []

end Sys2Proof.Machine
end

