-- ==== Sys2Proof/Machine/Operands.lean ====
section
/-! DEFINITION. Operands: scalar registers with their marks, Hatches as sources and destinations (R137, R138, R289, R295), predicates,
vector registers and masks, and the checks every instruction passes first (R140). -/

namespace Sys2Proof.Machine

/-! Scalar registers (R137, R187). -/

/-- A register's value; x0 reads 0. -/
def Slot.xr (t : Slot) (r : Nat) : Word := if r = 0 then 0 else look 0 r t.x

/-- A register carries a poison mark. -/
def Slot.poisoned (t : Slot) (r : Nat) : Bool := t.xPoison.toNat / 2 ^ r % 2 = 1

/-- The marks with one register's set or cleared. -/
def markBit (m : BitVec 32) (r : Nat) (on : Bool) : BitVec 32 :=
  if on then m ||| BitVec.ofNat 32 (2 ^ r) else m &&& ~~~(BitVec.ofNat 32 (2 ^ r))

/-- Write a register, with a mark or clearing it; x0 discards. -/
def Slot.setX (t : Slot) (r : Nat) (v : Word) (poison : Bool := false) : Slot :=
  if r = 0 then t else { t with x := put r v t.x, xPoison := markBit t.xPoison r poison }

/-- Predicate p; p0 reads true. -/
def Slot.pr (t : Slot) (n : Nat) : Bool := n = 0 || decide (t.p.toNat / 2 ^ n % 2 = 1)

/-- Write a predicate; p0 discards. -/
def Slot.setP (t : Slot) (n : Nat) (v : Bool) : Slot :=
  if n = 0 then t
  else { t with p := if v then t.p ||| BitVec.ofNat 8 (2 ^ n) else t.p &&& ~~~(BitVec.ofNat 8 (2 ^ n)) }

/-! Vector registers and masks (R238, R239). -/

/-- The 32 bits of lane l of a vector register. -/
def Slot.vr (t : Slot) (r l : Nat) : BitVec 32 := look 0 (r * 128 + l) t.v
/-- Write a lane of a vector register, clearing its mark. The mark is the lane's (R187, R258), so that a write of one packed element ends all of it: the rules do not
say what becomes of the lane's other elements, DESIGN CHOICE, log 70. -/
def Slot.setV (t : Slot) (r l : Nat) (v : BitVec 32) : Slot :=
  { t with v := put (r * 128 + l) v t.v, vPoison := drop (r * 128 + l) t.vPoison }
/-- Position i of mask m; m0 reads all true. -/
def Slot.mr (t : Slot) (m i : Nat) : Bool := m = 0 || decide ((look 0 m t.m).toNat / 2 ^ i % 2 = 1)
/-- Write one position of a mask; m0 discards. -/
def Slot.setM (t : Slot) (m i : Nat) (v : Bool) : Slot :=
  if m = 0 then t
  else
    let w : BitVec 512 := look 0 m t.m
    { t with m := put m (if v then w ||| BitVec.ofNat 512 (2 ^ i) else w &&& ~~~(BitVec.ofNat 512 (2 ^ i))) t.m }

/-! Issue (R138, R140). -/

/-- What an instruction's issue needs: feature level, supervisor only, a vector instruction, legal under VTYPE, room in the matrix unit or its queue
(R260), and its scalar source and destination fields in order. -/
structure Issue where
  level : Nat := 0
  sup   : Bool := false
  vec   : Bool := false
  legal : Bool := true
  unit  : Bool := false
  srcs  : List RegField := []
  dst   : Option RegField := none

def isHatch (r : RegField) : Bool := decide (32 ≤ r.toNat)
def hatchNo (r : RegField) : Nat := r.toNat - 32

/-- Check 6: the first field whose Hatch does not pop to, or accept pushes from, the slot; TRAPVAL is R290's. -/
def hatchDirection (s : State) (k : Issue) : Option Word :=
  match k.srcs.find? (fun r => isHatch r && !(s.hatch s.curCore (hatchNo r)).pops s.curSlot) with
  | some r => some (wd (hatchNo r))
  | none =>
    match k.dst with
    | some r => if isHatch r && !(s.hatch s.curCore (hatchNo r)).pushes s.curSlot then some (wd (16 + hatchNo r)) else none
    | none => none

/-- How many entries the instruction pops from Hatch h. -/
def popsOf (k : Issue) (h : Nat) : Nat := (k.srcs.filter (fun r => isHatch r && hatchNo r = h)).length

/-- The two conditions of R138 before issue. -/
def hatchReady (s : State) (k : Issue) : Bool :=
  k.srcs.all (fun r => !isHatch r || decide (popsOf k (hatchNo r) ≤ (s.hatch s.curCore (hatchNo r)).entries.length)) &&
  (match k.dst with
    | some r => !isHatch r ||
        decide (hatchFill s s.curCore (hatchNo r) < 8 + popsOf k (hatchNo r))
    | none => true)

/-- The executing slot pops one entry, holding it until its instruction ends. -/
def popHeld (s : State) (h : Nat) : State :=
  let q := s.hatch s.curCore h
  match q.entries with
  | [] => s
  | e :: r => (s.setHatch s.curCore h { q with entries := r }).modMe (fun t => { t with held := t.held ++ [(h, e)] })

/-- Pop the sources in field order and reserve the destination's entry (R138). -/
def takeHatches (s : State) (k : Issue) : State :=
  let s1 := k.srcs.foldl (fun s r => if isHatch r then popHeld s (hatchNo r) else s) s
  match k.dst with
  | some r =>
    if isHatch r then
      let h := s1.hatch s1.curCore (hatchNo r)
      (s1.setHatch s1.curCore (hatchNo r) { h with resv := h.resv + 1 }).modMe (fun t => { t with reserve := some (hatchNo r) })
    else s1
  | none => s1

/-- The sources' values and marks in field order, from registers and from the entries popped. -/
def sourceValues (t : Slot) : List RegField → List (Nat × HatchEntry) → List (Word × Bool)
  | [], _ => []
  | r :: l, held =>
    if isHatch r then
      match held with
      | [] => (0, false) :: sourceValues t l []
      | e :: h => (e.2.value, e.2.poison) :: sourceValues t l h
    else (t.xr r.toNat, r != 0#6 && t.poisoned r.toNat) :: sourceValues t l held

/-- Check 7 of R140 and the sources' values: of an instruction that has issued. -/
def operands (k : Issue) (s : State) : Res (List Word) :=
  let vs := sourceValues s.mine k.srcs s.mine.held
  match vs.find? (fun v => v.2) with
  | some v => trapRes s .memerr v.1
  | none => .go (vs.map (fun v => v.1)) s

/-- Checks 2 to 7 of R140 with the issue of R138: the sources' values, or the trap or wait. An instruction that waited after its issue
goes on with what it popped, its checks made. One that must wait for a Hatch or for the matrix unit has not issued, and meets check 7 when it issues: R140 sets
no order between its check 7 and these waits, DEDUCED, log 64. `i` gives the encoding for TRAPVAL. Of several marked sources the first in field order gives check 7's TRAPVAL, scalar fields
before the lanes of vector registers: R140 and R187 name one mark only, DESIGN CHOICE, log 56. -/
def issue (i : Instr) (k : Issue) (s : State) : Res (List Word) :=
  let t := s.mine
  if t.issued.isSome then operands k s
  else if !(wellFormed i && k.legal) then trapRes s .illegalOp (encodingOf i)
  else if s.here.featmask.toNat < k.level then trapRes s .featureAbsent (encodingOf i)
  else if k.sup && !t.mode then trapRes s .priv (encodingOf i)
  else if k.vec && t.grant = 0 then trapRes s .vgrant 0
  else
    let hatched := k.srcs.any isHatch || (match k.dst with | some r => isHatch r | none => false)
    let full := k.unit && s.here.unitBusy.isSome && s.here.unitNext.isSome
    let go : Res Unit :=
      if !t.held.isEmpty || t.reserve.isSome then .go () s
      else if !hatched then (if full then waitHere s .unitBusy else .go () s)
      else
        match hatchDirection s k with
        | some v => trapRes s .hatch v
        | none =>
          if full then waitHere s .unitBusy
          else if hatchReady s k then .go () (takeHatches s k) else waitHere s .hatch
    go.bnd fun _ s1 => operands k s1

/-! Results (R138, R295). -/

/-- The reserved place of slot g's destination Hatch is used up. -/
def unreserve (s : State) (g h : Nat) : State :=
  if (s.slot g).reserve = some h then
    let q := s.hatch (coreOf g) h
    (s.setHatch (coreOf g) h { q with resv := q.resv - 1 }).modSlot g (fun t => { t with reserve := none })
  else s

/-- A command may name this request (R58). A tag whose entry is free is no child's, DESIGN CHOICE, log 77. -/
def tagAllowed (s : State) (g tag : Nat) : Bool :=
  tag = 0 || tag = (s.slot g).rtag ||
  (let q := s.req tag; q.state != .free && q.parent = (s.slot g).rtag && q.part = s.partOf (coreOf g))

/-- The Stair of a STAIR Hatch of core c (R19, R234): its direction's number 2 s + (0 toward die (s + 1) mod 4, 1 toward die s). -/
def stairDir (c : Nat) (h : Hatch) : Nat :=
  let d := dieOf c
  let send := h.arg / 2 % 2 = 0
  let stair := if h.arg % 2 = 0 then d else (d + 3) % 4
  let up := if h.arg % 2 = 0 then decide send else !decide send
  2 * stair + (if up then 0 else 1)

/-- The direction is enabled and its link is up (R431). -/
def stairOpen (s : State) (dir : Nat) : Bool :=
  bit (s.reg (stairctlAddr (dir / 2))) (dir % 2) && look false (dir / 2) s.dieLinks

/-- The event by which an engine takes the command at the head of a Hatch, by its kind and operation (R301, R305, R306, R309, R311, R312); a
command of no such operation is taken by the first of its engine, which fails it (R296). -/
def takeEvent (h : Hatch) (c n : Nat) : Event :=
  let op := match h.cmd with | e :: _ => hOp e.value | [] => 0
  match h.kind with
  | 2 => match op with
    | 1 => .copyStrided c n
    | 2 => .copyGather c n
    | 3 => .copyScatter c n
    | 4 => .copyResume c n
    | _ => .copyLinear c n
  | 3 => match op with
    | 8 => .collAllreduce c n
    | 9 => .collAllgather c n
    | 10 => .collRedscat c n
    | 11 => .collBcast c n
    | _ => .collGroup c n
  | 4 => match op with
    | 17 => .cellarWrite c n
    | _ => .cellarRead c n
  | _ =>
    if h.arg / 2 % 2 = 0 then (match op with | 21 => .stairReset c n | _ => .stairSend c n)
    else (match op with | 23 => .stairFree c n | _ => .stairBuf c n)

/-- The DONE Hatch a header asks for, if it is bound DONE to the slot (R295 step 3). -/
def doneHatch (s : State) (c slot : Nat) (w : Word) : Option Nat :=
  let h := s.hatch c (hDh w)
  if hDhe w && h.kind = 6 && h.slotA = slot then some (hDh w) else none

/-- A word enters an engine's Hatch; its push is numbered. -/
def enterCommand (s : State) (g h : Nat) (e : HatchEntry) : State :=
  let q := s.hatch (coreOf g) h
  { s.setHatch (coreOf g) h { q with cmd := q.cmd ++ [{ e with num := s.nextId }] } with nextId := s.nextId + 1 }

/-- A word of a partial command that an annulment has removed goes nowhere: its pusher, whose request lives, goes on with the command, and R297 does not say what becomes of
the words that follow, DESIGN CHOICE, log 42. -/
def swallowWord (s : State) (g h : Nat) : State := s.setHatch (coreOf g) h (s.hatch (coreOf g) h).swallow

/-- The ranges a word's entry would record: those of the copy it completes (R92, R295). -/
def rangesOfPush (s : State) (g h : Nat) (v : Word) : List (Nat × Nat) :=
  let c := coreOf g
  let q := s.hatch c h
  let l := lastCommand (q.cmd ++ [{ value := v }])
  if q.kind = 2 ∧ cmdMissing (q.cmd ++ [{ value := v }]) 0 = 0 ∧ hOp (l.headD { value := 0 }).value < 4 then
    copyRanges s c (l.headD { value := 0 }).user (l.map (fun e => e.value))
  else []

/-- Reserve a DONE Hatch's entry. -/
def reserveDone (s : State) (c n : Nat) : State :=
  let h := s.hatch c n
  s.setHatch c n { h with resv := h.resv + 1 }

/-- Record ranges in the core's scoreboard, for the command that this push completes: the entry's number (0 for none) goes with its last
word (R92, R295). -/
def recordRanges (s : State) (c : Nat) (ranges : List (Nat × Nat)) : Nat × State :=
  if ranges.isEmpty then (0, s)
  else
    (s.nextId, { s.modCore c (fun k => { k with board := k.board ++ [{ id := s.nextId, ranges := ranges }] }) with
      nextId := s.nextId + 1 })

/-- Push a value computed by the executing instruction into Hatch h (R138, R295). `s0` is the state as issued, for a trap or a wait: then
nothing of the instruction is done, but for what its REL has published before it waits. -/
def pushValue (s0 s : State) (h : Nat) (v : Word) : Res Unit :=
  let g := s.me
  let c := s.curCore
  let t := s.mine
  let q := s.hatch c h
  if !q.isEngine then
    .go () ((unreserve s g h).setHatch c h { q with entries := q.entries ++ [{ value := v }], resv := q.resv - 1 })
  else if q.swallows t.ctx then .go () (swallowWord (unreserve s g h) g h)
  else if q.atHeader then
    let tag := hTag v
    if !tagAllowed s g tag then trapRes s0 .perm (wd tag)
    else if q.kind = 5 && !stairOpen s (stairDir c q) then trapRes s0 .stair v
    else
      let done := doneHatch s c s.curSlot v
      let take := fun (s : State) => match done with
        | some n => if t.pushing.isNone then (reserveDone s c n).modSlot g (fun t => { t with pushing := some n }) else s
        | none => s
      if (match done with | some n => decide (8 < hatchFill (take s) c n) | none => false) then waitHere s0 .hatch
      else
        let rel : Res Unit := if hRel v then publish (take s) .dev else .go () (take s)
        match rel with
        | .stop s2 =>
          if s2.mine.wait = some .stores then waitHere (take s0) .stores
          else waitHere ((publishLines (take s0) c).modMe (fun t => { t with awaits := s2.mine.awaits })) .publish
        | .go _ s1 =>
          .go () (enterCommand ((unreserve s1 g h).modSlot g (fun t => { t with pushing := none })) g h
            { value := v, user := !t.mode, rtag := if tag = 0 then t.rtag else tag, g := g, ctx := t.ctx, done := done })
  else
    let ranges := rangesOfPush s g h v
    if !ranges.isEmpty && decide (16 ≤ s.here.board.length) then waitHere s0 .board
    else
      let (b, s1) := recordRanges (unreserve s g h) c ranges
      .go () (enterCommand s1 g h { value := v, user := !t.mode, rtag := t.rtag, g := g, ctx := t.ctx, board := b })

/-- Push a value that returns after its instruction completed (R138, R295 last part): it never traps. A header that steps 1 and 2 refuse, or for which no
DONE entry is free, enters marked failed; its DONE entry is reserved whichever of them failed, so that its completion reaches it, and so is its REL applied. -/
def pushLate (s : State) (g h : Nat) (v : Word) (poison : Bool) : State :=
  let c := coreOf g
  let t := s.slot g
  let s1 := unreserve s g h
  let q := s1.hatch c h
  if !q.isEngine then s1.setHatch c h { q with entries := q.entries ++ [{ value := v, poison := poison }] }
  else if q.swallows t.ctx then swallowWord s1 g h
  else if q.atHeader then
    let tag := hTag v
    let allowed := tagAllowed s1 g tag && (q.kind != 5 || stairOpen s1 (stairDir c q))
    let asked := doneHatch s1 c (g % 16) v
    let done := match asked with | some n => if hatchRoom (s1.modSlot g (fun t => { t with held := [] })) c n then some n else none | none => none
    let ok := allowed && asked = done
    let s2 := match done with | some n => reserveDone s1 c n | none => s1
    let s3 := if hRel v then publishLines s2 c else s2
    enterCommand s3 g h { value := v, poison := poison, failed := !ok, user := !t.mode, rtag := if tag = 0 || !ok then t.rtag else tag,
                          g := g, ctx := t.ctx, rel := hRel v, done := done, after := s3.nextId }
  else
    let (b, s2) := recordRanges s1 c (rangesOfPush s1 g h v)
    enterCommand s2 g h { value := v, poison := poison, user := !t.mode, rtag := t.rtag, g := g, ctx := t.ctx, board := b }

/-- A value that returns to slot g's destination must wait for a scoreboard entry (R92, R295). -/
def lateBlocked (s : State) (g rd : Nat) (v : Word) : Bool :=
  let c := coreOf g
  decide (32 ≤ rd) && decide (16 ≤ (s.core c).board.length) &&
  (s.hatch c (rd - 32)).isEngine && !(s.hatch c (rd - 32)).swallows (s.slot g).ctx && !(s.hatch c (rd - 32)).atHeader && !(rangesOfPush s g (rd - 32) v).isEmpty

/-- Write a result to the destination field: a register, or a push. `s0` is the state as issued. -/
def writeRd (s0 s : State) (rd : RegField) (v : Word) : Res Unit :=
  if isHatch rd then pushValue s0 s (hatchNo rd) v else .go () (s.modMe (fun t => t.setX rd.toNat v))

/-- Write the result and go on at the next instruction. -/
def finish (s0 s : State) (rd : RegField) (v : Word) (n : Nat := 4) : Res Unit :=
  (writeRd s0 s rd v).bnd fun _ s1 => .go () (advance s1 n)

/-- An instruction without a result goes on at the next instruction. -/
def pass (s : State) (n : Nat := 4) : Res Unit := .go () (advance s n)

/-- Write a load's value to the destination field, marked if its bytes carried an error (R187). -/
def writeLoaded (s : State) (g : Nat) (rd : Nat) (v : Word) (poison : Bool) : State :=
  if 32 ≤ rd then pushLate s g (rd - 32) v poison else s.modSlot g (fun t => t.setX rd v poison)

/-- The values that have returned to slot g's destination fields are written in order, each with its mark, and the slot goes on. One that would record a
seventeenth scoreboard entry waits for a free one (R92, R295). -/
def writeBack (s : State) (g : Nat) : List (Nat × Word × Bool) → State
  | [] => jumpTo s g ((s.slot g).pc + 4)
  | (rd, v, bad) :: r =>
    if lateBlocked s g rd v then waitSlot s g (.late ((rd, v, bad) :: r)) else writeBack (writeLoaded s g rd v bad) g r

end Sys2Proof.Machine
end

