-- ==== Sys2Proof/Machine/Flags.lean ====
section
/-! DEFINITION. Flag and predicate computations: compare conditions (R173), VFLAGS (R121), accumulator flags (R128). -/

namespace Sys2Proof.Machine

/-- `test(cc, a, b)` (R173). -/
def test (cc : Nat) (a b : Word) : Bool :=
  match cc with
  | 0 => a == b
  | 1 => a != b
  | 2 => a.slt b
  | 3 => !a.slt b
  | 4 => a.ult b
  | _ => !a.ult b

/-- VFLAGS gathers an instruction's flags; they stay until written (R121). -/
def Slot.flag (t : Slot) (f : Flags) : Slot := { t with vflags := t.vflags ||| f }

/-- PGET's word: bit i is predicate i (R174). -/
def predWord (t : Slot) : Word := wd (sumN ((List.range 8).map (fun i => b2n (t.pr i) * 2 ^ i)))

end Sys2Proof.Machine
end

