-- ==== Sys2Proof/Machine/Scalar.lean ====
section
/-! DEFINITION. Scalar arithmetic, predicates, branches and jumps, NOP and TRET (R162-R179). -/

namespace Sys2Proof.Machine

/-- Outcome of an instruction. -/
abbrev Out := Host.Outcome State Fault Refusal

/-- An instruction of two sources and a result. -/
def alu2 (i : Instr) (rd rs1 rs2 : RegField) (f : Word → Word → Word) (s : State) : Out :=
  ((issue i { srcs := [rs1, rs2], dst := some rd } s).bnd fun v s1 => finish s1 s1 rd (f (v.getD 0 0) (v.getD 1 0))).outcome

/-- An instruction of one source and a result. -/
def alu1 (i : Instr) (rd rs1 : RegField) (f : Word → Word) (s : State) : Out :=
  ((issue i { srcs := [rs1], dst := some rd } s).bnd fun v s1 => finish s1 s1 rd (f (v.getD 0 0))).outcome

/-- An instruction whose result depends on no source. -/
def alu0 (i : Instr) (rd : RegField) (f : Slot → Word) (s : State) : Out :=
  ((issue i { dst := some rd } s).bnd fun _ s1 => finish s1 s1 rd (f s1.mine)).outcome

/-- An instruction that writes one predicate from its sources. -/
def predOut (i : Instr) (srcs : List RegField) (pd : BitVec 3) (f : Slot → List Word → Bool) (s : State) : Out :=
  ((issue i { srcs := srcs } s).bnd fun v s1 => pass (s1.modMe (fun t => t.setP pd.toNat (f t v)))).outcome

/-! R164. -/

def execAdd (rd rs1 rs2 : RegField) (s : State) : Out := alu2 (.add rd rs1 rs2) rd rs1 rs2 (fun a b => a + b) s
def execSub (rd rs1 rs2 : RegField) (s : State) : Out := alu2 (.sub rd rs1 rs2) rd rs1 rs2 (fun a b => a - b) s
def execAnd (rd rs1 rs2 : RegField) (s : State) : Out := alu2 (.and rd rs1 rs2) rd rs1 rs2 (fun a b => a &&& b) s
def execAndn (rd rs1 rs2 : RegField) (s : State) : Out := alu2 (.andn rd rs1 rs2) rd rs1 rs2 (fun a b => a &&& ~~~b) s
def execOr (rd rs1 rs2 : RegField) (s : State) : Out := alu2 (.or rd rs1 rs2) rd rs1 rs2 (fun a b => a ||| b) s
def execXor (rd rs1 rs2 : RegField) (s : State) : Out := alu2 (.xor rd rs1 rs2) rd rs1 rs2 (fun a b => a ^^^ b) s
def execMin (rd rs1 rs2 : RegField) (s : State) : Out := alu2 (.min rd rs1 rs2) rd rs1 rs2 (fun a b => if b.slt a then b else a) s
def execMax (rd rs1 rs2 : RegField) (s : State) : Out := alu2 (.max rd rs1 rs2) rd rs1 rs2 (fun a b => if a.slt b then b else a) s
def execMinn (rd rs1 rs2 : RegField) (s : State) : Out := alu2 (.minn rd rs1 rs2) rd rs1 rs2 (fun a b => if b.ult a then b else a) s
def execMaxn (rd rs1 rs2 : RegField) (s : State) : Out := alu2 (.maxn rd rs1 rs2) rd rs1 rs2 (fun a b => if a.ult b then b else a) s

/-! R165. -/

def execAddi (rd rs1 : RegField) (imm : BitVec 13) (s : State) : Out := alu1 (.addi rd rs1 imm) rd rs1 (fun a => a + sx imm) s
def execAndi (rd rs1 : RegField) (imm : BitVec 13) (s : State) : Out := alu1 (.andi rd rs1 imm) rd rs1 (fun a => a &&& sx imm) s
def execOri (rd rs1 : RegField) (imm : BitVec 13) (s : State) : Out := alu1 (.ori rd rs1 imm) rd rs1 (fun a => a ||| sx imm) s
def execXori (rd rs1 : RegField) (imm : BitVec 13) (s : State) : Out := alu1 (.xori rd rs1 imm) rd rs1 (fun a => a ^^^ sx imm) s

/-! R166. -/

/-- The amount of a register shift: rs2 mod 64. -/
def amount (b : Word) : Nat := b.toNat % 64

def execSll (rd rs1 rs2 : RegField) (s : State) : Out := alu2 (.sll rd rs1 rs2) rd rs1 rs2 (fun a b => a <<< amount b) s
def execSrl (rd rs1 rs2 : RegField) (s : State) : Out := alu2 (.srl rd rs1 rs2) rd rs1 rs2 (fun a b => a >>> amount b) s
def execSra (rd rs1 rs2 : RegField) (s : State) : Out := alu2 (.sra rd rs1 rs2) rd rs1 rs2 (fun a b => a.sshiftRight (amount b)) s
def execRot (rd rs1 rs2 : RegField) (s : State) : Out := alu2 (.rot rd rs1 rs2) rd rs1 rs2 (fun a b => a.rotateRight (amount b)) s
def execSlli (rd rs1 sh : RegField) (s : State) : Out := alu1 (.slli rd rs1 sh) rd rs1 (fun a => a <<< sh.toNat) s
def execSrli (rd rs1 sh : RegField) (s : State) : Out := alu1 (.srli rd rs1 sh) rd rs1 (fun a => a >>> sh.toNat) s
def execSrai (rd rs1 sh : RegField) (s : State) : Out := alu1 (.srai rd rs1 sh) rd rs1 (fun a => a.sshiftRight sh.toNat) s
def execRoti (rd rs1 sh : RegField) (s : State) : Out := alu1 (.roti rd rs1 sh) rd rs1 (fun a => a.rotateRight sh.toNat) s

/-! R167, R168. -/

def execMul (rd rs1 rs2 : RegField) (s : State) : Out := alu2 (.mul rd rs1 rs2) rd rs1 rs2 (fun a b => a * b) s
/-- The signed product's high half: an arithmetic floor by 2^64 (R167). -/
def execMulh (rd rs1 rs2 : RegField) (s : State) : Out :=
  alu2 (.mulh rd rs1 rs2) rd rs1 rs2 (fun a b => BitVec.ofInt 64 (a.toInt * b.toInt / 2 ^ 64)) s
def execMulhn (rd rs1 rs2 : RegField) (s : State) : Out :=
  alu2 (.mulhn rd rs1 rs2) rd rs1 rs2 (fun a b => wd (a.toNat * b.toNat / 2 ^ 64)) s
def execDiv (rd rs1 rs2 : RegField) (s : State) : Out :=
  alu2 (.div rd rs1 rs2) rd rs1 rs2 (fun a b => if b = 0 then BitVec.allOnes 64 else BitVec.ofInt 64 (Int.tdiv a.toInt b.toInt)) s
def execDivn (rd rs1 rs2 : RegField) (s : State) : Out :=
  alu2 (.divn rd rs1 rs2) rd rs1 rs2 (fun a b => if b = 0 then BitVec.allOnes 64 else wd (a.toNat / b.toNat)) s
def execRem (rd rs1 rs2 : RegField) (s : State) : Out :=
  alu2 (.rem rd rs1 rs2) rd rs1 rs2 (fun a b => if b = 0 then a else BitVec.ofInt 64 (Int.tmod a.toInt b.toInt)) s
def execRemn (rd rs1 rs2 : RegField) (s : State) : Out :=
  alu2 (.remn rd rs1 rs2) rd rs1 rs2 (fun a b => if b = 0 then a else wd (a.toNat % b.toNat)) s

/-! R169. -/

/-- Leading zeros of the low n bits. -/
def clzN (v : Nat) : Nat → Nat
  | 0 => 0
  | n + 1 => if v / 2 ^ n % 2 = 1 then 0 else 1 + clzN v n
/-- Trailing zeros of n bits. -/
def ctzN (v : Nat) : Nat → Nat
  | 0 => 0
  | n + 1 => if v % 2 = 1 then 0 else 1 + ctzN (v / 2) n
/-- Ones among the low n bits. -/
def popN (v : Nat) : Nat → Nat
  | 0 => 0
  | n + 1 => v / 2 ^ n % 2 + popN v n
/-- The low n bits in reverse order. -/
def revN (v : Nat) : Nat → Nat
  | 0 => 0
  | n + 1 => v % 2 * 2 ^ n + revN (v / 2) n
/-- The low n bytes in reverse order. -/
def swapN (v : Nat) : Nat → Nat
  | 0 => 0
  | n + 1 => v % 256 * 256 ^ n + swapN (v / 256) n

def execClz (rd rs1 : RegField) (s : State) : Out := alu1 (.clz rd rs1) rd rs1 (fun a => wd (clzN a.toNat 64)) s
def execCtz (rd rs1 : RegField) (s : State) : Out := alu1 (.ctz rd rs1) rd rs1 (fun a => wd (ctzN a.toNat 64)) s
def execPopc (rd rs1 : RegField) (s : State) : Out := alu1 (.popc rd rs1) rd rs1 (fun a => wd (popN a.toNat 64)) s
def execBrev (rd rs1 : RegField) (s : State) : Out := alu1 (.brev rd rs1) rd rs1 (fun a => wd (revN a.toNat 64)) s
def execBswap (rd rs1 : RegField) (s : State) : Out := alu1 (.bswap rd rs1) rd rs1 (fun a => wd (swapN a.toNat 8)) s

/-! R170. -/

def execExtS (rd rs1 pos width : RegField) (s : State) : Out :=
  alu1 (.extS rd rs1 pos width) rd rs1 (fun a => BitVec.ofInt 64 (sextN (fld a pos.toNat (width.toNat + 1)) (width.toNat + 1))) s
def execExtn (rd rs1 pos width : RegField) (s : State) : Out :=
  alu1 (.extn rd rs1 pos width) rd rs1 (fun a => wd (fld a pos.toNat (width.toNat + 1))) s

/-- `d` with bits [pos + w - 1 : pos] replaced by the low w bits of `a`. -/
def insert (d a : Word) (pos w : Nat) : Word :=
  wd (d.toNat / 2 ^ (pos + w) * 2 ^ (pos + w) + a.toNat % 2 ^ w * 2 ^ pos + d.toNat % 2 ^ pos)

/-- INS reads rd, so a mark on it traps too. -/
def execInsF (rd rs1 pos width : RegField) (s : State) : Out :=
  ((issue (.insF rd rs1 pos width) { srcs := [rs1, rd] } s).bnd fun v s1 =>
    finish s1 s1 rd (insert (v.getD 1 0) (v.getD 0 0) pos.toNat (width.toNat + 1))).outcome

/-! R171, R172. -/

def execLih (rd : RegField) (imm : BitVec 19) (s : State) : Out := alu0 (.lih rd imm) rd (fun _ => sx imm <<< 13) s
def execAddpc (rd : RegField) (imm : BitVec 19) (s : State) : Out := alu0 (.addpc rd imm) rd (fun t => t.pc + sx imm <<< 13) s
def execCsel (rd rs1 rs2 : RegField) (ps : BitVec 3) (s : State) : Out :=
  ((issue (.csel rd rs1 rs2 ps) { srcs := [rs1, rs2], dst := some rd } s).bnd fun v s1 =>
    finish s1 s1 rd (if s1.mine.pr ps.toNat then v.getD 0 0 else v.getD 1 0)).outcome

/-! R173, R174. -/

def execCmp (pd : BitVec 3) (rs1 rs2 : RegField) (cc : BitVec 3) (s : State) : Out :=
  predOut (.cmp pd rs1 rs2 cc) [rs1, rs2] pd (fun _ v => test cc.toNat (v.getD 0 0) (v.getD 1 0)) s
def execCmpi (pd cc : BitVec 3) (rs1 : RegField) (imm : BitVec 13) (s : State) : Out :=
  predOut (.cmpi pd cc rs1 imm) [rs1] pd (fun _ v => test cc.toNat (v.getD 0 0) (sx imm)) s
def execPand (pd ps1 ps2 : BitVec 3) (s : State) : Out :=
  predOut (.pand pd ps1 ps2) [] pd (fun t _ => t.pr ps1.toNat && t.pr ps2.toNat) s
def execPor (pd ps1 ps2 : BitVec 3) (s : State) : Out :=
  predOut (.por pd ps1 ps2) [] pd (fun t _ => t.pr ps1.toNat || t.pr ps2.toNat) s
def execPxor (pd ps1 ps2 : BitVec 3) (s : State) : Out :=
  predOut (.pxor pd ps1 ps2) [] pd (fun t _ => t.pr ps1.toNat != t.pr ps2.toNat) s
def execPandn (pd ps1 ps2 : BitVec 3) (s : State) : Out :=
  predOut (.pandn pd ps1 ps2) [] pd (fun t _ => t.pr ps1.toNat && !t.pr ps2.toNat) s
def execPset (pd : BitVec 3) (rs1 : RegField) (s : State) : Out :=
  predOut (.pset pd rs1) [rs1] pd (fun _ v => v.getD 0 0 != 0) s
def execPget (rd : RegField) (s : State) : Out := alu0 (.pget rd) rd predWord s

/-! R175-R177. -/

/-- A branch: to pc + 2 OFF when taken, else to the next instruction. -/
def branch (i : Instr) (srcs : List RegField) (off : BitVec 13) (taken : Slot → List Word → Bool) (s : State) : Out :=
  ((issue i { srcs := srcs } s).bnd fun v s1 =>
    if taken s1.mine v then .go () (jumpTo s1 s1.me (s1.mine.pc + sx off <<< 1)) else pass s1).outcome

def execBp (ps : BitVec 3) (off : BitVec 13) (s : State) : Out := branch (.bp ps off) [] off (fun t _ => t.pr ps.toNat) s
def execBnp (ps : BitVec 3) (off : BitVec 13) (s : State) : Out := branch (.bnp ps off) [] off (fun t _ => !t.pr ps.toNat) s
def execCbz (rs1 : RegField) (off : BitVec 13) (s : State) : Out := branch (.cbz rs1 off) [rs1] off (fun _ v => v.getD 0 0 == 0) s
def execCbnz (rs1 : RegField) (off : BitVec 13) (s : State) : Out := branch (.cbnz rs1 off) [rs1] off (fun _ v => v.getD 0 0 != 0) s

/-- Write the link pc + 4 and go on at the target. -/
def link (s : State) (rd : RegField) (target : Word) : Res Unit :=
  (writeRd s s rd (s.mine.pc + 4)).bnd fun _ s1 => .go () (jumpTo s1 s1.me target)

def execJal (rd : RegField) (imm : BitVec 19) (s : State) : Out :=
  ((issue (.jal rd imm) { dst := some rd } s).bnd fun _ s1 => link s1 rd (s1.mine.pc + sx imm <<< 1)).outcome
def execJalr (rd rs1 : RegField) (imm : BitVec 13) (s : State) : Out :=
  ((issue (.jalr rd rs1 imm) { srcs := [rs1], dst := some rd } s).bnd fun v s1 =>
    link s1 rd ((v.getD 0 0 + sx imm) &&& ~~~1#64)).outcome

/-! R153, R179. -/

def execNop (s : State) : Out := ((issue .nop {} s).bnd fun _ s1 => pass s1).outcome

def execTret (s : State) : Out :=
  ((issue .tret {} s).bnd fun _ s1 =>
    if !s1.mine.mode && s1.mine.dh then .go () (s1.modMe tretSlot) else trapRes s1 .illegalOp (encodingOf .tret)).outcome

end Sys2Proof.Machine
end

