-- ==== Sys2Proof/Machine/Memory.lean ====
section
/-! DEFINITION. Scalar loads, stores, prefetch, atomics and reductions (R182-R186, R195-R197). -/

namespace Sys2Proof.Machine

/-- The first place of an access. -/
def placeOf (ps : List Place) : Place := ps.headD (.sram 0)

/-- Bytes as a load extends them (R182). -/
def extend (bs : List Byte) (signed : Bool) : Word :=
  if signed then BitVec.ofInt 64 (sextN (leNat bs) (8 * bs.length)) else wd (leNat bs)

/-- A peer's answer is awaited; the operation has left (R106, R425). -/
def awaitPeer (s : State) (op : PeerWait) : Res Unit := waitHere s (.peer op false)

/-- The value a load writes, or its address under a mark (R187). -/
def loaded (bs : List Byte) (bad signed : Bool) (a : Word) : Word := if bad then a else extend bs signed

/-- A scalar load of n bytes (R182, R183). -/
def loadOp (i : Instr) (rd rs1 : RegField) (imm : BitVec 13) (n : Nat) (signed : Bool) (s : State) : Out :=
  ((issue i { srcs := [rs1], dst := some rd } s).bnd fun v s1 =>
    let a := v.getD 0 0 + sx imm
    (checkAccess s1 [{ a := a, n := n }] .load false).bnd fun ps s2 =>
    (holdLoad s2 [(placeOf ps, n)]).bnd fun _ s3 =>
    match placeOf ps with
    | .peer p pa =>
      awaitPeer (sendPeer s3 p s3.mine.rtag s3.curCore (.load n) pa [] 0) (.load [(rd.toNat, 0)] a n signed)
    | p =>
      let (bs, bad, s4) := readPlace s3 s3.curCore p n
      .go () (writeBack s4 s4.me [(rd.toNat, loaded bs bad signed a, bad)])).outcome

/-- A store of bytes (R182, R183, R186). -/
def storeBytes (s : State) (a : Word) (bs : List Byte) : Res Unit :=
  (checkAccess s [{ a := a, n := bs.length }] .store true).bnd fun ps s2 =>
  (holdAccess s2 [(placeOf ps, bs.length)] true).bnd fun _ s3 =>
  if logFull s3 (placeOf ps) then waitLog s3 (placeOf ps) ps 1
  else pass (storeElem s3 (placeOf ps) bs .store)

/-- A scalar store of n bytes. -/
def storeOp (i : Instr) (imm : BitVec 13) (rs1 rs2 : RegField) (n : Nat) (s : State) : Out :=
  ((issue i { srcs := [rs1, rs2] } s).bnd fun v s1 =>
    storeBytes s1 (v.getD 0 0 + sx imm) (leBytes (v.getD 1 0).toNat n)).outcome

def execLdS8 (rd rs1 : RegField) (imm : BitVec 13) (s : State) : Out := loadOp (.ldS8 rd rs1 imm) rd rs1 imm 1 true s
def execLdN8 (rd rs1 : RegField) (imm : BitVec 13) (s : State) : Out := loadOp (.ldN8 rd rs1 imm) rd rs1 imm 1 false s
def execLdS16 (rd rs1 : RegField) (imm : BitVec 13) (s : State) : Out := loadOp (.ldS16 rd rs1 imm) rd rs1 imm 2 true s
def execLdN16 (rd rs1 : RegField) (imm : BitVec 13) (s : State) : Out := loadOp (.ldN16 rd rs1 imm) rd rs1 imm 2 false s
def execLdS32 (rd rs1 : RegField) (imm : BitVec 13) (s : State) : Out := loadOp (.ldS32 rd rs1 imm) rd rs1 imm 4 true s
def execLdN32 (rd rs1 : RegField) (imm : BitVec 13) (s : State) : Out := loadOp (.ldN32 rd rs1 imm) rd rs1 imm 4 false s
def execLdD64 (rd rs1 : RegField) (imm : BitVec 13) (s : State) : Out := loadOp (.ldD64 rd rs1 imm) rd rs1 imm 8 false s
def execStN8 (imm : BitVec 13) (rs1 rs2 : RegField) (s : State) : Out := storeOp (.stN8 imm rs1 rs2) imm rs1 rs2 1 s
def execStN16 (imm : BitVec 13) (rs1 rs2 : RegField) (s : State) : Out := storeOp (.stN16 imm rs1 rs2) imm rs1 rs2 2 s
def execStN32 (imm : BitVec 13) (rs1 rs2 : RegField) (s : State) : Out := storeOp (.stN32 imm rs1 rs2) imm rs1 rs2 4 s
def execStD64 (imm : BitVec 13) (rs1 rs2 : RegField) (s : State) : Out := storeOp (.stD64 imm rs1 rs2) imm rs1 rs2 8 s

/-- LDX: the halves into an even pair, each marked by itself (R184, R187). -/
def execLdx (rd rs1 : RegField) (imm : BitVec 13) (s : State) : Out :=
  ((issue (.ldx rd rs1 imm) { srcs := [rs1] } s).bnd fun v s1 =>
    let a := v.getD 0 0 + sx imm
    (checkAccess s1 [{ a := a, n := 16 }] .load false).bnd fun ps s2 =>
    (holdLoad s2 [(placeOf ps, 16)]).bnd fun _ s3 =>
    match placeOf ps with
    | .peer p pa =>
      awaitPeer (sendPeer s3 p s3.mine.rtag s3.curCore (.load 16) pa [] 0) (.load [(rd.toNat, 0), (rd.toNat + 1, 8)] a 16 false)
    | p =>
      let badLo := anyBad s3 s3.curCore p.loc 8
      let badHi := anyBad s3 s3.curCore (p.loc + 8) 8
      let (bs, _, s4) := readPlace s3 s3.curCore p 16
      let t := fun (t : Slot) =>
        (t.setX rd.toNat (loaded (bs.take 8) badLo false a) badLo).setX (rd.toNat + 1) (loaded (bs.drop 8) badHi false (a + 8)) badHi
      pass (s4.modMe t)).outcome

/-- STX: an even pair as one 16-byte access (R184). The second register of the pair is read too (R187). -/
def execStx (imm : BitVec 13) (rs1 rs2 : RegField) (s : State) : Out :=
  ((issue (.stx imm rs1 rs2) { srcs := [rs1, rs2, if pairOk rs2 then rs2 + 1 else rs2] } s).bnd fun v s1 =>
    storeBytes s1 (v.getD 0 0 + sx imm) (leBytes (v.getD 1 0).toNat 8 ++ leBytes (v.getD 2 0).toNat 8)).outcome

/-- PREF of an address would send a walk, or fill a line that its core's L1 does not hold (R393, R416). -/
def prefBeyond (s : State) (va : Nat) : Bool :=
  match tlbFind s s.curCore va with
  | some t => permits t.leaf .load (!s.mine.mode) && cached t.leaf && !s.here.l1.contains (lineNo (t.pa + va % 2 ^ t.log2))
  | none => true

/-- PREF: a fill where a cacheable global address translates without a fault; otherwise nothing (R185). R78 has it trap ATTRMIX on a core with no L1, where
R185 and R392 say that it never traps and has no effect there: the model follows these two, DEDUCED, log 51. One that would walk or fill beyond its cluster waits
while the cluster's requests are at their cap (R416). -/
def execPref (rs1 : RegField) (imm : BitVec 13) (s : State) : Out :=
  ((issue (.pref rs1 imm) { srcs := [rs1] } s).bnd fun v s1 =>
    let a := v.getD 0 0 + sx imm
    if spaceOf a = .global && hasL1 s1.here && capReached s1 (clusterOf s1.curCore) && prefBeyond s1 (fld a 0 56) then waitHere s1 .cap
    else if spaceOf a = .global && hasL1 s1.here then
      match translate s1 s1.curCore (fld a 0 56) .load (!s1.mine.mode) with
      | (.ok pa leaf _, s2) =>
        let (granted, s3) := atsTranslate s2 pa
        pass (if cached leaf && granted then bringLine s3 s3.curCore (lineNo pa) else s1)
      | _ => pass s1
    else pass s1).outcome

/-! Atomics (R149, R195, R196). -/

/-- The scope ORD publishes at before, and refreshes at after (R149). -/
def ordRel (ord : Nat) : Option Scope :=
  match ord with
  | 2 => some .dev
  | 4 => some .cl
  | 6 => some .sys
  | _ => none
def ordAcq (ord : Nat) : Option Scope :=
  match ord with
  | 1 => some .dev
  | 3 => some .cl
  | 5 => some .sys
  | _ => none

/-- The implied publish of an ORD field. -/
def release (s : State) (ord : Nat) : Res Unit :=
  match ordRel ord with
  | some sc => publish s sc
  | none => .go () s

/-- The implied refresh of an ORD field. -/
def acquire (s : State) (ord : Nat) : State :=
  match ordAcq ord with
  | some sc => refresh s sc
  | none => s

/-- The die where an atomic at a place is performed (R196). -/
def atomicDie (s : State) (p : Place) : Nat :=
  match p with
  | .global _ pa leaf _ => if cached leaf then dieOf s.curCore else homeDie pa
  | _ => dieOf s.curCore

/-- The atomic's line is not held by its core, so that its request would go beyond the cluster while the cap is reached (R108, R416). -/
def lineCapped (s : State) (p : Place) : Bool :=
  match p with
  | .global _ pa leaf _ => cached leaf && !heldHere s s.curCore (lineNo pa) && capReached s (clusterOf s.curCore)
  | _ => false

/-- A part of an operation whose checks are done: while it waits there the operation keeps the places found, whatever changes (R77, R93). -/
def keepPlaces (ps : List Place) (r : Res Unit) : Res Unit :=
  match r with
  | .go a s1 => .go a s1
  | .stop s1 => .stop (s1.modMe (fun t => { t with checked := some ps }))

/-- The implied publish of an operation that is to be performed at a place. -/
def releaseAt (s : State) (p : Place) (ord : Nat) : Res Unit := keepPlaces [p] (release s ord)

/-- Checks, holds and implied publish of an atomic on n bytes. One whose request's annulment point is known where it would be performed is dropped; its
slot is about to end (R64). -/
def atomicReady (s : State) (a : Word) (n ord : Nat) (logs : Bool) : Res Place :=
  (checkAccess s [{ a := a, n := n }] .atomic logs).bnd fun ps s2 =>
  (holdAccess s2 [(placeOf ps, n)] true).bnd fun _ s3 =>
  if logFull s3 (placeOf ps) then waitLog s3 (placeOf ps) ps 2
  else if lineCapped s3 (placeOf ps) then holdIssued s3 ps .cap
  else if annulKnown s3 s3.mine.rtag (atomicDie s3 (placeOf ps)) then waitHere s3 .turn
  else (releaseAt s3 (placeOf ps) ord).bnd fun _ s4 => .go (placeOf ps) s4

/-- A reduction with .acq, logged or sent under a number, is not yet performed: until it is, and its refresh done, the core's later loads wait (R196). `n` is
its place in the issue order. -/
def pendAcq (s : State) (ord num n : Nat) : State :=
  match ordAcq ord with
  | some sc => s.modCore s.curCore (fun k => { k with acqs := k.acqs ++ [{ num := num, order := n, refreshes := sc != .cl }] })
  | none => s

/-- An AMO or CAS: `f` of the old value is written, the old value returned; at a peer the work is sent and the answer awaited. While its slot waits in it, one
with .acq holds back the core's later loads (`acqBefore`). On bytes in error it gives rd its address under the mark and writes `f` of the bytes as they stand, with fresh
check bits: R187 speaks of loads and R195 of no error, DESIGN CHOICE, log 78. -/
def amoOp (i : Instr) (rd : RegField) (srcs : List RegField) (dst : Option RegField) (n : Nat) (ord : Nat)
    (f : List Word → Nat → Nat) (op : List Word → PeerOp) (data cmp : List Word → Word) (s : State) : Out :=
  ((issue i { srcs := srcs, dst := dst } s).bnd fun v s1 =>
    let a := v.getD 0 0
    (atomicReady s1 a n ord false).bnd fun p s2 =>
    match p with
    | .peer q pa =>
      awaitPeer (sendPeer s2 q s2.mine.rtag s2.curCore (op v) pa (leBytes (data v).toNat n) (cmp v)) (.atomic rd.toNat a n ord)
    | p =>
      let bad := anyBad s2 s2.curCore p.loc n
      let (old, s3) := atomicAt s2 s2.curCore s2.me p n (f v)
      let s4 := acquire s3 ord
      if bad then .go () (writeBack s4 s4.me [(rd.toNat, a, true)])
      else finish s1 s4 rd (wd old)).outcome

/-- A reduction: no result; a fault retires it into the side log, a peer gets it without an answer (R195, R197). With .acq the core refreshes once it is
performed: on its replay from the log, or on the peer's acknowledgement (R196). -/
def redOp (i : Instr) (srcs : List RegField) (n ord : Nat) (f : Nat → Nat → Nat) (lop : LogOp) (pop : PeerOp) (s : State) : Out :=
  ((issue i { srcs := srcs } s).bnd fun v s1 =>
    let a := v.getD 0 0
    let x := (v.getD 1 0).toNat % 2 ^ (8 * n)
    (atomicReady s1 a n ord true).bnd fun p s2 =>
    pass (match p with
      | .peer q pa =>
        let s3 := notePeer (sendPeer s2 q s2.mine.rtag s2.curCore pop pa (leBytes x n) 0) q s2.curCore
        if s3.here.peerOut.any (fun e => e.1 = s2.nextId) then pendAcq s3 ord s2.nextId (issueOrder s2) else acquire s3 ord
      | .logged va why =>
        let s3 := logElem s2 va why (leBytes x n) lop .atomic
        if s3.here.sideLog.any (fun e => e.id = s2.nextId) then pendAcq s3 ord s2.nextId (issueOrder s2) else acquire s3 ord
      | p => acquire (atomicAt s2 s2.curCore s2.me p n (fun old => f old x)).2 ord)).outcome

def execAmo32 (rd rs1 rs2 : RegField) (ord : BitVec 3) (op : BitVec 4) (s : State) : Out :=
  amoOp (.amo32 rd rs1 rs2 ord op) rd [rs1, rs2] (some rd) 4 ord.toNat
    (fun v old => amoFn op.toNat 4 old ((v.getD 1 0).toNat % 2 ^ 32)) (fun _ => .amo op.toNat 4) (fun v => v.getD 1 0) (fun _ => 0) s
def execAmo64 (rd rs1 rs2 : RegField) (ord : BitVec 3) (op : BitVec 4) (s : State) : Out :=
  amoOp (.amo64 rd rs1 rs2 ord op) rd [rs1, rs2] (some rd) 8 ord.toNat
    (fun v old => amoFn op.toNat 8 old (v.getD 1 0).toNat) (fun _ => .amo op.toNat 8) (fun v => v.getD 1 0) (fun _ => 0) s
/-- CAS reads rd as the compare value. A compare that fails still counts as a write, with the value unchanged. -/
def execCas (rd rs1 rs2 : RegField) (ord : BitVec 3) (size : BitVec 1) (s : State) : Out :=
  let n := if size = 1#1 then 8 else 4
  amoOp (.cas rd rs1 rs2 ord size) rd [rs1, rs2, rd] none n ord.toNat
    (fun v old => if old = (v.getD 2 0).toNat % 2 ^ (8 * n) then (v.getD 1 0).toNat % 2 ^ (8 * n) else old)
    (fun _ => .cas n) (fun v => v.getD 1 0) (fun v => v.getD 2 0) s
def execRed32 (rs1 rs2 : RegField) (ord : BitVec 3) (op : BitVec 4) (s : State) : Out :=
  redOp (.red32 rs1 rs2 ord op) [rs1, rs2] 4 ord.toNat (fun old v => amoFn op.toNat 4 old v) (.red op.toNat) (.red op.toNat 4) s
def execRed64 (rs1 rs2 : RegField) (ord : BitVec 3) (op : BitVec 4) (s : State) : Out :=
  redOp (.red64 rs1 rs2 ord op) [rs1, rs2] 8 ord.toNat (fun old v => amoFn op.toNat 8 old v) (.red op.toNat) (.red op.toNat 8) s
def execFred (rs1 rs2 : RegField) (ord : BitVec 3) (ty : BitVec 1) (s : State) : Out :=
  let n := if ty = 1#1 then 2 else 4
  redOp (.fred rs1 rs2 ord ty) [rs1, rs2] n ord.toNat (fun old v => fredFn (ty = 1#1) old v) (.fred (ty = 1#1)) (.fred (ty = 1#1)) s

end Sys2Proof.Machine
end

