-- ==== Sys2Proof/Machine/Tagged.lean ====
section
/-! DEFINITION. Tagged-word instructions, their deferral, backoff, wait limit and withdrawal (R189-R193). -/

namespace Sys2Proof.Machine

/-- A set of numbers with one added, in rising order. -/
def addNat (n : Nat) : List Nat → List Nat
  | [] => [n]
  | a :: r => if a < n then a :: addNat n r else if a = n then a :: r else n :: a :: r

/-- The tag of the word at a physical address (R84). -/
def State.full (s : State) (pa : Nat) : Bool := s.tags.contains pa
def State.setTag (s : State) (pa : Nat) (b : Bool) : State :=
  { s with tags := if b then addNat pa s.tags else s.tags.filter (· != pa) }

/-- The condition an operation waits for (R189). -/
def tagReady (op : Nat) (full : Bool) : Bool :=
  match op with
  | 0 => full
  | 1 => full
  | 2 => !full
  | _ => true

/-- Perform an operation at its home slice: its answer, whether the word carries an error, and the state. -/
def tagPerform (s : State) (c : Nat) (w : TagOp) : Word × Bool × State :=
  let bad := (List.range 8).any (fun i => s.bad.contains (w.pa + i))
  let v := read64 s.mem w.pa
  match w.op with
  | 0 => (if bad then w.addr else v, bad, s)
  | 1 => (if bad then w.addr else v, bad, s.setTag w.pa false)
  | 2 => (0, false, (publishCells s (cellsAt w.pa (leBytes w.value.toNat 8)) 0 (some c) none).setTag w.pa true)
  | 3 => (0, false, (publishCells s (cellsAt w.pa (leBytes w.value.toNat 8)) 0 (some c) none).setTag w.pa true)
  | _ => (wd (b2n (s.full w.pa)), false, s)

/-- The slice performs the earliest deferral on the word whose condition holds, again and again (R190). One of a request whose annulment point the slice's
die knows is never performed (R64). -/
def settleTag (s : State) (pa : Nat) : Nat → State
  | 0 => s
  | f + 1 =>
    match s.deferred.find? (fun d => d.w.pa = pa && tagReady d.w.op (s.full pa) && !annulKnown s (s.slot d.g).rtag (d.slice / 128)) with
    | none => s
    | some d =>
      let (v, bad, s1) := tagPerform { s with deferred := s.deferred.erase d } (coreOf d.g) d.w
      let s2 := (s1.modSlot d.g (fun t => { t with wait := some (.tagAnswer d.w v bad) })).post (.taggedOpComplete d.g)
      settleTag s2 pa f

/-- Every deferral on the word that can proceed does. -/
def settle (s : State) (pa : Nat) : State := settleTag s pa s.deferred.length

/-- The answer is written, and the slot goes on at its next instruction. -/
def tagFinish (s : State) (g : Nat) (w : TagOp) (v : Word) (bad : Bool) : State :=
  writeBack s g (if w.op = 2 ∨ w.op = 3 then [] else [(w.rd, v, bad)])

/-- Cycles of backoff after n NACKs (R191). -/
def backoff (n : Nat) : Nat := min 4096 (16 * 2 ^ (n - 1))

/-- Nanoseconds after which n cycles have passed (R381). -/
def nsOf (n : Nat) : Nat := (5 * n + 11) / 12

/-- The request reaches the home slice: performed at once, deferred, or NACKed with `naks` NACKs before it (R190, R191). One whose request's annulment
point is known there is dropped; its slot is about to end (R64). -/
def tagRequest (s : State) (g : Nat) (w : TagOp) (naks : Nat) : State :=
  if annulKnown s (s.slot g).rtag (homeDie w.pa) then waitSlot s g .turn
  else if tagReady w.op (s.full w.pa) then
    let (v, bad, s1) := tagPerform s (coreOf g) w
    tagFinish (settle s1 w.pa) g w v bad
  else if (s.deferred.filter (fun d => d.slice = homeSlice w.pa)).length < 64 then
    waitSlot { s with deferred := s.deferred ++ [{ slice := homeSlice w.pa, w := w, g := g }] } g (.tagged w true naks 0)
  else waitSlot s g (.tagged w false (naks + 1) (s.time + nsOf (backoff (naks + 1))))

/-- A tagged-word instruction (R189): R90's checks with n = 8, then its request. -/
def tagOp (i : Instr) (k : Issue) (op : Nat) (rd : RegField) (acc : Access) (s : State) : Out :=
  ((issue i k s).bnd fun v s1 =>
    let a := v.getD 0 0
    (checkAccess s1 [{ a := a, n := 8 }] acc false).bnd fun ps s2 =>
    (if acc == .tagStore then holdAccess s2 [(placeOf ps, 8)] true else holdLoad s2 [(placeOf ps, 8)]).bnd fun _ s3 =>
      let s4 := if acc == .tagStore then markDirty s3 s3.curCore (placeOf ps) else s3
      (.go () (tagRequest s4 s4.me { op := op, rd := rd.toNat, addr := a, pa := (placeOf ps).loc, value := v.getD 1 0 } 0) : Res Unit)).outcome

def execLdfull (rd rs1 : RegField) (s : State) : Out := tagOp (.ldfull rd rs1) { srcs := [rs1], dst := some rd } 0 rd .tagLoad s
def execLdtake (rd rs1 : RegField) (s : State) : Out := tagOp (.ldtake rd rs1) { srcs := [rs1], dst := some rd } 1 rd .tagLoad s
def execStfill (rs1 rs2 : RegField) (s : State) : Out := tagOp (.stfill rs1 rs2) { srcs := [rs1, rs2] } 2 0 .tagStore s
def execStforce (rs1 rs2 : RegField) (s : State) : Out := tagOp (.stforce rs1 rs2) { srcs := [rs1, rs2] } 3 0 .tagStore s
def execTagrd (rd rs1 : RegField) (s : State) : Out := tagOp (.tagrd rd rs1) { srcs := [rs1], dst := some rd } 4 rd .tagLoad s

/-! Events. Each acts only where it is due; otherwise nothing happens. -/

/-- The events' guard: the unit exists, or the model stops (`noSuchUnit`). -/
def eventOf (ok : Bool) (f : State → State) (s : State) : Out := if ok then .next (f s) else .fault .noSuchUnit

/-- The request is sent again, its address translated again if its translation has been invalidated (R363); where it no longer translates to a tagged page the
instruction goes on from its checks. -/
def tagResend (s : State) (g : Nat) (w : TagOp) (naks : Nat) : State :=
  if !w.stale then tagRequest s g w naks
  else
    let c := coreOf g
    match translate s c (fld w.addr 0 56) (if w.op = 2 ∨ w.op = 3 then .tagStore else .tagLoad) (!(s.slot g).mode) with
    | (.ok pa leaf _, s1) =>
      let (granted, s2) := atsTranslate s1 pa
      if granted && leafTg leaf then tagRequest s2 g { w with pa := pa, stale := false } naks else s2.modSlot g Slot.goesOn
    | (_, s1) => s1.modSlot g Slot.goesOn

/-- The request of a slot is held back: its cluster's requests are at their cap (R416). -/
def resendCapped (s : State) (g : Nat) : Bool := capReached s (clusterOf (coreOf g))

/-- The backoff is over: the request is sent again, while the cap lets it, but not for a slot that is being preempted (R50, R193). -/
def execTwBackoffExpiry (g : Nat) (s : State) : Out :=
  eventOf (decide (g < 32768)) (fun s =>
    match (s.slot g).wait with
    | some (.tagged w false n r) => if r ≤ s.time && !isVictim s g && !resendCapped s g then tagResend s g w n else s
    | _ => s) s

/-- The result of a performed deferral returns to its slot. -/
def execTaggedOpComplete (g : Nat) (s : State) : Out :=
  eventOf (decide (g < 32768)) (fun s =>
    match (s.slot g).wait with
    | some (.tagAnswer w v bad) => tagFinish s g w v bad
    | _ => s) s

/-- The address of a governed tagged-word instruction that has issued and is still held at its core: by the cap, by an earlier .acq, or by a full dirty log
(R192). -/
def governedHeld (t : Slot) : Option Word :=
  let atCore := match t.wait with | some .cap => true | some .acquire => true | some .dirtyLog => true | some .turn => true | _ => false
  let addr := fun (rs1 : RegField) => ((sourceValues t [rs1] t.held).headD (0, false)).1
  match t.issued with
  | some (.ldfull _ rs1, _) => if atCore then some (addr rs1) else none
  | some (.ldtake _ rs1, _) => if atCore then some (addr rs1) else none
  | some (.stfill rs1 _, _) => if atCore then some (addr rs1) else none
  | _ => none

/-- A governed wait has reached WAITLIM (R192, R193). -/
def waitLimit (s : State) (g : Nat) : State :=
  let t := s.slot g
  if t.waitlim != 0 && decide (t.waitlim.toNat ≤ s.waited t) then
    match t.wait with
    | some (.tagged w true _ _) => (s.modSlot g (fun t => { t with wait := some (.withdrawn w .limit) })).post (.withdrawalAnswer g)
    | some (.tagged w false _ _) => trapAt s g .waitlimit t.pc w.addr
    | some (.barrier b) => if t.state = .waiting then trapAt s g .waitlimit t.pc (wd b) else s
    | _ =>
      match governedHeld t with
      | some a => trapAt s g .waitlimit t.pc a
      | none => s
  else s

def execWaitLimitExpiry (g : Nat) (s : State) : Out := eventOf (decide (g < 32768)) (waitLimit · g) s

/-- The answer to a withdrawal: the deferral is gone with nothing performed, and the wait ends for its reason (R193). A deferral performed
first has made the wait a `tagAnswer`, and this answer changes nothing. -/
def withdrawal (s : State) (g : Nat) : State :=
  match (s.slot g).wait with
  | some (.withdrawn w why) =>
    let s1 : State := { s with deferred := s.deferred.filter (fun d => d.g != g) }
    match why with
    | .limit => trapAt s1 g .waitlimit (s1.slot g).pc w.addr
    | _ => (undoIssue s1 g).modSlot g (fun t => { t with wait := none, state := .ready, inst := none })
  | _ => s

def execWithdrawalAnswer (g : Nat) (s : State) : Out := eventOf (decide (g < 32768)) (withdrawal · g) s

end Sys2Proof.Machine
end

