-- ==== Sys2Proof/Machine/Sync.lean ====
section
/-! DEFINITION. PHASE, monitors and barriers (R198-R210), with their events. -/

namespace Sys2Proof.Machine

/-! PHASE (R198). -/

/-- The scope field. -/
def scopeOf (b : BitVec 2) : Scope :=
  match b.toNat with
  | 0 => .cl
  | 1 => .dev
  | _ => .sys

def execPhase (scope half : BitVec 2) (s : State) : Out :=
  ((issue (.phase scope half) {} s).bnd fun _ s1 =>
    (if half = 2#2 then .go () s1 else publish s1 (scopeOf scope)).bnd fun _ s2 =>
    pass (if half = 1#2 then s2 else refresh s2 (scopeOf scope))).outcome

/-- The peers' acknowledgements that a publish waits for have arrived (R102); a reduction with .acq among them is performed, and the core refreshes
(R196). -/
def execPublishComplete (g : Nat) (s : State) : Out :=
  eventOf (decide (g < 32768)) (fun s =>
    let c := coreOf g
    let bound := (s.slot g).awaits.getD s.nextId
    let came := (s.core c).peerOut.filter (fun e => decide (e.1 < bound))
    let s1 := (came.foldl (fun s e => acquired s c e.1) s).modCore c (fun k => { k with
      peerOut := k.peerOut.filter (fun e => !decide (e.1 < bound)) })
    s1.modSlot g (fun t => if t.wait = some .publish then { t with state := .ready } else t)) s

/-! Monitors (R199-R204). -/

/-- Line number of a virtual address. -/
def vaLine (a : Word) : Nat := fld a 7 49

/-- The lowest monitor entry not armed. -/
def freeMonitor (t : Slot) : Option Nat := (List.range 4).find? (fun i => !t.monitors.any (fun m => m.1 = i))

/-- Arm an entry on a line: its written bit is cleared (R200). -/
def armAt (t : Slot) (i va pa : Nat) : Slot :=
  { t with monitors := put i (va, pa) t.monitors, written := t.written &&& ~~~(BitVec.ofNat 4 (2 ^ i)) }

def execMonarm (rd rs1 : RegField) (s : State) : Out :=
  ((issue (.monarm rd rs1) { srcs := [rs1], dst := some rd } s).bnd fun v s1 =>
    let a := v.getD 0 0
    (checkAccess s1 [{ a := a, n := 8 }] .monarm false).bnd fun ps s2 =>
    match s2.mine.monitors.find? (fun m => m.2.1 = vaLine a) with
    | some m => finish s1 s2 rd (wd m.1)
    | none =>
      match freeMonitor s2.mine with
      | some i => finish s1 (s2.modMe (fun t => armAt t i (vaLine a) (lineNo (placeOf ps).loc))) rd (wd i)
      | none => finish s1 s2 rd (BitVec.allOnes 64)).outcome

/-- A message is queued in a class bound to the slot (R202): in its class queue. One that has moved on into the class's MSGQ Hatch is no longer queued,
DEDUCED, log 52. -/
def messageQueued (k : Core) (slot : Nat) : Bool :=
  k.classes.any (fun c => c.2.mode = .bound && c.2.slot = slot && !c.2.queue.isEmpty)

/-- MONWAIT's result if the wait ends now (R202, R204), `late` that the timeout has elapsed; one of 0 has once no other cause holds. -/
def monResult (k : Core) (slot : Nat) (t : Slot) (late : Bool) : Option Word :=
  let msg := messageQueued k slot
  let lines := t.written.toNat
  if t.rearm then some (wd (8 + 4 * b2n msg))
  else if t.monitors.isEmpty || msg || lines != 0 || late then
    some (wd (lines * 256 + at_ (b2n t.monitors.isEmpty) 4 + 4 * b2n msg + 2 * b2n late + b2n (lines != 0)))
  else none

def execMonwait (rd rs1 : RegField) (s : State) : Out :=
  ((issue (.monwait rd rs1) { srcs := [rs1], dst := some rd } s).bnd fun v s1 =>
    let limit := (v.getD 0 0).toNat
    let t := s1.mine
    let other := (monResult s1.here s1.curSlot t false).isSome
    match monResult s1.here s1.curSlot t (if limit = 0 then !other else decide (limit ≤ s1.sinceIssue t)) with
    | some r => finish s1 (s1.modMe (fun t => { t with written := if t.rearm then t.written else 0, rearm := false })) rd r
    | none => waitHere s1 (.monitor s1.time limit)).outcome

def execMonclr (rs1 : RegField) (s : State) : Out :=
  ((issue (.monclr rs1) { srcs := [rs1] } s).bnd fun v s1 =>
    let a := v.getD 0 0
    if rs1 = 0#6 then pass (s1.modMe (fun t => { t with monitors := [], written := 0 }))
    else (need s1 (spaceOf a != .none) .noncanon a).bnd fun _ s2 =>
      pass (s2.modMe (fun t =>
        match t.monitors.find? (fun m => m.2.1 = vaLine a && spaceOf a = .global) with
        | some m => { t with monitors := drop m.1 t.monitors, written := t.written &&& ~~~(BitVec.ofNat 4 (2 ^ m.1)) }
        | none => t))).outcome

/-- A write to an armed line reaches the core: the entry's bit is set and a wait on it ends (R201). -/
def execMonitorWake (g entry : Nat) (s : State) : Out :=
  eventOf (decide (g < 32768) && decide (entry < 4)) (fun s => s.modSlot g (fun t =>
    if t.monitors.any (fun m => m.1 = entry) then
      { t with written := t.written ||| BitVec.ofNat 4 (2 ^ entry)
               state := match t.wait with | some (.monitor _ _) => .ready | _ => t.state }
    else t)) s

/-- The timeout has elapsed: the slot's turn ends the wait with TIMEOUT (R202). -/
def execMonwaitTimeout (g : Nat) (s : State) : Out :=
  eventOf (decide (g < 32768)) (fun s => s.modSlot g (fun t =>
    match t.wait with
    | some (.monitor _ limit) => if limit ≤ s.waited t then { t with state := .ready } else t
    | _ => t)) s

/-! Barriers (R205-R210). -/

def barRows (d : Nat) : Nat := d / 2 ^ 24 % 32
def barCols (d : Nat) : Nat := d / 2 ^ 16 % 64
def barRow0 (d : Nat) : Nat := d / 2 ^ 8 % 16
def barCol0 (d : Nat) : Nat := d % 32

/-- The rectangle descriptor's reserved bits are zero and it lies on the die (R206). -/
def barLegal (d : Nat) : Bool :=
  d / 2 ^ 29 = 0 && d / 2 ^ 22 % 4 = 0 && d / 2 ^ 21 % 2 = 0 && d / 2 ^ 12 % 16 = 0 && d / 2 ^ 5 % 8 = 0 &&
    decide (barRow0 d + barRows d ≤ 15) && decide (barCol0 d + barCols d ≤ 31)

/-- The core lies in the rectangle. -/
def barInside (d c : Nat) : Bool :=
  decide (barRow0 d ≤ rowOf c ∧ rowOf c ≤ barRow0 d + barRows d ∧ barCol0 d ≤ colOf c ∧ colOf c ≤ barCol0 d + barCols d)

/-- Slots of the core that wait in BARWAIT, or on a blocked arrival, on a context. One that its release has made ready still counts until it has taken its turn: R206
does not say when it ceases to wait, DESIGN CHOICE, log 53. -/
def barWaiters (s : State) (c b : Nat) : List Nat :=
  (slotsOf c).filter (fun g => (s.slot g).wait = some (.barrier b) || (s.slot g).wait = some (.arrival b))

/-- Send what is due from a core's context (R207): its own part complete and its neighbours' signals in, it signals east, south, or releases. -/
def barAdvance (s : State) (c b : Nat) : State :=
  let k := s.barrier c b
  let d := k.desc
  let west := colOf c = barCol0 d
  let east := colOf c = barCol0 d + barCols d
  let north := rowOf c = barRow0 d
  let south := rowOf c = barRow0 d + barRows d
  let row := decide (k.expected ≤ k.now) && (west || k.fromWest)
  let sent := s.setBarrier c b { k with sent := true }
  if k.sent || !row then s
  else if !east then sent.post (.barrierSignal (c + 1) b false d)
  else if north || k.fromNorth then
    if south then sent.post (.barrierRelease c b d) else sent.post (.barrierSignal (c + 32) b true d)
  else s

/-- The phase an arrival would count for now: this one, the next, or none yet (R207). -/
def arrivalPhase (k : Barrier) : Option Nat :=
  if k.now < k.expected then some k.phase
  else if k.next < k.expectedNext then some (k.phase + 1)
  else none

/-- One arrival, and for BARDROP the lowering of later phases' counts (R207, R208). -/
def arrive (k : Barrier) (isDrop : Bool) : Barrier :=
  let b := b2n isDrop
  if k.now < k.expected then
    { k with now := k.now + 1, expectedNext := k.expectedNext - b, expectedLater := k.expectedLater - b }
  else { k with next := k.next + 1, expectedLater := k.expectedLater - b }

/-- BARARR and BARDROP (R208). The count that BARDROP finds already 0 is that of the phases after the next: R208 does not say of which phase, DESIGN
CHOICE, log 53. A blocked arrival has published already, and only waits for its phase. -/
def arrivalOp (i : Instr) (ctx : BitVec 2) (isDrop : Bool) (s : State) : Out :=
  ((issue i {} s).bnd fun _ s1 =>
    let b := ctx.toNat
    let k := s1.barrier s1.curCore b
    (need s1 (k.configured && !(isDrop && k.expectedLater = 0)) .barrier (wd b)).bnd fun _ s2 =>
    (if s2.mine.wait = some (.arrival b) then .go () s2 else publish s2 .dev).bnd fun _ s3 =>
    match arrivalPhase k with
    | none => waitHere s3 (.arrival b)
    | some ph =>
      let s4 := (s3.setBarrier s3.curCore b (arrive k isDrop)).modMe (fun t => { t with recorded := put b (some ph) t.recorded })
      pass (barAdvance s4 s4.curCore b)).outcome

def execBararr (ctx : BitVec 2) (s : State) : Out := arrivalOp (.bararr ctx) ctx false s
def execBardrop (ctx : BitVec 2) (s : State) : Out := arrivalOp (.bardrop ctx) ctx true s

/-- BARWAIT: released when the context's phase has passed the slot's recorded one (R208). One that already waits when the context's ERR becomes set waits on: R208
traps a BARWAIT on a context whose ERR is set, and has the cores configured alike wait until WAITLIM or without end, DEDUCED, log 53. -/
def execBarwait (ctx : BitVec 2) (s : State) : Out :=
  ((issue (.barwait ctx) {} s).bnd fun _ s1 =>
    let b := ctx.toNat
    let k := s1.barrier s1.curCore b
    (need s1 (k.configured && (!k.err || s1.mine.wait = some (.barrier b))) .barrier (wd b)).bnd fun _ s2 =>
    match s2.mine.recorded.find? (fun r => r.1 = b) with
    | none => pass s2
    | some (_, none) => pass (refresh s2 .dev)
    | some (_, some ph) => if ph < k.phase then pass (refresh s2 .dev) else waitHere s2 (.barrier b)).outcome

def execBarcfg (rs1 rs2 : RegField) (ctx : BitVec 2) (s : State) : Out :=
  ((issue (.barcfg rs1 rs2 ctx) { srcs := [rs1, rs2] } s).bnd fun v s1 =>
    let b := ctx.toNat
    let c := s1.curCore
    let d := (v.getD 0 0).toNat
    let n := (v.getD 1 0).toNat
    (need s1 (barLegal d && barInside d c && decide (n ≤ 16) && (barWaiters s1 c b).isEmpty) .barrier (v.getD 0 0)).bnd fun _ s2 =>
      let s3 := s2.setBarrier c b
        { configured := true, desc := d, expected := n, expectedNext := n, expectedLater := n }
      let s4 := (slotsOf c).foldl (fun s g => if (s.slot g).recorded.isEmpty then s else s.modSlot g (fun t => { t with recorded := drop b t.recorded })) s3
      pass (barAdvance s4 c b)).outcome

/-- A signal from a neighbour is noted and passed on, or discarded with ERR where the context is not configured alike or
the sender's core is of another partition (R208, R406). -/
def execBarrierSignal (core ctx : Nat) (fromNorth : Bool) (desc : Nat) (s : State) : Out :=
  eventOf (decide (core < 2048) && decide (ctx < 4)) (fun s =>
    let k := s.barrier core ctx
    let sender := if fromNorth then core - 32 else core - 1
    if k.configured && k.desc = desc && s.partOf sender = s.partOf core then
      barAdvance (s.setBarrier core ctx (if fromNorth then { k with fromNorth := true } else { k with fromWest := true })) core ctx
    else s.setBarrier core ctx { k with err := true }) s

/-- A context steps to its next phase: arrivals already counted for it stand (R207). -/
def nextPhase (k : Barrier) : Barrier :=
  { k with phase := k.phase + 1, now := k.next, next := 0, expected := k.expectedNext, expectedNext := k.expectedLater,
           fromWest := false, fromNorth := false, sent := false }

/-- The release reaches a core: it goes north on the east column and west along the row, the core's waiters become ready, and its part of
the new phase may be complete already (R207). A part that needs no arrival goes on between the turns of slots (`barriersGo`). -/
def execBarrierRelease (core ctx desc : Nat) (s : State) : Out :=
  eventOf (decide (core < 2048) && decide (ctx < 4)) (fun s =>
    let k := s.barrier core ctx
    if k.configured && k.desc = desc then
      let east := colOf core = barCol0 desc + barCols desc
      let s1 := s.setBarrier core ctx (nextPhase k)
      let s2 := (barWaiters s1 core ctx).foldl (fun s g => s.modSlot g (fun t => { t with state := .ready })) s1
      let s3 := if east && barRow0 desc < rowOf core then s2.post (.barrierRelease (core - 32) ctx desc) else s2
      let s4 := if barCol0 desc < colOf core then s3.post (.barrierRelease (core - 1) ctx desc) else s3
      if (s4.barrier core ctx).expected = 0 then s4 else barAdvance s4 core ctx
    else s.setBarrier core ctx { k with err := true }) s

/-- The parts of phases that need no arrival are complete (R207): what is due from their contexts is sent. So that such a phase's end, which is at once the start of
the next, leaves the slots their turns, this takes place between these: how often, R207 leaves open, DESIGN CHOICE, log 4. -/
def barriersGo (s : State) : State :=
  s.cores.foldl (fun s k => k.2.barriers.foldl (fun s b =>
    let q := s.barrier k.1 b.1
    if q.configured && q.expected = 0 && !q.sent then barAdvance s k.1 b.1 else s) s) s

end Sys2Proof.Machine
end

