-- ==== Sys2Proof/Machine/Queues.lean ====
section
/-! DEFINITION. Requests and ready queues: parked counts, levels and overflow rings, eligibility and order, allocation of tags, and the
moment a request leaves LIVE (R23-R36, R60-R63, R370-R374). -/

namespace Sys2Proof.Machine

/-! Parked counts (R63). -/

/-- The greatest parked count; a count held there no longer falls (R219). -/
def parkedMax : Nat := 2 ^ 32 - 1

def parkedUp (s : State) (r : Nat) : State :=
  if r = 0 then s else let q := s.req r; s.setReq r { q with parked := min (q.parked + 1) parkedMax }
def parkedDown (s : State) (r : Nat) : State :=
  if r = 0 then s else let q := s.req r; s.setReq r { q with parked := if q.parked = parkedMax then parkedMax else q.parked - 1 }

/-! Queues (R370-R374). -/

/-- Entries a level of a queue holds (R370). -/
def qCapacity (q : Nat) : Nat := if q < 2048 then 64 else if q < 2112 then 128 else 256
/-- Die of a queue. -/
def qDieOf (q : Nat) : Nat := if q < 2048 then q / 512 else if q < 2112 then (q - 2048) / 16 else (q - 2112) / 16
/-- Partition of a queue. -/
def qPart (s : State) (q : Nat) : Nat :=
  if q < 2048 then s.partOf q else if q < 2112 then s.partOf (coreAt (q - 2048) 0) else (q - 2112) % 16
/-- CRs the ring of a level holds (R372). -/
def ringCap (s : State) (q l : Nat) : Nat :=
  let sz := fld (s.reg (ringdAddr q l)) 52 4
  if sz = 0 then 0 else 2 ^ (sz + 5)
/-- The level is ordered by earliest word 1 (R371). -/
def isEdf (s : State) (q l : Nat) : Bool := l = 0 || bit (s.reg (dqctlAddr (qDieOf q) (qPart s q))) (3 + l)

/-- The 64 bytes of a CR (R30). -/
def crBytes (cr : CR) : List Byte := (crWords cr).flatMap (fun w => leBytes w.toNat 8)

/-- Words from bytes, eight at a time. -/
def wordsOf (bs : List Byte) : List Word := (List.range (bs.length / 8)).map (fun i => wd (leNat ((bs.drop (8 * i)).take 8)))

/-- Physical address of place i of a ring (R372). -/
def ringPa (s : State) (q l i : Nat) : Nat := fld (s.reg (ringdAddr q l)) 6 46 * 64 + 64 * i

/-- The CR in place i of a ring, read as published. -/
def ringCr (s : State) (q l i : Nat) : CR := crOf (wordsOf (s.mem.readN (ringPa s q l i) 64))

/-- The CRs of a ring, in ring order. -/
def ringCrs (s : State) (q l : Nat) : List CR := (s.level q l).ring.map (ringCr s q l)

/-- The place a new CR takes in a ring: the next after its last that is free. -/
def ringPlace (s : State) (q l : Nat) : Nat :=
  let v := (s.level q l).ring
  let n := ringCap s q l
  let from0 := match v.getLast? with | some i => i + 1 | none => 0
  (((List.range n).map (fun i => (from0 + i) % n)).find? (fun i => !v.contains i)).getD 0

/-- Put a number in order by a key: after those no greater, or with `first` before those no less. -/
def insertBy (key : Nat → Nat) (i : Nat) (first : Bool) : List Nat → List Nat
  | [] => [i]
  | a :: r => if decide (key i < key a) || (first && decide (key i = key a)) then i :: a :: r else a :: insertBy key i first r

/-- A CR enters a ring: it is written to its place by a published write (R372), and stands at the tail, or in an EDF ring by word 1, with `first` ahead of its
equals (R373). -/
def ringAdd (s : State) (q l : Nat) (first : Bool) (cr : CR) : State :=
  let i := ringPlace s q l
  let s1 := publishCells s (cellsAt (ringPa s q l i) (crBytes cr)) 0 none none
  let v := s1.level q l
  let ring := if isEdf s1 q l then insertBy (fun j => (ringCr s1 q l j).instant.toNat) i first v.ring else v.ring ++ [i]
  s1.setLevel q l { v with ring := ring }

/-- The latest CR of a level by word 1, the last enqueued among equals, with its index. -/
def latestCr (l : List CR) : Option (Nat × CR) :=
  (l.zipIdx).foldl (fun b x =>
    match b with
    | none => some (x.2, x.1)
    | some y => if y.2.instant.toNat ≤ x.1.instant.toNat then some (x.2, x.1) else b) none

/-- The queue a new CR for queue q goes to: for a core or cluster queue of a cluster that drains or is idle, its partition's die queue (R408). -/
def routeQueue (s : State) (q : Nat) : Nat :=
  let cl := if q < 2048 then clusterOf q else q - 2048
  if q < 2112 && (s.cluster cl).state != 0 then qDie (qDieOf q) (qPart s q) else q

/-- Enqueue a CR in a level of a queue or that level's ring; none when both are full (R216, R373, R374). -/
def enqueueAt (s : State) (q0 l : Nat) (cr : CR) : Option State :=
  let q := routeQueue s q0
  let v := s.level q l
  if decide (v.entries.length < qCapacity q) && v.ring.isEmpty then some (s.setLevel q l { v with entries := v.entries ++ [cr] })
  else if v.ring.length < ringCap s q l then
    let behind := some (parkedUp (ringAdd s q l false cr) cr.rtag)
    if isEdf s q l then
      match latestCr v.entries with
      | some (i, b) =>
        if cr.instant.toNat < b.instant.toNat then
          some (parkedUp (ringAdd (s.setLevel q l { v with entries := eraseAt v.entries i ++ [cr] }) q l true b) b.rtag)
        else behind
      | none => behind
    else behind
  else none

/-- Enqueue a CR in the level of its PRIO. -/
def enqueue (s : State) (q : Nat) (cr : CR) : Option State := enqueueAt s q (cr.prio % 4) cr

/-- The level or ring has room for a CR of a class. -/
def hasRoom (s : State) (q l : Nat) : Bool :=
  let q := routeQueue s q
  let v := s.level q l
  (decide (v.entries.length < qCapacity q) && v.ring.isEmpty) || decide (v.ring.length < ringCap s q l)

/-- A new CR of the class would go to the ring (R374). -/
def wouldRing (s : State) (q l : Nat) : Bool :=
  let v := s.level q l
  !(decide (v.entries.length < qCapacity q) && v.ring.isEmpty)

/-- Free places of a ring. -/
def ringFree (s : State) (q l : Nat) : Nat := ringCap s q l - (s.level q l).ring.length

/-- A CR is annulled as dispatch examines it; an RTAG-0 CR never is (R33). -/
def crAnnulled (s : State) (cr : CR) : Bool := cr.rtag != 0 && (reached cr.instant s.time || !s.liveTag cr.rtag)

/-- A CR is eligible for a core, annulment aside (R35). -/
def crFits (s : State) (c : Nat) (cr : CR) : Bool :=
  decide (cr.feat ≤ (s.core c).featmask.toNat) && (cr.rtag = 0 || (s.req cr.rtag).part = s.partOf c)

/-- The queues a core takes from, in R36's order. -/
def queuesOf (s : State) (c : Nat) : List Nat := [qCore c, qCluster (clusterOf c), qDie (dieOf c) (s.partOf c)]

/-- Drop the annulled CRs of a level (R35). -/
def purge (s : State) (q l : Nat) : State :=
  let v := s.level q l
  if v.entries.any (crAnnulled s) then s.setLevel q l { v with entries := v.entries.filter (fun cr => !crAnnulled s cr) } else s

/-- The CR of a level that a core would dispatch next, with its index (R36). -/
def firstIn (s : State) (c q l : Nat) : Option (Nat × CR) :=
  let e := ((s.level q l).entries.zipIdx).filter (fun x => crFits s c x.1 && !crAnnulled s x.1)
  if isEdf s q l then (leastBy (fun a b => decide (a.1.instant.toNat < b.1.instant.toNat)) e).map (fun x => (x.2, x.1))
  else e.head?.map (fun x => (x.2, x.1))

/-- Take a CR out of a level. -/
def takeCr (s : State) (q l i : Nat) : State :=
  let v := s.level q l
  s.setLevel q l { v with entries := eraseAt v.entries i }

/-- The next CR for a core among queues and levels, as R36 orders them: queue, level, index, CR. -/
def nextCr (s : State) (c : Nat) (qs ls : List Nat) : Option (Nat × Nat × Nat × CR) :=
  ls.findSome? (fun l => qs.findSome? (fun q => (firstIn s c q l).map (fun x => (q, l, x.1, x.2))))

/-- The head of a ring moves into its level, or is discarded if its request has left LIVE; the parked count falls (R63, R64, R373). -/
def ringMove (s : State) (q l : Nat) : State :=
  let v := s.level q l
  match v.ring with
  | [] => s
  | i :: r =>
    let cr := ringCr s q l i
    if v.entries.length < qCapacity q then
      parkedDown (s.setLevel q l { entries := if s.liveTag cr.rtag then v.entries ++ [cr] else v.entries, ring := r }) cr.rtag
    else s

/-! Targets (R214). -/

/-- The queue a target word names for the executing core, or none if the word is invalid. -/
def targetQueue (s : State) (w : Word) : Option Nat :=
  if fld w 13 51 != 0 then none
  else
    match fld w 0 2 with
    | 0 => if s.partOf (fld w 2 11) = s.partOf s.curCore then some (qCore (fld w 2 11)) else none
    | 1 => if fld w 2 11 = 0 then some (qCluster (clusterOf s.curCore)) else none
    | 2 => if fld w 2 11 = 0 then some (qDie (dieOf s.curCore) (s.partOf s.curCore)) else none
    | _ => none

/-- The cores of a queue's scope: for a die queue, those of its partition on its die. -/
def scopeCores (s : State) (q : Nat) : List Nat :=
  if q < 2048 then [q]
  else if q < 2112 then clusterCores (q - 2048)
  else ((List.range 512).map (fun k => (q - 2112) / 16 * 512 + k)).filter (fun c => s.partOf c = (q - 2112) % 16)

/-- Some core of the scope reaches a feature level (R53). -/
def scopeReaches (s : State) (q feat : Nat) : Bool := (scopeCores s q).any (fun c => decide (feat ≤ (s.core c).featmask.toNat))

/-! Request tags (R23, R29, R63, R409). -/

/-- Entries counted against a partition (R409). -/
def usedBy (s : State) (p : Nat) : Nat := (s.reqs.filter (fun r => r.2.state != .free && r.2.part = p)).length

/-- The partition's quota is spent. -/
def quotaSpent (s : State) (p : Nat) : Bool := decide (fld (s.reg (pquotaAddr p)) 0 18 ≤ usedBy s p)

/-- The next free tag of a die, never-used entries first, then oldest freed (R63). -/
def nextTag (s : State) (d : Nat) : Option Nat :=
  let p := look {} d s.pools
  if p.fresh < 65536 then some (d * 65536 + p.fresh) else p.freed.head?

/-- The die's pool without its next tag. -/
def popTag (s : State) (d : Nat) : State :=
  let p := look {} d s.pools
  { s with pools := put d (if p.fresh < 65536 then { p with fresh := p.fresh + 1 } else { p with freed := p.freed.tail }) s.pools }

/-- Allocate an entry on a die for a partition, or nothing (R29). -/
def allocate (s : State) (d : Nat) (r : Req) : Option (Nat × State) :=
  if quotaSpent s r.part then none
  else (nextTag s d).map (fun t => (t, (popTag s d).setReq t r))

/-- An entry returns to its die's pool (R25, R63). -/
def freeTag (s : State) (r : Nat) : State :=
  let p := look {} (r / 65536) s.pools
  { (s.setReq r {}) with pools := put (r / 65536) { p with freed := p.freed ++ [r] } s.pools }

/-! Work of a tag (R61). -/

/-- A ring of some queue holds a CR of the tag (R386). -/
def inRing (s : State) (r : Nat) : Bool := s.levels.any (fun v => v.2.ring.any (fun i => (ringCr s (v.1 / 4) (v.1 % 4) i).rtag = r))

/-- Some command that belongs to the tag is at an engine or in a Hatch of a core satisfying `at`. -/
def engineWork (s : State) (r : Nat) (sel : Nat → Bool) : Bool :=
  s.clusters.any (fun k => k.2.copies.any (fun x => x.rtag = r && sel x.core)) ||
  (s.cellars ++ s.colls ++ s.sends).any (fun x => x.rtag = r && sel x.core && !x.sent) ||
  s.kept.any (fun x => x.rtag = r && sel x.core) ||
  s.cores.any (fun k => sel k.1 && k.2.hatches.any (fun h => (headersOf h.2.cmd 0).any (fun e => e.rtag = r)))

/-- A Cellar command of the tag still awaits its drive (R61). -/
def drivePending (s : State) (r : Nat) : Bool := s.cellars.any (fun x => x.rtag = r && x.sent)

/-- No part of a die's work of the tag is left: its part of the sweep is done (R61). -/
def dieClear (s : State) (r d : Nat) : Bool :=
  let sel := fun c => decide (dieOf c = d)
  !(s.slots.any (fun t => sel (coreOf t.1) && t.2.occupied && t.2.rtag = r)) &&
  !(s.levels.any (fun v => qDieOf (v.1 / 4) = d && v.2.entries.any (fun cr => cr.rtag = r))) &&
  !(s.cores.any (fun k => sel k.1 && k.2.saved.any (fun x => x.rtag = r))) &&
  !(s.deferred.any (fun x => sel (coreOf x.g) && (s.slot x.g).rtag = r)) && !engineWork s r sel &&
  !(decide (d = r / 65536) && s.larders.any (fun l => l.2.entries.any (fun e => e.waiters.any (fun w => w.1.rtag = r)) || l.2.stalled.any (fun w => w.1.rtag = r)))

/-- Annulment of the tag is complete: every die has acknowledged (R61). -/
def sweptAll (s : State) (r : Nat) : Bool := (List.range 4).all (fun d => (s.req r).swept.contains d)

/-- Every peer with a proxy of the request has acknowledged (R426). -/
def drained (s : State) (r : Nat) : Bool := let q := s.req r; q.proxies.all (fun p => q.acked.contains p)

/-- The entry returns to the pool; a proxy's drain is acknowledged then (R426). -/
def releaseEntry (s : State) (r : Nat) : State :=
  match (s.req r).proxyOf with
  | some (dev, tag) => { freeTag s r with replies := (freeTag s r).replies ++ [(dev, tag, .drained)] }
  | none => freeTag s r

/-- What both R63 and R386 ask before an entry is freed: annulment complete, no drive awaited, proxies drained, and a proxy's own marker come. -/
def mayRelease (s : State) (r : Nat) : Bool :=
  let q := s.req r
  sweptAll s r && !drivePending s r && drained s r && (q.proxyOf.isNone || q.marker)

/-- The entry returns to the pool once R63's conditions hold. -/
def tryFree (s : State) (r : Nat) : State :=
  let q := s.req r
  if r != 0 && (q.state = .annulled || q.state = .retired) && mayRelease s r && q.parked = 0 then releaseEntry s r else s

/-! Leaving LIVE (R25, R26, R60). -/

/-- Lower a shared request's holds by one; the result says whether they fell to zero (R26, R28). -/
def dropHold (s : State) (h : Nat) : Bool × State :=
  let q := s.req h
  (q.holds = 1 && q.state = .live, s.setReq h { q with holds := q.holds - 1 })

/-- The annulment point of one request: its state and WHY, its notices to dies and to peers with proxies (R61, R426), and what it does to
unpublished lines of every core (R66). -/
def leaveOne (s : State) (r why : Nat) (goal : ReqState) : State :=
  let q := s.req r
  let s1 := s.setReq r { q with state := goal, why := why, held := [0, 0, 0, 0] }
  let s2 := s1.cores.foldl (fun s k => if k.2.lines.isEmpty then s else annulLines s k.1 r) s1
  let s3 := (List.range 4).foldl (fun s d => s.post (.annulNoticeArrival d r)) s2
  { s3 with notices := s3.notices ++ q.proxies.flatMap (fun p => [(p, r, false), (p, r, true)]) }

/-- LIVE children that are not shared (R26). -/
def childrenOf (s : State) (r : Nat) : List Nat :=
  (s.reqs.filter (fun q => q.2.state = .live && !q.2.shared && q.2.parent = r)).map (fun q => q.1)

/-- Requests leave LIVE, each with WHY and its new state: children follow with their creator's WHY, holds are dropped, and a shared request whose
last hold goes leaves too (R26, R60, R65). `f` bounds how many leave. -/
def leaveAll (s : State) : Nat → List (Nat × Nat × ReqState) → State
  | 0, _ => s
  | _, [] => s
  | f + 1, (r, why, goal) :: rest =>
    let q := s.req r
    if q.state != .live || r = 0 then leaveAll s f rest
    else
      let held := q.held.filter (· != 0)
      let s1 := leaveOne s r why goal
      let (gone, s2) := held.foldl (fun (a : List Nat × State) h =>
        let (z, s) := dropHold a.2 h
        (if z then a.1 ++ [h] else a.1, s)) ([], s1)
      leaveAll s2 f (rest ++ (childrenOf s2 r).map (fun c => (c, why, ReqState.annulled)) ++ gone.map (fun h => (h, 1, ReqState.annulled)))

/-- A request leaves LIVE. -/
def leave (s : State) (r why : Nat) (goal : ReqState) : State := leaveAll s (6 * s.reqs.length + 8) [(r, why, goal)]

/-! CRs in memory. -/

/-- Eight elements of eight bytes from an address, which must be 64-byte aligned. -/
def crElems (a : Word) : List Elem := (List.range 8).map (fun i => { a := a + wd (8 * i), n := 8, al := if i = 0 then 64 else 8 })

end Sys2Proof.Machine
end

