-- ==== Sys2Proof/Machine/Engine.lean ====
section
/-! DEFINITION. What every engine shares: taking a command from a Hatch, its checks, its completion word and its end (R293-R300). -/

namespace Sys2Proof.Machine

/-- A completion word (R298). -/
def completionWord (st err bytes : Nat) : Word := wd (at_ (st % 4) 62 + at_ (err % 2 ^ 14) 48 + bytes % 2 ^ 48)

/-- An engine's write to a page sets D in its leaf entry directly (R395). -/
def setDirty (s : State) (c va : Nat) : State :=
  match walk s (s.partOf c) va with
  | .leaf first leaf _ _ _ => if leafD leaf then s else orEntry s first 0x80
  | _ => s

/-- Write bytes at one place of an engine's destination: a published write, a store in an SRAM, or work that a peer has performed or refused (R111); the error
that refuses it. -/
def engineStore (s : State) (c rtag : Nat) (x : Span) (bs : List Byte) : Option Nat × State :=
  match x with
  | .run loc va _ ext _ =>
    (none, if loc < sramBase then publishCells (setDirty s c va) (cellsAt loc bs) ext none none else sramStore s loc bs)
  | .far p a _ => farWork s (s.partOf c) rtag p (.store bs.length) a bs
  | _ => (none, s)

/-- The one span of an aligned word, which never crosses a page. -/
def wordSpan (s : State) (c : Nat) (user : Bool) (a : Word) (n : Nat) : Span × State :=
  match spaceOf a with
  | .window 4 => (if user then .fail 2 n else .run (sramLoc c 0 { a := a, n := 1 }) 0 0 0 n, s)
  | _ =>
    let (l, s1) := spans s c user .engineOut a n
    (l.headD (.fail 3 n), s1)

/-- The completion address is one R294 forbids: misaligned, or in a space or page that accepts no AMO (R87). -/
def badCompletion (s : State) (x : Cmd) : Bool :=
  let a := x.words.getD 1 0
  if a = 0 then false
  else
    a.toNat % 8 != 0 ||
    (match spaceOf a with
      | .none => true
      | .window 1 => true
      | _ =>
        match (wordSpan s x.core x.user a 8).1 with
        | .run _ _ leaf _ _ => leafSm leaf
        | .hold _ (.absent _ leaf _) _ => leafSm leaf
        | .fail 4 _ => false
        | .fail 5 _ => false
        | .fail _ _ => true
        | _ => false)

/-- A value enters its reserved DONE entry (R298). -/
def pushDone (s : State) (c h : Nat) (v : Word) : State :=
  let q := s.hatch c h
  s.setHatch c h { q with entries := q.entries ++ [{ value := v }], resv := q.resv - 1 }

/-- The command's scoreboard entries are freed (R92). -/
def freeBoard (s : State) (c id : Nat) : State := s.modCore c (fun k => { k with board := k.board.filter (fun b => b.id != id) })

/-- The command is at no engine any more. -/
def dropCmd (s : State) (id : Nat) : State :=
  let keep := fun (l : List Cmd) => l.filter (fun x => x.id != id)
  { s with
    clusters := s.clusters.map (fun k => (k.1, { k.2 with copies := keep k.2.copies }))
    cellars := keep s.cellars, colls := keep s.colls, sends := keep s.sends, kept := keep s.kept
    stairs := s.stairs.map (fun d => (d.1, { d.2 with queue := d.2.queue.filter (· != id) })) }

/-- Change a command wherever it is held. -/
def modCmd (s : State) (id : Nat) (f : Cmd → Cmd) : State :=
  let ch := fun (l : List Cmd) => l.map (fun x => if x.id = id then f x else x)
  { s with
    clusters := s.clusters.map (fun k => (k.1, { k.2 with copies := ch k.2.copies }))
    cellars := ch s.cellars, colls := ch s.colls, sends := ch s.sends, kept := ch s.kept }

/-- The commands at every engine, those kept for their completion words included. -/
def allCmds (s : State) : List Cmd := s.clusters.flatMap (fun k => k.2.copies) ++ s.cellars ++ s.colls ++ s.sends ++ s.kept

/-- A command at any engine. -/
def findCmd (s : State) (id : Nat) : Option Cmd := (allCmds s).find? (fun x => x.id = id)

/-- A command that ends where no engine holds it is kept until its completion word is written (R298). -/
def keepCmd (s : State) (x : Cmd) : State := if (findCmd s x.id).isSome then s else { s with kept := s.kept ++ [x] }

/-- Write a completion word to memory, unless there is none or its address cannot be written; none when its page must come first. One that a peer refuses is
lost (log 7). -/
def writeCompletion (s : State) (x : Cmd) (v : Word) : Option State :=
  let a := x.words.getD 1 0
  if a = 0 || badCompletion s x then some s
  else
    match wordSpan s x.core x.user a 8 with
    | (.hold _ _ _, _) => none
    | (sp, s1) => some (engineStore s1 x.core x.rtag sp (leBytes v.toNat 8)).2

/-- A page a command needs is not resident: its service starts, unless one it has waited for has ended without it (R283, R303). The result
says whether the command still waits. -/
def awaitPage (s : State) (x : Cmd) (va : Nat) (t : Trans) : Bool × State :=
  let page := va / 65536
  let serving := fun (s : State) => s.services.any (fun v => v.part = x.part && v.page = page)
  if serving s then (true, modCmd s x.id (fun y => { y with waits := addNat page y.waits }))
  else if x.waits.contains page then (false, s)
  else
    match t with
    | .absent e leaf ext =>
      let s1 := startService s x.core va x.rtag e leaf ext
      (serving s1, modCmd s1 x.id (fun y => { y with waits := addNat page y.waits }))
    | _ => (false, s)

/-- A suspended copy's word that is still to be written is written, if its page is there (R304). -/
def payOwed (s : State) (x : Cmd) : State :=
  if x.owes then
    match writeCompletion s x (completionWord 0 1 x.bytes) with
    | some s1 => modCmd s1 x.id (fun y => { y with owes := false })
    | none => s
  else s

/-- A command ends (R298): its completion word is written and then pushed to its DONE entry, its scoreboard entries are freed and it leaves
the engine. While the completion word's page is not resident the command stays, `ended`. -/
def endCmd (s : State) (x : Cmd) (st err bytes : Nat) : State :=
  let s := payOwed s x
  let v := completionWord st err bytes
  let fin := fun (s : State) =>
    let s1 := match x.done with | some h => pushDone s x.core h v | none => s
    tryFree (dropCmd (freeBoard s1 x.core x.id) x.id) x.rtag
  match writeCompletion s x v with
  | some s1 => fin s1
  | none =>
    match wordSpan s x.core x.user (x.words.getD 1 0) 8 with
    | (.hold va t _, s1) =>
      let (waits, s2) := awaitPage (keepCmd s1 x) x va t
      if waits then modCmd s2 x.id (fun y => { y with ended := true, state := st, error := err, bytes := bytes }) else fin s2
    | _ => fin s

/-- A command that is over ends when its completion word's page is there. -/
def endOver (s : State) (x : Cmd) : State := endCmd s x x.state x.error x.bytes

/-! Taking a command (R293-R296). -/

/-- An earlier command of the Hatch has not written its completion (R294 FENCE). -/
def hatchBusy (s : State) (c h : Nat) : Bool := (allCmds s).any (fun x => x.core = c && x.hatch = h)

/-- The publish of a header that a load pushed has completed: its core holds no earlier store, and its side log none of that time (R102, R295 step 4, R398). -/
def relDone (s : State) (c : Nat) (l : List HatchEntry) : Bool :=
  l.all (fun e => !e.rel || (logDone (s.core c) e.after && !storesHeld s c e.after .dev false && !storesHeld s c e.after .dev true))

/-- The copy engine of a cluster has room (R302). -/
def copyRoom (s : State) (cl : Nat) : Bool := decide ((s.cluster cl).copies.length < 64)

/-- The command at the head of Hatch h of core c, if its engine can take it now. -/
def takeable (s : State) (c h : Nat) : Option (List HatchEntry) :=
  let q := s.hatch c h
  if !q.isEngine then none
  else
    match headCommand q with
    | none => none
    | some l =>
      let w := (l.headD { value := 0 }).value
      if (hFence w && hatchBusy s c h) || !relDone s c l then none
      else if q.kind = 2 && !copyRoom s (clusterOf c) && hOp w != 4 then none
      else some l

/-- The command as the engine takes it. -/
def cmdOf (s : State) (c h : Nat) (l : List HatchEntry) : Cmd :=
  let e := l.headD { value := 0 }
  let b := (l.getLastD { value := 0 }).board
  { id := if b = 0 then s.nextId else b, op := hOp e.value, words := l.map (fun e => e.value), rtag := e.rtag, core := c, g := e.g,
    hatch := h, user := e.user, part := s.partOf c, done := e.done, ctx := e.ctx, pushed := (l.getLastD { value := 0 }).num }

/-- The command leaves its Hatch; its number is used up. What its core has stored since the push of a header that a load pushed with REL, of stores held then, is published
with it (R295 step 4). -/
def takeWords (s : State) (c h n : Nat) : State :=
  let q := s.hatch c h
  let s1 := if (q.cmd.take n).any (fun e => e.rel) then publishLines s c else s
  { s1.setHatch c h { q with cmd := q.cmd.drop n } with nextId := s1.nextId + 1 }

/-- The header checks every engine makes (R296): reserved bits, DH, and the completion address. -/
def headerBad (s : State) (x : Cmd) (failed : Bool) : Bool :=
  let w := x.words.getD 0 0
  failed || hRsv w != 0 || (!hDhe w && hDh w != 0) || (hDhe w && x.done.isNone) || badCompletion s x

/-- A completion address whose page refuses the write: the error the command fails with. -/
def completionError (s : State) (x : Cmd) : Option Nat :=
  if x.words.getD 1 0 = 0 then none
  else
    match (wordSpan s x.core x.user (x.words.getD 1 0) 8).1 with
    | .fail e _ => if e = 4 || e = 5 then some e else none
    | _ => none

/-- Take a command: one that fails its checks, whose request is not LIVE, or whose completion word cannot be written, ends at once; the rest go
to `run`. `bad` is the operation's own check. A malformed command under a tag that is not LIVE fails with BADCMD: R58 and R296 set no order between the two,
DESIGN CHOICE, log 54. -/
def takeCmd (s : State) (c h : Nat) (bad : State → Cmd → Bool) (run : State → Cmd → State) : State :=
  match takeable s c h with
  | none => s
  | some l =>
    let x := cmdOf s c h l
    let failed := l.any (fun e => e.failed)
    let s1 := takeWords s c h l.length
    if headerBad s1 x failed || bad s1 x then endCmd s1 x 3 2 0
    else if !s1.liveTag x.rtag then endCmd s1 x 2 0 0
    else
      match completionError s1 x with
      | some e => endCmd s1 x 3 e 0
      | none => run s1 x

/-- An event by which an engine takes the head of a Hatch happens only when that event is the one due for it. -/
def takeBy (e : Event) (c h : Nat) (f : State → State) (s : State) : Out :=
  eventOf (decide (c < 2048) && decide (h < 16)) (fun s => if takeEvent (s.hatch c h) c h = e && (takeable s c h).isSome then f s else s) s

/-- A context's partial commands in its core's Hatches are removed (R297): with state and error given, or as annulled when the command's request is, a reserved
DONE entry and the completion address, if pushed, get that completion. Of one that an annulment has removed before nothing more is to come. -/
def dropPartial (s : State) (c ctx st err : Nat) : State :=
  (List.range 16).foldl (fun s h =>
    let s := if (s.hatch c h).swallows ctx then s.setHatch c h { s.hatch c h with rest := none } else s
    let q := s.hatch c h
    let l := lastCommand q.cmd
    let e := l.headD { value := 0 }
    if q.isEngine && !l.isEmpty && cmdMissing q.cmd 0 != 0 && e.ctx = ctx then
      let x := cmdOf s c h l
      let s1 := s.setHatch c h { q with cmd := q.cmd.take (q.cmd.length - l.length) }
      let s2 : State := { s1 with nextId := s1.nextId + 1 }
      if s2.liveTag x.rtag then endCmd s2 x st err 0 else endCmd s2 x 2 0 0
    else s) s

end Sys2Proof.Machine
end

