-- ==== Sys2Proof/Machine/Copy.lean ====
section
/-! DEFINITION. The cluster copy engine (R111, R283, R300-R304). -/

namespace Sys2Proof.Machine

/-- The part of a copy's pieces from byte p on, n bytes, as pieces. -/
def cutPlan : List (Word × Word × Nat) → Nat → Nat → List (Word × Word × Nat)
  | [], _, _ => []
  | (a, d, k) :: r, p, n =>
    if n = 0 then []
    else if k ≤ p then cutPlan r (p - k) n
    else
      let m := min (k - p) n
      (a + wd p, d + wd p, m) :: cutPlan r 0 (n - m)

/-- Bytes of a plan. -/
def planBytes (l : List (Word × Word × Nat)) : Nat := sumN (l.map (fun p => p.2.2))

/-- The locations a command's destination bytes lie at, in every core its mask names, as (first, last). -/
def destRanges (s : State) (x : Cmd) : List (Nat × Nat) :=
  x.plan.flatMap (fun p =>
    (spans s x.core x.user .engineOut p.2.1 p.2.2).1.flatMap (fun sp =>
      match sp with
      | .run loc _ _ _ n =>
        (match x.mask with
          | none => [(loc, loc + n - 1)]
          | some m => (maskCores x.core m).map (fun k => (locScratch k (loc - locScratch x.core 0), locScratch k (loc - locScratch x.core 0) + n - 1)))
      | _ => []))

/-- A location lies in one of some ranges. -/
def inRanges (l : List (Nat × Nat)) (a : Nat) : Bool := l.any (fun r => decide (r.1 ≤ a ∧ a ≤ r.2))

/-- The point since which a source byte's value may be read: the command's start, or for a frame that has come in since, its coming (R111, R303). -/
def sourceSince (x : Cmd) (loc : Nat) : Nat := look x.since (loc / 65536) x.landed

/-- A source byte at a location: one that is also a destination byte of the command supplies its value as of the start (R302); any other a value current
then or later, sector by sector (R111). `n` numbers the sector among those the granule reads, `own` the destination's locations. -/
def sourceByte (s : State) (x : Cmd) (own : List (Nat × Nat)) (loc n : Nat) : Byte :=
  if inRanges own loc then x.snap.read loc
  else
    let k := Config.sourcePoint (s.free + n)
    if loc < sramBase then asOf s loc (k % (s.history.length - sourceSince x loc + 1))
    else if k % 2 = 0 then x.snap.read loc else s.mem.read loc

/-- What stops a part of a granule: an error (R299), or a page to wait for. -/
abbrev Stop := Sum Nat (Nat × Trans)

/-- The bytes of a source, or what stops them. -/
def sourceBytes (s : State) (x : Cmd) (own : List (Nat × Nat)) : List Span → Except Stop (List Byte) × State
  | [] => (.ok [], s)
  | sp :: r =>
    let part : Except Stop (List Byte) × State :=
      match sp with
      | .fail e _ => (.error (.inl e), s)
      | .hold va t _ => (.error (.inr (va, t)), s)
      | .far p a n =>
        (match farRead s x.core x.rtag p a n with
          | (.ok bs, s1) => (.ok bs, s1)
          | (.error e, s1) => (.error (.inl e), s1))
      | .run loc _ _ _ n =>
        if (List.range n).any (fun i => s.bad.contains (loc + i)) then (.error (.inl 6), s)
        else (.ok ((List.range n).map (fun i => sourceByte s x own (loc + i) ((loc + i) / 16 - loc / 16))), { s with free := s.free + n / 16 + 2 })
    match part with
    | (.error e, s1) => (.error e, s1)
    | (.ok bs, s1) =>
      match sourceBytes s1 x own r with
      | (.error e, s2) => (.error e, s2)
      | (.ok l, s2) => (.ok (bs ++ l), s2)

/-- A byte at a peer, beside the locations of this device's bytes. -/
def farLoc (p : Nat) (a : Word) : Nat := 2 ^ 60 + p * 2 ^ 56 + fld a 0 56

/-- Bytes for consecutive locations from `at0`, byte order `o` first, but for those where a later byte of the command stands (R302): offset, byte and order. -/
def destCells (x : Cmd) (at0 : Nat) (bs : List Byte) (o : Nat) : List (Nat × Byte × Nat) :=
  (bs.zipIdx).filterMap (fun b => if (x.wrote.any (fun w => w.1 = at0 + b.2 && decide (o + b.2 < w.2))) then none else some (b.2, b.1, o + b.2))

/-- The command has written cells from `at0`. -/
def noteCells (x : Cmd) (at0 : Nat) (cells : List (Nat × Byte × Nat)) : Cmd :=
  { x with wrote := cells.foldl (fun w c => put (at0 + c.1) c.2.2 w) x.wrote }

/-- Write a run of destination bytes, byte order `o` first: a location already holding a later byte keeps it (R302). The error with which a peer refuses it, and the
bytes of the run before what it refuses. -/
def destRun (s : State) (x : Cmd) (sp : Span) (bs : List Byte) (o : Nat) : Option (Nat × Nat) × State × Cmd :=
  match sp with
  | .run loc va _ ext _ =>
    let put1 := fun (y : State × Cmd) (loc : Nat) =>
      let cells := destCells y.2 loc bs o
      let runs := cells.map (fun c => (loc + c.1, c.2.1))
      let s1 := if loc < sramBase then publishCells (setDirty y.1 x.core va) runs ext none none else sramWrite y.1 runs
      (s1, noteCells y.2 loc cells)
    match x.mask with
    | none => (none, put1 (s, x) loc)
    | some m => (none, ((maskCores x.core m).map (fun k => locScratch k (loc - locScratch x.core 0))).foldl put1 (s, x))
  | .far p a _ =>
    let cells := destCells x (farLoc p a) bs o
    let put1 := fun (y : Option (Nat × Nat) × State) (c : Nat × List Byte) =>
      match y.1 with
      | some e => (some e, y.2)
      | none =>
        let r := engineStore y.2 x.core x.rtag (.far p (a + wd c.1) c.2.length) c.2
        (r.1.map (fun e => (e, c.1)), r.2)
    let r := (if cells.length = bs.length then [(0, bs)] else cells.map (fun c => (c.1, [c.2.1]))).foldl put1 (none, s)
    (r.1, r.2, noteCells x (farLoc p a) cells)
  | _ => (none, s, x)

/-- Write a granule's bytes over its destination spans: the error with which a peer refuses a part, and the place of that part in the command's byte order. -/
def destSpans (s : State) (x : Cmd) : List Span → List Byte → Nat → Option (Nat × Nat) × State × Cmd
  | [], _, _ => (none, s, x)
  | sp :: r, bs, o =>
    match destRun s x sp (bs.take sp.len) o with
    | (some e, y) => (some (e.1, o + e.2), y)
    | (none, s1, x1) => destSpans s1 x1 r (bs.drop sp.len) (o + sp.len)

/-- What stops a list of destination spans. -/
def spanStop (l : List Span) : Option Stop :=
  l.findSome? (fun sp => match sp with
    | .fail e _ => some (.inl e)
    | .hold va t _ => some (.inr (va, t))
    | _ => none)

/-- How a granule ends: written; with an error, its bytes before byte `upTo` of the command written; or waiting for a page. -/
inductive Granule where
  | done (s : State) (x : Cmd)
  | err (s : State) (e upTo : Nat)
  | hold (s : State) (va : Nat) (t : Trans)

/-- Copy one granule (R302): nothing of it is written unless all of it can be here; a peer may refuse its part when it is sent. -/
def granule (s : State) (x : Cmd) (k : Nat) : Granule :=
  let segs := cutPlan x.plan (128 * k) (min 128 (x.total - 128 * k))
  let src := segs.foldl (fun (a : List Span × State) p =>
    let (l, s1) := spans a.2 x.core x.user .engineIn p.1 p.2.2
    (a.1 ++ l, s1)) ([], s)
  let dst := segs.foldl (fun (a : List Span × State) p =>
    let (l, s1) := spans a.2 x.core x.user .engineOut p.2.1 p.2.2
    (a.1 ++ l, s1)) ([], src.2)
  let s1 := dst.2
  match spanStop dst.1 with
  | some (.inl e) => .err s1 e (128 * k)
  | some (.inr (va, t)) => .hold s1 va t
  | none =>
    match sourceBytes s1 x (destRanges s1 x) src.1 with
    | (.error (.inl e), s2) => .err s2 e (128 * k)
    | (.error (.inr (va, t)), s2) => .hold s2 va t
    | (.ok bs, s2) =>
      match destSpans s2 x dst.1 bs (128 * k) with
      | (some e, s3, _) => .err s3 e.1 e.2
      | (none, s3, x2) => .done s3 { x2 with left := x2.left.filter (· != k) }

/-- BYTES: the prefix written (R300), by whole granules; a KGATHER's counts every byte written (R282). -/
def copyBytes (x : Cmd) : Nat :=
  if x.op = 5 then x.total - x.lost - 128 * x.left.length
  else
    match x.left with
    | [] => x.total
    | k :: _ => 128 * k

/-- The page of a KGATHER a granule lies in, as the granules it covers (R283). -/
def pageGranules (x : Cmd) (k : Nat) : List Nat :=
  let n := match x.plan with | p :: _ => p.2.2 / 128 | [] => 1
  (List.range n).map (fun i => k / n * n + i)

/-- Try the granules of a list in order. A page not resident is waited for while others proceed; an error ends a copy, and leaves out
a KGATHER's page (R283, R303). -/
def runGranules (s : State) (x : Cmd) : List Nat → State
  | [] => modCmd s x.id (fun _ => x)
  | k :: r =>
    if x.ended || !x.left.contains k then runGranules s x r
    else
      let failed := fun (s : State) (x : Cmd) (e upTo : Nat) =>
        if x.op = 5 then
          let gone := x.left.filter (fun j => (pageGranules x k).contains j)
          runGranules s { x with error := 4, lost := x.lost + 128 * gone.length, left := x.left.filter (fun j => !gone.contains j) } r
        else modCmd s x.id (fun _ => { x with ended := true, state := 3, error := e, bytes := if x.left.head? = some k then upTo else copyBytes x })
      match granule s x k with
      | .done s1 x1 => runGranules s1 x1 r
      | .err s1 e n => failed s1 x e n
      | .hold s1 va t =>
        let (waits, s2) := awaitPage s1 x va t
        if waits then runGranules s2 { x with waits := addNat (va / 65536) x.waits } r else failed s2 x 4 (128 * k)

/-- Put a command into the copy engine of its cluster. -/
def addCopy (s : State) (x : Cmd) : State := s.modCluster (clusterOf x.core) (fun k => { k with copies := k.copies ++ [x] })

/-- The command's scoreboard entry covers its plan as it is at the start (R92, R302); none while it needs one and there is none free. -/
def rerange (s : State) (x : Cmd) (ranges : List (Nat × Nat)) : Option State :=
  let k := s.core x.core
  if k.board.any (fun b => b.id = x.id) then
    some (if ranges.isEmpty then freeBoard s x.core x.id
          else s.modCore x.core (fun q => { q with board := q.board.map (fun b => if b.id = x.id then { b with ranges := ranges } else b) }))
  else if ranges.isEmpty then some s
  else if k.board.length < 16 then some (s.modCore x.core (fun q => { q with board := q.board ++ [{ id := x.id, ranges := ranges }] }))
  else none

/-- The pages of a list that are not resident are waited for; the plan is made once the list can be read (R302, R303). -/
def makePlan (s : State) (x : Cmd) : State :=
  let w := x.words
  let fail := fun (s : State) (e : Nat) => modCmd s x.id (fun y => { y with planned := true, ended := true, state := 3, error := e })
  let stop := if hasList x.op then spanStop (spans s x.core x.user .engineIn (listAddr x.op w) (16 * listCount w)).1 else none
  match stop with
  | some (.inr (va, t)) =>
    let (waits, s1) := awaitPage s x va t
    if waits then s1 else fail s1 4
  | _ =>
    match copyPlan s x.core x.rtag x.user x.op w with
    | (.error e, s1) => fail s1 e
    | (.ok l, s1) =>
      let n := planBytes l
      if (x.op = 2 && leavesSpace s1 x.core (w.getD 3 0) n) || (x.op = 3 && leavesSpace s1 x.core (w.getD 2 0) n) then fail s1 3
      else
        match (if hasList x.op then rerange s1 x (planRanges x.core w l) else some s1) with
        | none => s
        | some s2 => modCmd s2 x.id (fun y => { y with planned := true, plan := l, total := n, left := List.range ((n + 127) / 128) })

/-- The command reads beyond its cluster, its die's scratchpad included (R75, R416). -/
def readsBeyond (x : Cmd) : Bool :=
  hasList x.op && !x.planned || x.plan.any (fun p => decide (p.2.2 != 0) && (match spaceOf p.1 with | .window w => w = 3 | _ => true))

/-- The engine holds the command's next read: the cluster's requests are at their cap (R416). -/
def capHeld (s : State) (x : Cmd) : Bool := capReached s (clusterOf x.core) && readsBeyond x

/-- A copy's list is read and its plan made, unless the cap holds that read back (R416). -/
def planNext (s : State) (x : Cmd) : State := if capHeld s x then s else makePlan s x

/-- The progress of a running copy by up to n of its granules. -/
def copyProgress (s : State) (id n : Nat) : State :=
  match findCmd s id with
  | none => s
  | some x =>
    if x.ended || x.suspended || capHeld s x then s
    else
      let s1 := if x.planned then s else makePlan s x
      match findCmd s1 id with
      | none => s1
      | some y => if y.ended || !y.planned then s1 else runGranules s1 y (y.left.take n)

/-- A running copy goes as far as it can, and ends if nothing is left. -/
def copyComplete (s : State) (x : Cmd) : State :=
  let s1 := copyProgress s x.id (x.total / 128 + 1 + 2 ^ 48 * b2n (!x.planned))
  match findCmd s1 x.id with
  | none => s1
  | some y =>
    if y.ended then endOver s1 y
    else if y.planned && !y.suspended && y.left.isEmpty then endCmd s1 y (if y.error = 0 then 1 else 3) y.error (copyBytes y)
    else s1

/-- The rows of a STRIDED copy's source, or of its destination, that hold bytes. -/
def stridedRows (w : List Word) (dest : Bool) : List Word :=
  if fld (w.getD 4 0) 0 32 = 0 then []
  else (List.range (fld (w.getD 4 0) 32 32)).map (fun i => if dest then w.getD 3 0 + wd i * w.getD 6 0 else w.getD 2 0 + wd i * w.getD 5 0)

/-- The copy operations' own checks (R296, R301, R302). -/
def copyBad (_ : State) (x : Cmd) : Bool :=
  let h := x.words.getD 0 0
  let w4 := x.words.getD 4 0
  let mc := bit h 18
  let nw := (match x.op with | 0 => 4 | 1 => 6 | 2 => 4 | 3 => 4 | _ => 1) + b2n mc
  decide (4 < x.op) || decide (1 < hArg h) || hNw h != nw || (mc && decide (3 ≤ x.op)) ||
  (match x.op with
    | 0 => fld w4 48 16 != 0
    | 1 => false
    | 2 => decide (65536 < w4.toNat)
    | 3 => decide (65536 < w4.toNat)
    | _ => x.words.getD 1 0 = 0) ||
  (mc && (windowOf (x.words.getD 3 0) != some 0 || (x.op = 1 && (stridedRows x.words true).any (fun a => windowOf a != some 0)) || fld (x.words.getLastD 0) 32 32 != 0))

/-- A range of the command leaves its space, as one whose rows are not all in one space does, or names the lane store or the Closet: SPACE, with no data
written (R89, R296). -/
def copySpace (s : State) (x : Cmd) : Bool :=
  let out := fun (a : Word) (n : Nat) => leavesSpace s x.core a n
  if hasList x.op then out (listAddr x.op x.words) (16 * listCount x.words)
  else
    let strays := fun (l : List Word) => l.any (fun a => !sameSpace (l.headD 0) a)
    (x.op = 1 && (strays (stridedRows x.words false) || strays (stridedRows x.words true))) ||
    (planOf s x.core x.op x.words []).any (fun p => out p.1 p.2.2 || out p.2.1 p.2.2)

/-- A copy is accepted: it starts now. -/
def startCopy (s : State) (x : Cmd) : State :=
  if copySpace s x then endCmd s x 3 3 0
  else
    let y := { x with snap := s.mem, since := s.history.length, mask := copyMask x.words }
    let s1 := planNext (addCopy s y) y
    match findCmd s1 x.id with
    | some z => if z.ended then endOver s1 z else if z.planned && z.total = 0 then endCmd s1 z 1 0 0 else s1.post (.commandCompletion x.id)
    | none => s1

/-- RESUME (R304): the suspended copy of that completion address and RTAG that is tied to no context goes on; the RESUME itself then ends done,
with nothing written to memory, its completion address being the copy's, and a DONE entry of state 1: DEDUCED, log 83. -/
def resumeCopy (s : State) (x : Cmd) : State :=
  match (s.cluster (clusterOf x.core)).copies.find? (fun y =>
      y.suspended && !y.tie && y.words.getD 1 0 = x.words.getD 1 0 && y.rtag = x.rtag) with
  | none => endCmd s x 3 2 0
  | some y =>
    let s1 := (modCmd (payOwed s y) y.id (fun z => { z with suspended := false })).post (.commandCompletion y.id)
    match x.done with
    | some h => pushDone s1 x.core h (completionWord 1 0 0)
    | none => s1

def execCopyLinear (core hatch : Nat) (s : State) : Out :=
  takeBy (.copyLinear core hatch) core hatch (fun s => takeCmd s core hatch copyBad startCopy) s
def execCopyStrided (core hatch : Nat) (s : State) : Out :=
  takeBy (.copyStrided core hatch) core hatch (fun s => takeCmd s core hatch copyBad startCopy) s
def execCopyGather (core hatch : Nat) (s : State) : Out :=
  takeBy (.copyGather core hatch) core hatch (fun s => takeCmd s core hatch copyBad startCopy) s
def execCopyScatter (core hatch : Nat) (s : State) : Out :=
  takeBy (.copyScatter core hatch) core hatch (fun s => takeCmd s core hatch copyBad startCopy) s
def execCopyResume (core hatch : Nat) (s : State) : Out :=
  takeBy (.copyResume core hatch) core hatch (fun s => takeCmd s core hatch copyBad resumeCopy) s

/-! Suspension (R304). -/

/-- A suspended copy's word is written, or is owed while its page is not resident and can still come. -/
def oweWord (s : State) (x : Cmd) : State :=
  match writeCompletion s x (completionWord 0 1 x.bytes) with
  | some s1 => modCmd s1 x.id (fun y => { y with owes := false })
  | none =>
    match wordSpan s x.core x.user (x.words.getD 1 0) 8 with
    | (.hold va t _, s1) =>
      let (waits, s2) := awaitPage s1 x va t
      modCmd s2 x.id (fun y => { y with owes := waits })
    | _ => modCmd s x.id (fun y => { y with owes := false })

/-- Suspend one running copy, with `tie` for the context that pushed it: its completion word says how far it came, as soon as it can be written. -/
def suspendCopy (s : State) (x : Cmd) (tie : Bool) : State :=
  let y := { x with suspended := true, tie := tie, bytes := copyBytes x }
  oweWord (modCmd s x.id (fun _ => y)) y

/-- The running copies that the task of slot g has pushed. -/
def copiesOf (s : State) (g : Nat) : List Cmd :=
  (s.cluster (clusterOf (coreOf g))).copies.filter (fun x => x.ctx = (s.slot g).ctx && x.core = coreOf g && !x.suspended && !x.ended)

/-- Suspend every running copy of a slot's task. -/
def suspendCopies (s : State) (g : Nat) (tie : Bool) : State := (copiesOf s g).foldl (fun s x => suspendCopy s x tie) s

/-- Suspend every running copy that slot g has pushed, for whatever task (R359 COPYSTOP). -/
def stopCopies (s : State) (g : Nat) : State :=
  ((s.cluster (clusterOf (coreOf g))).copies.filter (fun x => x.g = g && !x.suspended && !x.ended)).foldl (fun s x => suspendCopy s x false) s

/-- The copies tied to a saved context go on with it, now slot g's (R304). -/
def resumeTied (s : State) (num g : Nat) : State :=
  (s.cluster (clusterOf (coreOf g))).copies.foldl (fun s x =>
    if x.suspended && x.tie && x.ctx = num && x.core = coreOf g then
      (modCmd (payOwed s x) x.id (fun y => { y with suspended := false, tie := false, g := g })).post (.commandCompletion x.id)
    else s) s

end Sys2Proof.Machine
end

