-- ==== Sys2Proof/Machine/Vector.lean ====
section
/-! DEFINITION. Lane grants, vector arithmetic, compares, moves, reductions and masks (R237-R254). -/

namespace Sys2Proof.Machine

/-! Element types (R154). -/

/-- Element width in bits. -/
def etWidth (et : Nat) : Nat :=
  match et with
  | 0 => 32
  | 1 => 32
  | 2 => 16
  | 3 => 16
  | 4 => 8
  | 5 => 16
  | 6 => 32
  | _ => 16

/-- Elements per lane. -/
def etPer (et : Nat) : Nat := 32 / etWidth et
def etSigned (et : Nat) : Bool := et = 0 || et = 2 || et = 4
def etFloat (et : Nat) : Bool := decide (5 ≤ et)
def etFmt (et : Nat) : Fmt := if et = 5 then fF16 else if et = 6 then fF32 else fBF16

/-- Element e of lane l of a register, w bits wide (R238). -/
def Slot.elem (t : Slot) (r l e w : Nat) : Nat := (t.vr r l).toNat / 2 ^ (w * e) % 2 ^ w

/-- Write an element. -/
def Slot.setElem (t : Slot) (r l e w v : Nat) : Slot :=
  let o := (t.vr r l).toNat
  t.setV r l (BitVec.ofNat 32 (o / 2 ^ (w * e + w) * 2 ^ (w * e + w) + v % 2 ^ w * 2 ^ (w * e) + o % 2 ^ (w * e)))

/-- The active elements for a mask and k elements a lane, in ascending element index (R239). -/
def activeElems (t : Slot) (mk k : Nat) : List (Nat × Nat) :=
  ((List.range t.vl).flatMap (fun l => (List.range k).map (fun e => (l, e)))).filter (fun x => t.mr mk (4 * x.1 + x.2))

/-- The first marked lane among those read, with the address its load left (R187). -/
def markedLane (t : Slot) (regs lanes : List Nat) : Option Word :=
  regs.findSome? (fun r => lanes.findSome? (fun l =>
    if t.vPoison.any (fun p => p.1 = r * 128 + l) then some (look 0 (r * 128 + l) t.vPoison) else none))

/-- Stop with MEMERR if a lane the instruction reads is marked. -/
def needLanes (s : State) (regs lanes : List Nat) : Res Unit :=
  match markedLane s.mine regs lanes with
  | some a => trapRes s .memerr a
  | none => .go () s

/-- The vector part of every element-wise instruction: `f` of the old elements of vs1, vs2 and vd gives each active element and its flags; the
sources are read before anything is written (R240). -/
def elementwise (s : State) (n vd vs1 vs2 : Nat) (reads : List Nat) (mk et : Nat) (f : Nat → Nat → Nat → Nat × Flags) : Res Unit :=
  let t := s.mine
  let w := etWidth et
  let act := activeElems t mk (etPer et)
  (needLanes s reads (act.map (fun x => x.1))).bnd fun _ s1 =>
    let t1 := act.foldl (fun a x =>
      let (v, fl) := f (t.elem vs1 x.1 x.2 w) (t.elem vs2 x.1 x.2 w) (t.elem vd x.1 x.2 w)
      (a.setElem vd x.1 x.2 w v).flag fl) t
    pass (s1.modMe (fun _ => t1)) n

/-- A vector instruction of two sources. -/
def vecBin (i : Instr) (vd vs1 vs2 : BitVec 5) (mk et : BitVec 3) (f : Nat → Nat → Nat → Nat × Flags) (s : State) : Out :=
  ((issue i { level := 1, vec := true } s).bnd fun _ s1 =>
    elementwise s1 4 vd.toNat vs1.toNat vs2.toNat [vs1.toNat, vs2.toNat] mk.toNat et.toNat f).outcome

/-- A vector instruction that reads vs2 only. -/
def vecUn (i : Instr) (vd vs2 : BitVec 5) (mk et : BitVec 3) (f : Nat → Nat × Flags) (s : State) : Out :=
  ((issue i { level := 1, vec := true } s).bnd fun _ s1 =>
    elementwise s1 4 vd.toNat 0 vs2.toNat [vs2.toNat] mk.toNat et.toNat (fun _ b _ => f b)).outcome

/-- A fused instruction: vd is read too. -/
def vecTri (i : Instr) (vd vs1 vs2 : BitVec 5) (mk et : BitVec 3) (f : Nat → Nat → Nat → Nat × Flags) (s : State) : Out :=
  ((issue i { level := 1, vec := true } s).bnd fun _ s1 =>
    elementwise s1 4 vd.toNat vs1.toNat vs2.toNat [vs1.toNat, vs2.toNat, vd.toNat] mk.toNat et.toNat f).outcome

/-- A 16-bit form: vd is the first source of a binary one, ET is VTYPE's, the element-type rules of R155 hold for it (R143). -/
def vec16 (i : Instr) (legal : Nat → Bool) (vd vs2 : BitVec 5) (binary : Bool) (f : Nat → Nat → Nat → Nat × Flags) (s : State) : Out :=
  let et := s.mine.vtype.toNat
  ((issue i { level := 1, vec := true, legal := legal et } s).bnd fun _ s1 =>
    elementwise s1 2 vd.toNat vd.toNat vs2.toNat (if binary then [vd.toNat, vs2.toNat] else [vs2.toNat]) 0 et (fun a b _ => f et a b)).outcome

/-! Element functions (R244-R247). -/

/-- A result without flags. -/
def plain (v : Nat) : Nat × Flags := (v, 0)

def elAdd (et a b : Nat) : Nat × Flags := plain ((a + b) % 2 ^ etWidth et)
def elSub (et a b : Nat) : Nat × Flags := plain ((a + 2 ^ etWidth et - b) % 2 ^ etWidth et)
def elMul (et a b : Nat) : Nat × Flags := plain (a * b % 2 ^ etWidth et)

/-- Integer order of two elements. -/
def elLt (et a b : Nat) : Bool :=
  if etSigned et then decide (sextN a (etWidth et) < sextN b (etWidth et)) else decide (a < b)

def elMin (et a b : Nat) : Nat × Flags :=
  if etFloat et then minmaxF (etFmt et) false a b else plain (if elLt et b a then b else a)
def elMax (et a b : Nat) : Nat × Flags :=
  if etFloat et then minmaxF (etFmt et) true a b else plain (if elLt et a b then b else a)
def elAbs (et b : Nat) : Nat × Flags :=
  let w := etWidth et
  plain (if etFloat et then b % 2 ^ (w - 1) else if etSigned et then lowN ((sextN b w).natAbs : Int) w else b)
def elNeg (et b : Nat) : Nat × Flags :=
  let w := etWidth et
  plain (if etFloat et then (b + 2 ^ (w - 1)) % 2 ^ w else (2 ^ w - b) % 2 ^ w)
def elNot (et b : Nat) : Nat × Flags := plain (2 ^ etWidth et - 1 - b)
def elShl (et a b : Nat) : Nat × Flags := plain (a * 2 ^ (b % etWidth et) % 2 ^ etWidth et)
def elShr (et a b : Nat) : Nat × Flags := plain (a / 2 ^ (b % etWidth et))
def elSra (et a b : Nat) : Nat × Flags :=
  let w := etWidth et
  plain (lowN (sextN a w / (2 ^ (b % w) : Nat)) w)

def elFadd (et : Nat) (rm : RM) (a b : Nat) : Nat × Flags :=
  rnd (etFmt et) rm (addV rm (decodeF (etFmt et) a) (decodeF (etFmt et) b))
def elFsub (et : Nat) (rm : RM) (a b : Nat) : Nat × Flags :=
  rnd (etFmt et) rm (addV rm (decodeF (etFmt et) a) (decodeF (etFmt et) b).neg)
def elFmul (et : Nat) (rm : RM) (a b : Nat) : Nat × Flags :=
  rnd (etFmt et) rm (mulV (decodeF (etFmt et) a) (decodeF (etFmt et) b))
def elFma (et : Nat) (rm : RM) (a b d : Nat) : Nat × Flags :=
  rnd (etFmt et) rm (fmaV rm (decodeF (etFmt et) a) (decodeF (etFmt et) b) (decodeF (etFmt et) d))
def elFms (et : Nat) (rm : RM) (a b d : Nat) : Nat × Flags :=
  rnd (etFmt et) rm (fmaV rm (decodeF (etFmt et) a).neg (decodeF (etFmt et) b) (decodeF (etFmt et) d))

/-- The exact value of an element. -/
def elVal (et c : Nat) : Val :=
  if etFloat et then decodeF (etFmt et) c
  else if etSigned et then Val.ofInt (sextN c (etWidth et)) else Val.ofInt c

/-- `convert` (R133, R134, R247). -/
def elCvt (src et : Nat) (rm : RM) (c : Nat) : Nat × Flags :=
  if etFloat et then rndF (etFmt et) rm true (elVal src c) else rndI (etWidth et) (etSigned et) rm (elVal src c)

/-- Add under a type, RNE for floats: the `comb` of reductions and of the 16-bit forms. -/
def elAddAny (et a b : Nat) : Nat × Flags := if etFloat et then elFadd et .rne a b else elAdd et a b
def elSubAny (et a b : Nat) : Nat × Flags := if etFloat et then elFsub et .rne a b else elSub et a b
def elMulAny (et a b : Nat) : Nat × Flags := if etFloat et then elFmul et .rne a b else elMul et a b

/-! R244, R246: the arithmetic instructions. -/

def execVadd (vd vs1 vs2 : BitVec 5) (mk et : BitVec 3) (s : State) : Out :=
  vecBin (.vadd vd vs1 vs2 mk et) vd vs1 vs2 mk et (fun a b _ => elAdd et.toNat a b) s
def execVsub (vd vs1 vs2 : BitVec 5) (mk et : BitVec 3) (s : State) : Out :=
  vecBin (.vsub vd vs1 vs2 mk et) vd vs1 vs2 mk et (fun a b _ => elSub et.toNat a b) s
def execVmul (vd vs1 vs2 : BitVec 5) (mk et : BitVec 3) (s : State) : Out :=
  vecBin (.vmul vd vs1 vs2 mk et) vd vs1 vs2 mk et (fun a b _ => elMul et.toNat a b) s
def execVmin (vd vs1 vs2 : BitVec 5) (mk et : BitVec 3) (s : State) : Out :=
  vecBin (.vmin vd vs1 vs2 mk et) vd vs1 vs2 mk et (fun a b _ => elMin et.toNat a b) s
def execVmax (vd vs1 vs2 : BitVec 5) (mk et : BitVec 3) (s : State) : Out :=
  vecBin (.vmax vd vs1 vs2 mk et) vd vs1 vs2 mk et (fun a b _ => elMax et.toNat a b) s
def execVabs (vd vs2 : BitVec 5) (mk et : BitVec 3) (s : State) : Out :=
  vecUn (.vabs vd vs2 mk et) vd vs2 mk et (elAbs et.toNat) s
def execVneg (vd vs2 : BitVec 5) (mk et : BitVec 3) (s : State) : Out :=
  vecUn (.vneg vd vs2 mk et) vd vs2 mk et (elNeg et.toNat) s
def execVand (vd vs1 vs2 : BitVec 5) (mk et : BitVec 3) (s : State) : Out :=
  vecBin (.vand vd vs1 vs2 mk et) vd vs1 vs2 mk et (fun a b _ => plain (Nat.land a b)) s
def execVor (vd vs1 vs2 : BitVec 5) (mk et : BitVec 3) (s : State) : Out :=
  vecBin (.vor vd vs1 vs2 mk et) vd vs1 vs2 mk et (fun a b _ => plain (Nat.lor a b)) s
def execVxor (vd vs1 vs2 : BitVec 5) (mk et : BitVec 3) (s : State) : Out :=
  vecBin (.vxor vd vs1 vs2 mk et) vd vs1 vs2 mk et (fun a b _ => plain (Nat.xor a b)) s
def execVnot (vd vs2 : BitVec 5) (mk et : BitVec 3) (s : State) : Out :=
  vecUn (.vnot vd vs2 mk et) vd vs2 mk et (elNot et.toNat) s
def execVshl (vd vs1 vs2 : BitVec 5) (mk et : BitVec 3) (s : State) : Out :=
  vecBin (.vshl vd vs1 vs2 mk et) vd vs1 vs2 mk et (fun a b _ => elShl et.toNat a b) s
def execVshr (vd vs1 vs2 : BitVec 5) (mk et : BitVec 3) (s : State) : Out :=
  vecBin (.vshr vd vs1 vs2 mk et) vd vs1 vs2 mk et (fun a b _ => elShr et.toNat a b) s
def execVsra (vd vs1 vs2 : BitVec 5) (mk et : BitVec 3) (s : State) : Out :=
  vecBin (.vsra vd vs1 vs2 mk et) vd vs1 vs2 mk et (fun a b _ => elSra et.toNat a b) s
def execVmov (vd vs2 : BitVec 5) (mk et : BitVec 3) (s : State) : Out :=
  vecUn (.vmov vd vs2 mk et) vd vs2 mk et plain s

def execVfadd (vd vs1 vs2 : BitVec 5) (mk et : BitVec 3) (rm : BitVec 2) (s : State) : Out :=
  vecBin (.vfadd vd vs1 vs2 mk et rm) vd vs1 vs2 mk et (fun a b _ => elFadd et.toNat (RM.of rm) a b) s
def execVfsub (vd vs1 vs2 : BitVec 5) (mk et : BitVec 3) (rm : BitVec 2) (s : State) : Out :=
  vecBin (.vfsub vd vs1 vs2 mk et rm) vd vs1 vs2 mk et (fun a b _ => elFsub et.toNat (RM.of rm) a b) s
def execVfmul (vd vs1 vs2 : BitVec 5) (mk et : BitVec 3) (rm : BitVec 2) (s : State) : Out :=
  vecBin (.vfmul vd vs1 vs2 mk et rm) vd vs1 vs2 mk et (fun a b _ => elFmul et.toNat (RM.of rm) a b) s
def execVfma (vd vs1 vs2 : BitVec 5) (mk et : BitVec 3) (rm : BitVec 2) (s : State) : Out :=
  vecTri (.vfma vd vs1 vs2 mk et rm) vd vs1 vs2 mk et (elFma et.toNat (RM.of rm)) s
def execVfms (vd vs1 vs2 : BitVec 5) (mk et : BitVec 3) (rm : BitVec 2) (s : State) : Out :=
  vecTri (.vfms vd vs1 vs2 mk et rm) vd vs1 vs2 mk et (elFms et.toNat (RM.of rm)) s
def execVsqrt (vd vs2 : BitVec 5) (mk : BitVec 3) (rm : BitVec 2) (s : State) : Out :=
  vecUn (.vsqrt vd vs2 mk rm) vd vs2 mk 6 (special .sqrt (RM.of rm)) s
def execVrcp (vd vs2 : BitVec 5) (mk : BitVec 3) (rm : BitVec 2) (s : State) : Out :=
  vecUn (.vrcp vd vs2 mk rm) vd vs2 mk 6 (special .rcp (RM.of rm)) s
def execVrsq (vd vs2 : BitVec 5) (mk : BitVec 3) (rm : BitVec 2) (s : State) : Out :=
  vecUn (.vrsq vd vs2 mk rm) vd vs2 mk 6 (special .rsq (RM.of rm)) s
def execVexp2 (vd vs2 : BitVec 5) (mk : BitVec 3) (rm : BitVec 2) (s : State) : Out :=
  vecUn (.vexp2 vd vs2 mk rm) vd vs2 mk 6 (special .exp2 (RM.of rm)) s
def execVlog2 (vd vs2 : BitVec 5) (mk : BitVec 3) (rm : BitVec 2) (s : State) : Out :=
  vecUn (.vlog2 vd vs2 mk rm) vd vs2 mk 6 (special .log2 (RM.of rm)) s

/-! R143: the 16-bit forms. -/

def anyType (_ : Nat) : Bool := true
def onlyInt (et : Nat) : Bool := decide (et ≤ 4)

def execVadd16 (vd vs2 : BitVec 5) (s : State) : Out := vec16 (.vadd16 vd vs2) anyType vd vs2 true elAddAny s
def execVsub16 (vd vs2 : BitVec 5) (s : State) : Out := vec16 (.vsub16 vd vs2) anyType vd vs2 true elSubAny s
def execVmul16 (vd vs2 : BitVec 5) (s : State) : Out := vec16 (.vmul16 vd vs2) anyType vd vs2 true elMulAny s
def execVmin16 (vd vs2 : BitVec 5) (s : State) : Out := vec16 (.vmin16 vd vs2) anyType vd vs2 true elMin s
def execVmax16 (vd vs2 : BitVec 5) (s : State) : Out := vec16 (.vmax16 vd vs2) anyType vd vs2 true elMax s
def execVabs16 (vd vs2 : BitVec 5) (s : State) : Out := vec16 (.vabs16 vd vs2) anyType vd vs2 false (fun et _ b => elAbs et b) s
def execVneg16 (vd vs2 : BitVec 5) (s : State) : Out := vec16 (.vneg16 vd vs2) anyType vd vs2 false (fun et _ b => elNeg et b) s
def execVand16 (vd vs2 : BitVec 5) (s : State) : Out :=
  vec16 (.vand16 vd vs2) anyType vd vs2 true (fun _ a b => plain (Nat.land a b)) s
def execVor16 (vd vs2 : BitVec 5) (s : State) : Out :=
  vec16 (.vor16 vd vs2) anyType vd vs2 true (fun _ a b => plain (Nat.lor a b)) s
def execVxor16 (vd vs2 : BitVec 5) (s : State) : Out :=
  vec16 (.vxor16 vd vs2) anyType vd vs2 true (fun _ a b => plain (Nat.xor a b)) s
def execVnot16 (vd vs2 : BitVec 5) (s : State) : Out := vec16 (.vnot16 vd vs2) anyType vd vs2 false (fun et _ b => elNot et b) s
def execVshl16 (vd vs2 : BitVec 5) (s : State) : Out := vec16 (.vshl16 vd vs2) onlyInt vd vs2 true elShl s
def execVshr16 (vd vs2 : BitVec 5) (s : State) : Out := vec16 (.vshr16 vd vs2) onlyInt vd vs2 true elShr s
def execVsra16 (vd vs2 : BitVec 5) (s : State) : Out := vec16 (.vsra16 vd vs2) onlyInt vd vs2 true elSra s
def execVmov16 (vd vs2 : BitVec 5) (s : State) : Out := vec16 (.vmov16 vd vs2) anyType vd vs2 false (fun _ _ b => plain b) s
def execVrcp16 (vd vs2 : BitVec 5) (s : State) : Out :=
  vec16 (.vrcp16 vd vs2) (fun et => et = 6) vd vs2 false (fun _ _ b => special .rcp .rne b) s

/-! R247-R249. -/

/-- VCVT: elements 0 to VL min(ks, kt) - 1, each read at its source position and written at its target position. -/
def execVcvt (vd : BitVec 5) (src : BitVec 3) (vs2 : BitVec 5) (mk et : BitVec 3) (rm : BitVec 2) (s : State) : Out :=
  ((issue (.vcvt vd src vs2 mk et rm) { level := 1, vec := true } s).bnd fun _ s1 =>
    let t := s1.mine
    let ks := etPer src.toNat
    let kt := etPer et.toNat
    let act := (List.range (t.vl * min ks kt)).filter (fun i => t.mr mk.toNat (4 * (i / kt) + i % kt))
    (needLanes s1 [vs2.toNat] (act.map (fun i => i / ks))).bnd fun _ s2 =>
      let t1 := act.foldl (fun a i =>
        let (v, fl) := elCvt src.toNat et.toNat (RM.of rm) (t.elem vs2.toNat (i / ks) (i % ks) (etWidth src.toNat))
        (a.setElem vd.toNat (i / kt) (i % kt) (etWidth et.toNat) v).flag fl) t
      pass (s2.modMe (fun _ => t1))).outcome

/-- A VCMP test (R248): eq, ne, lt, ge; floats compare quietly. -/
def elCmp (et cc a b : Nat) : Bool × Flags :=
  if etFloat et then
    let x := decodeF (etFmt et) a
    let y := decodeF (etFmt et) b
    let un := x.isNan || y.isNan
    (match cc with
      | 0 => !un && eqV x y
      | 1 => un || !eqV x y
      | 2 => !un && ltV x y
      | _ => !un && !ltV x y, snanFlag x y)
  else
    (match cc with
      | 0 => a == b
      | 1 => a != b
      | 2 => elLt et a b
      | _ => !elLt et a b, 0)

def execVcmp (vd : BitVec 3) (vs1 vs2 : BitVec 5) (mk et : BitVec 3) (cc : BitVec 2) (s : State) : Out :=
  ((issue (.vcmp vd vs1 vs2 mk et cc) { level := 1, vec := true } s).bnd fun _ s1 =>
    let t := s1.mine
    let w := etWidth et.toNat
    let k := etPer et.toNat
    let act := activeElems t mk.toNat k
    (needLanes s1 [vs1.toNat, vs2.toNat] (act.map (fun x => x.1))).bnd fun _ s2 =>
      let t1 := (List.range t.vl).foldl (fun a l => (List.range 4).foldl (fun (a : Slot) e =>
        if decide (e < k) && t.mr mk.toNat (4 * l + e) then
          let (r, fl) := elCmp et.toNat cc.toNat (t.elem vs1.toNat l e w) (t.elem vs2.toNat l e w)
          (a.setM vd.toNat (4 * l + e) r).flag fl
        else a.setM vd.toNat (4 * l + e) false) a) t
      pass (s2.modMe (fun _ => t1))).outcome

/-- VSEL writes every element of the lanes below VL; the mask chooses the source. -/
def execVsel (vd vs1 vs2 : BitVec 5) (mk et : BitVec 3) (s : State) : Out :=
  ((issue (.vsel vd vs1 vs2 mk et) { level := 1, vec := true } s).bnd fun _ s1 =>
    let t := s1.mine
    let w := etWidth et.toNat
    let all := activeElems t 0 (etPer et.toNat)
    (needLanes s1 [vs1.toNat, vs2.toNat] (all.map (fun x => x.1))).bnd fun _ s2 =>
      let t1 := all.foldl (fun (a : Slot) x =>
        a.setElem vd.toNat x.1 x.2 w (t.elem (if t.mr mk.toNat (4 * x.1 + x.2) then vs1.toNat else vs2.toNat) x.1 x.2 w)) t
      pass (s2.modMe (fun _ => t1))).outcome

/-- A 5-bit field naming x0-x31 as a scalar register field. -/
def xField (r : BitVec 5) : RegField := r.setWidth 6

def execVsplat (vd vs1 : BitVec 5) (mk et : BitVec 3) (s : State) : Out :=
  ((issue (.vsplat vd vs1 mk et) { level := 1, vec := true, srcs := [xField vs1] } s).bnd fun v s1 =>
    elementwise s1 4 vd.toNat 0 0 [] mk.toNat et.toNat (fun _ _ _ => plain ((v.getD 0 0).toNat % 2 ^ etWidth et.toNat))).outcome

def execVextr (vd vs1 vs2 : BitVec 5) (mk et : BitVec 3) (s : State) : Out :=
  ((issue (.vextr vd vs1 vs2 mk et) { level := 1, vec := true, srcs := [xField vs1] } s).bnd fun v s1 =>
    let t := s1.mine
    let i := (v.getD 0 0).toNat
    let k := etPer et.toNat
    let w := etWidth et.toNat
    if decide (i < t.vl * k) && t.mr mk.toNat (4 * (i / k) + i % k) then
      (needLanes s1 [vs2.toNat] [i / k]).bnd fun _ s2 =>
        let e := t.elem vs2.toNat (i / k) (i % k) w
        finish s2 s2 (xField vd) (if etSigned et.toNat then BitVec.ofInt 64 (sextN e w) else wd e)
    else finish s1 s1 (xField vd) 0).outcome

def execViota (vd : BitVec 5) (mk et : BitVec 3) (s : State) : Out :=
  ((issue (.viota vd mk et) { level := 1, vec := true } s).bnd fun _ s1 =>
    let t := s1.mine
    let k := etPer et.toNat
    let w := etWidth et.toNat
    let t1 := (activeElems t mk.toNat k).foldl (fun (a : Slot) x =>
      let i := x.1 * k + x.2
      a.setElem vd.toNat x.1 x.2 w (if etFloat et.toNat then (rndF (etFmt et.toNat) .rne false (Val.ofInt i)).1 else i)) t
    pass (s1.modMe (fun _ => t1))).outcome

/-! R250, R251. -/

/-- The operation of `comb`. -/
def combOp (op et a b : Nat) : Nat × Flags :=
  match op with
  | 0 => elAddAny et a b
  | 1 => elMin et a b
  | 2 => elMax et a b
  | 3 => plain (Nat.land a b)
  | 4 => plain (Nat.lor a b)
  | _ => plain (Nat.xor a b)

/-- `comb`, absent elements aside. -/
def comb (op et : Nat) : Option Nat → Option Nat → Option Nat × Flags
  | none, y => (y, 0)
  | x, none => (x, 0)
  | some a, some b => let (v, f) := combOp op et a b; (some v, f)

/-- One round of the tree: neighbours combined in pairs. -/
def combPairs (op et : Nat) : List (Option Nat) → List (Option Nat) × Flags
  | a :: b :: r =>
    let (v, f) := comb op et a b
    let (l, g) := combPairs op et r
    (v :: l, f ||| g)
  | l => (l, 0)

/-- The tree's rounds until one element is left. -/
def combTree (op et : Nat) : Nat → List (Option Nat) → Option Nat × Flags
  | 0, l => (l.headD none, 0)
  | n + 1, l =>
    let (m, f) := combPairs op et l
    let (r, g) := combTree op et n m
    (r, f ||| g)

/-- log2 of the smallest power of two at least n. -/
def ceilLog2 (n : Nat) : Nat := if n ≤ 1 then 0 else Nat.log2 (n - 1) + 1

/-- The identity of a reduction (R250). -/
def combIdentity (op et : Nat) : Nat :=
  let w := etWidth et
  match op with
  | 1 => if etFloat et then (etFmt et).infBits else if etSigned et then 2 ^ (w - 1) - 1 else 2 ^ w - 1
  | 2 => if etFloat et then (etFmt et).signBit + (etFmt et).infBits else if etSigned et then 2 ^ (w - 1) else 0
  | 3 => 2 ^ w - 1
  | _ => 0

def execVred (vd op vs2 : BitVec 5) (mk et : BitVec 3) (s : State) : Out :=
  ((issue (.vred vd op vs2 mk et) { level := 1, vec := true } s).bnd fun _ s1 =>
    let t := s1.mine
    let k := etPer et.toNat
    let w := etWidth et.toNat
    let n := t.vl * k
    let g := ceilLog2 n
    (needLanes s1 [vs2.toNat] ((activeElems t mk.toNat k).map (fun x => x.1))).bnd fun _ s2 =>
      let l := (List.range (2 ^ g)).map (fun i =>
        if decide (i < n) && t.mr mk.toNat (4 * (i / k) + i % k) then some (t.elem vs2.toNat (i / k) (i % k) w) else none)
      let (r, fl) := combTree op.toNat et.toNat g l
      pass (s2.modMe (fun t => (t.setElem vd.toNat 0 0 w (r.getD (combIdentity op.toNat et.toNat))).flag fl))).outcome

def execVscan (vd op vs2 : BitVec 5) (mk et : BitVec 3) (s : State) : Out :=
  ((issue (.vscan vd op vs2 mk et) { level := 1, vec := true } s).bnd fun _ s1 =>
    let t := s1.mine
    let w := etWidth et.toNat
    let act := activeElems t mk.toNat (etPer et.toNat)
    (needLanes s1 [vs2.toNat] (act.map (fun x => x.1))).bnd fun _ s2 =>
      let r := act.foldl (fun (a : Option Nat × Slot) x =>
        let (v, fl) := comb op.toNat et.toNat a.1 (some (t.elem vs2.toNat x.1 x.2 w))
        (v, (a.2.setElem vd.toNat x.1 x.2 w (v.getD 0)).flag fl)) (none, t)
      pass (s2.modMe (fun _ => r.2))).outcome

/-! R252, R253. -/

/-- Whole lanes moved by `src`: lane l reads lane `src l` where that is usable, else its own vs1 value, and the mask records which did. -/
def moveLanes (s : State) (vd vs1 mk : Nat) (reads : List Nat) (src : Nat → Option Nat) : Res Unit :=
  let t := s.mine
  let on := fun l => decide (l < t.vl) && t.mr mk (4 * l)
  let act := (List.range t.vl).filter on
  let ok := fun l => on l && (match src l with | some j => on j | none => false)
  (needLanes s reads act).bnd fun _ s1 =>
  (needLanes s1 [vs1] (act.map (fun l => if ok l then (src l).getD l else l))).bnd fun _ s2 =>
    let t1 := act.foldl (fun (a : Slot) l => a.setV vd l (t.vr vs1 (if ok l then (src l).getD l else l))) t
    let t2 := (List.range t.vl).foldl (fun a l => (List.range 4).foldl (fun (a : Slot) e => a.setM mk (4 * l + e) (ok l)) a) t1
    pass (s2.modMe (fun _ => t2))

def execVperm (vd vs1 vs2 : BitVec 5) (mk : BitVec 3) (s : State) : Out :=
  ((issue (.vperm vd vs1 vs2 mk) { level := 1, vec := true } s).bnd fun _ s1 =>
    moveLanes s1 vd.toNat vs1.toNat mk.toNat [vs2.toNat] (fun l => some (s1.mine.vr vs2.toNat l).toNat)).outcome

def execVslide (vd vs1 vs2 : BitVec 5) (mk : BitVec 3) (s : State) : Out :=
  ((issue (.vslide vd vs1 vs2 mk) { level := 1, vec := true, srcs := [xField vs2] } s).bnd fun v s1 =>
    moveLanes s1 vd.toNat vs1.toNat mk.toNat [] (fun l =>
      let j := (l : Int) + (v.getD 0 0).toInt
      if j < 0 then none else some j.toNat)).outcome

/-! R254. -/

/-- Write the mask positions of the lanes below VL. -/
def maskOut (i : Instr) (md : Nat) (f : Slot → Nat → Bool) (s : State) : Out :=
  ((issue i { level := 1, vec := true } s).bnd fun _ s1 =>
    let t := s1.mine
    pass (s1.modMe (fun _ => (List.range (4 * t.vl)).foldl (fun (a : Slot) n => a.setM md n (f t n)) t))).outcome

def execMand (vd vs1 vs2 : BitVec 3) (s : State) : Out :=
  maskOut (.mand vd vs1 vs2) vd.toNat (fun t n => t.mr vs1.toNat n && t.mr vs2.toNat n) s
def execMor (vd vs1 vs2 : BitVec 3) (s : State) : Out :=
  maskOut (.mor vd vs1 vs2) vd.toNat (fun t n => t.mr vs1.toNat n || t.mr vs2.toNat n) s
def execMnot (vd vs2 : BitVec 3) (s : State) : Out := maskOut (.mnot vd vs2) vd.toNat (fun t n => !t.mr vs2.toNat n) s

def execMpop (vd : BitVec 5) (vs2 : BitVec 3) (s : State) : Out :=
  ((issue (.mpop vd vs2) { level := 1, vec := true } s).bnd fun _ s1 =>
    finish s1 s1 (xField vd) (wd ((List.range (4 * s1.mine.vl)).filter (fun n => s1.mine.mr vs2.toNat n)).length)).outcome
def execMfirst (vd : BitVec 5) (vs2 : BitVec 3) (s : State) : Out :=
  ((issue (.mfirst vd vs2) { level := 1, vec := true } s).bnd fun _ s1 =>
    finish s1 s1 (xField vd) (match (List.range (4 * s1.mine.vl)).find? (fun n => s1.mine.mr vs2.toNat n) with
      | some n => wd n
      | none => BitVec.allOnes 64)).outcome

/-! Lane grants (R241, R242). -/

/-- Lanes `lo` up to but not `hi` of a slot cleared to zero: registers, masks, lane store. -/
def clearLanes (s : State) (g lo hi : Nat) : State :=
  let lanes := (List.range hi).drop lo
  let s1 := s.modSlot g (fun t => { t with
    v := t.v.filter (fun x => !(decide (lo ≤ x.1 % 128) && decide (x.1 % 128 < hi)))
    vPoison := t.vPoison.filter (fun x => !(decide (lo ≤ x.1 % 128) && decide (x.1 % 128 < hi)))
    m := t.m.map (fun x => (x.1, lanes.foldl (fun (w : BitVec 512) l => w &&& ~~~(BitVec.ofNat 512 (15 * 2 ^ (4 * l)))) x.2)) })
  { s1 with mem := s1.mem.filter (fun c => !(lanes.any (fun l => decide (locLane g l 0 ≤ c.1) && decide (c.1 < locLane g l 0 + 512)))) }

/-- A slot's grant set to n lanes: those it gives up or gains are cleared, VL is n. -/
def setGrant (s : State) (g n : Nat) : State :=
  let g0 := (s.slot g).grant
  (clearLanes s g (min n g0) (max n g0)).modSlot g (fun t => { t with grant := n, vl := n })

/-- What VCLAIM gets for a request of n lanes from f free ones (R241). -/
def claimed (g0 f n : Nat) : Nat :=
  let r := min ((n + 15) / 16 * 16) 128
  if r ≤ g0 then r else min r (g0 + f / 16 * 16)

def execVclaim (rd rs1 : RegField) (s : State) : Out :=
  ((issue (.vclaim rd rs1) { level := 1, srcs := [rs1], dst := some rd } s).bnd fun v s1 =>
    let g := claimed s1.mine.grant (freeLanes s1 s1.curCore) (v.getD 0 0).toNat
    finish s1 (setGrant s1 s1.me g) rd (wd g)).outcome

def execVyield (s : State) : Out :=
  ((issue .vyield { level := 1 } s).bnd fun _ s1 => pass (if s1.mine.grant = 0 then s1 else setGrant s1 s1.me 0)).outcome

end Sys2Proof.Machine
end

