-- ==== Sys2Proof/Machine/VectorMem.lean ====
section
/-! DEFINITION. Vector memory accesses (R255-R258). -/

namespace Sys2Proof.Machine

/-- Element bytes of the SZ field (R255). -/
def szBytes (sz : Nat) : Nat := 2 ^ sz

/-- The active elements as elements of memory: lane and position with address (R256, R239). -/
def vecElems (t : Slot) (mk b : Nat) (addr : Nat → Nat → Nat → Word) : List (Elem × Nat × Nat) :=
  let k := 4 / b
  (activeElems t mk k).map (fun x => ({ a := addr (x.1 * k + x.2) x.1 x.2, n := b, lane := x.1 }, x.1, x.2))

/-- The fields of one vector access. -/
structure VecAccess where
  vd : Nat
  b  : Nat
  elems : List (Elem × Nat × Nat)

/-- Load the elements: checks, holds, then each performed in ascending index and all written; one whose bytes carry an error marks its lane
with its address, unless an earlier element has marked it: which of a lane's elements gives the mark R187 leaves open, DESIGN CHOICE, log 70 (R91, R187,
R257). -/
def vecLoad (s : State) (x : VecAccess) : Res Unit :=
  (checkAccess s (x.elems.map (fun e => e.1)) .vload false).bnd fun ps s1 =>
  (holdLoad s1 (ps.map (fun p => (p, x.b)))).bnd fun _ s2 =>
    let r := (x.elems.zip ps).foldl (fun (a : (State × Slot) × List (Nat × Word)) z =>
      let (bs, bad, s3) := readPlace a.1.1 a.1.1.curCore z.2 x.b
      let v := if bad then z.1.1.a.toNat % 2 ^ (8 * x.b) else leNat bs
      let t := a.1.2.setElem x.vd z.1.2.1 z.1.2.2 (8 * x.b) v
      ((s3, t), if bad && !a.2.any (fun m => m.1 = z.1.2.1) then a.2 ++ [(z.1.2.1, z.1.1.a)] else a.2)) ((s2, s2.mine), [])
    pass (r.1.1.modMe (fun t => { r.1.2 with
      pc := t.pc, vPoison := r.2.foldl (fun m p => put (x.vd * 128 + p.1) p.2 m) r.1.2.vPoison }))

/-- Store elements from the list on, noting how far the instruction has come when it must wait (R91); `ps` are the places of all its elements. -/
def vecStoreFrom (s : State) (ps : List Place) (b : Nat) : List (Place × List Byte) → Nat → Res Unit
  | [], _ => .go () (s.modMe (fun t => { t with vprog := 0 }))
  | z :: r, n =>
    if placeDirty s s.curCore z.1 && dirtyFull s s.curCore then holdIssued (s.modMe (fun t => { t with vprog := n })) ps .dirtyLog
    else if logFull s z.1 then waitLog (s.modMe (fun t => { t with vprog := n })) z.1 ps 1
    else vecStoreFrom (storeElem s z.1 z.2 .vstore) ps b r (n + 1)

/-- Store the elements in ascending index (R91, R257); on going on after a wait, those already stored are not stored again. -/
def vecStore (s : State) (x : VecAccess) : Res Unit :=
  let t := s.mine
  (needLanes s [x.vd] (x.elems.map (fun e => e.2.1))).bnd fun _ s0 =>
  (checkAccess s0 (x.elems.map (fun e => e.1)) .vstore true).bnd fun ps s1 =>
  (holdAccess s1 (ps.map (fun p => (p, x.b))) false).bnd fun _ s2 =>
    let zs := (x.elems.zip ps).map (fun z => (z.2, leBytes (t.elem x.vd z.1.2.1 z.1.2.2 (8 * x.b)) x.b))
    (vecStoreFrom s2 ps x.b (zs.drop t.vprog) t.vprog).bnd fun _ s3 => pass s3

/-- VLDL and VSTL need a lane-store address (R256). With no active element there is no access, and no trap: R256 does not say whether it is taken there, DESIGN
CHOICE, log 70. -/
def needLaneStore (s : State) (a : Word) (x : VecAccess) : Res Unit :=
  need s (fld a 48 16 = 0xFF01 || x.elems.isEmpty) .attrmix a

def vecAccess (t : Slot) (vd : BitVec 5) (sz : BitVec 2) (mk : BitVec 3) (addr : Nat → Nat → Nat → Word) : VecAccess :=
  { vd := vd.toNat, b := szBytes sz.toNat, elems := vecElems t mk.toNat (szBytes sz.toNat) addr }

def execVld (vd : BitVec 5) (rs1 : RegField) (sz : BitVec 2) (mk : BitVec 3) (s : State) : Out :=
  ((issue (.vld vd rs1 sz mk) { level := 1, vec := true, srcs := [rs1] } s).bnd fun v s1 =>
    vecLoad s1 (vecAccess s1.mine vd sz mk (fun i _ _ => v.getD 0 0 + wd (i * szBytes sz.toNat)))).outcome
def execVst (vd : BitVec 5) (rs1 : RegField) (sz : BitVec 2) (mk : BitVec 3) (s : State) : Out :=
  ((issue (.vst vd rs1 sz mk) { level := 1, vec := true, srcs := [rs1] } s).bnd fun v s1 =>
    vecStore s1 (vecAccess s1.mine vd sz mk (fun i _ _ => v.getD 0 0 + wd (i * szBytes sz.toNat)))).outcome
def execVlds (vd : BitVec 5) (rs1 xs : RegField) (sz : BitVec 2) (mk : BitVec 3) (s : State) : Out :=
  ((issue (.vlds vd rs1 xs sz mk) { level := 1, vec := true, srcs := [rs1, xs] } s).bnd fun v s1 =>
    vecLoad s1 (vecAccess s1.mine vd sz mk (fun i _ _ => v.getD 0 0 + wd i * v.getD 1 0))).outcome
def execVsts (vd : BitVec 5) (rs1 xs : RegField) (sz : BitVec 2) (mk : BitVec 3) (s : State) : Out :=
  ((issue (.vsts vd rs1 xs sz mk) { level := 1, vec := true, srcs := [rs1, xs] } s).bnd fun v s1 =>
    vecStore s1 (vecAccess s1.mine vd sz mk (fun i _ _ => v.getD 0 0 + wd i * v.getD 1 0))).outcome

/-- The address of an indexed element: the index element has the access's width. -/
def indexed (t : Slot) (base : Word) (vs2 b l e : Nat) : Word := base + wd (t.elem vs2 l e (8 * b) * b)

def execVgath (vd : BitVec 5) (rs1 : RegField) (vs2 : BitVec 5) (sz : BitVec 2) (mk : BitVec 3) (s : State) : Out :=
  ((issue (.vgath vd rs1 vs2 sz mk) { level := 1, vec := true, srcs := [rs1] } s).bnd fun v s1 =>
    let t := s1.mine
    let x := vecAccess t vd sz mk (fun _ l e => indexed t (v.getD 0 0) vs2.toNat (szBytes sz.toNat) l e)
    (needLanes s1 [vs2.toNat] (x.elems.map (fun e => e.2.1))).bnd fun _ s2 => vecLoad s2 x).outcome
def execVscat (vd : BitVec 5) (rs1 : RegField) (vs2 : BitVec 5) (sz : BitVec 2) (mk : BitVec 3) (s : State) : Out :=
  ((issue (.vscat vd rs1 vs2 sz mk) { level := 1, vec := true, srcs := [rs1] } s).bnd fun v s1 =>
    let t := s1.mine
    let x := vecAccess t vd sz mk (fun _ l e => indexed t (v.getD 0 0) vs2.toNat (szBytes sz.toNat) l e)
    (needLanes s1 [vs2.toNat] (x.elems.map (fun e => e.2.1))).bnd fun _ s2 => vecStore s2 x).outcome
def execVldl (vd : BitVec 5) (rs1 : RegField) (sz : BitVec 2) (mk : BitVec 3) (s : State) : Out :=
  ((issue (.vldl vd rs1 sz mk) { level := 1, vec := true, srcs := [rs1] } s).bnd fun v s1 =>
    let x := vecAccess s1.mine vd sz mk (fun _ _ e => v.getD 0 0 + wd (e * szBytes sz.toNat))
    (needLaneStore s1 (v.getD 0 0) x).bnd fun _ s2 => vecLoad s2 x).outcome
def execVstl (vd : BitVec 5) (rs1 : RegField) (sz : BitVec 2) (mk : BitVec 3) (s : State) : Out :=
  ((issue (.vstl vd rs1 sz mk) { level := 1, vec := true, srcs := [rs1] } s).bnd fun v s1 =>
    let x := vecAccess s1.mine vd sz mk (fun _ _ e => v.getD 0 0 + wd (e * szBytes sz.toNat))
    (needLanes s1 [vd.toNat] (x.elems.map (fun e => e.2.1))).bnd fun _ s2 =>
    (needLaneStore s2 (v.getD 0 0) x).bnd fun _ s2 => vecStore s2 x).outcome

end Sys2Proof.Machine
end

