-- ==== Sys2Proof/Machine/Matrix.lean ====
section
/-! DEFINITION. The matrix unit: configuration, operands, unit operations from issue to completion, and what preemption and annulment do to
them (R125-R132, R260-R274). -/

namespace Sys2Proof.Machine

/-- TRAPVAL of a MATRIX trap (R263). -/
def matrixVal (reason v : Nat) : Word := wd (reason * 2 ^ 60 + v % 2 ^ 60)

/-- Stop with MATRIX unless a condition holds. -/
def needMatrix (s : State) (ok : Bool) (reason : Nat) (v : Word) : Res Unit := need s ok .matrix (matrixVal reason v.toNat)

/-! The configuration (R261, R265, R273). -/

def cfgM (t : Slot) : Nat := fld t.shape 0 7
def cfgN (t : Slot) : Nat := fld t.shape 8 6
def cfgK (t : Slot) : Nat := fld t.shape 16 16
def cfgAF (t : Slot) : Nat := fld t.fmt 0 2
def cfgBF (t : Slot) : Nat := fld t.fmt 2 2
def cfgAcc (t : Slot) : Nat := fld t.fmt 4 1
def cellOps (t : Slot) : Nat := fld t.cell 32 3
/-- A cell program is loaded. -/
def cellMode (t : Slot) : Bool := cellOps t != 0
def cellF32 (t : Slot) : Bool := bit t.cell 35

def shapeOk (w : Word) : Bool :=
  decide (fld w 0 7 ≤ 64 ∧ fld w 8 6 ≤ 32) && !bit w 7 && fld w 14 2 = 0 && fld w 32 32 = 0

/-- The pairings the unit executes (R127). -/
def pairOf (af bf : Nat) : Bool := (decide (af ≤ 1) && decide (bf ≤ 1)) || (af = 2 && bf = 2) || (af = 3 && bf = 3)

def fmtOk (w : Word) : Bool := fld w 5 59 = 0 && pairOf (fld w 0 2) (fld w 2 2)

/-- A cell program word is valid (R273). -/
def cellOk (w : Word) : Bool :=
  fld w 36 28 = 0 && decide (fld w 32 3 ≤ 4) &&
  (List.range 4).all (fun j => if fld w 32 3 ≤ j then fld w (8 * j) 8 = 0 else fld w (8 * j) 3 != 7 && !bit w (8 * j + 7))

/-- A configuration instruction: its check, and the field it writes. -/
def configOp (i : Instr) (srcs : List RegField) (reason : Nat) (val : List Word → Word) (ok : Word → Bool)
    (f : List Word → Slot → Slot) (s : State) : Out :=
  ((issue i { level := 2, srcs := srcs } s).bnd fun v s1 =>
    (needMatrix s1 (ok (val v)) reason (val v)).bnd fun _ s2 => pass (s2.modMe (f v))).outcome

def strideOk (w : Word) : Bool := decide (w.toNat < 2 ^ 18)

def execMcfgShape (rs1 : RegField) (s : State) : Out :=
  configOp (.mcfgShape rs1) [rs1] 1 (fun v => v.getD 0 0) shapeOk (fun v t => { t with shape := v.getD 0 0 }) s
def execMcfgFmt (rs1 : RegField) (s : State) : Out :=
  configOp (.mcfgFmt rs1) [rs1] 2 (fun v => v.getD 0 0) fmtOk (fun v t => { t with fmt := v.getD 0 0 }) s
def execMcfgA (rs1 rs2 : RegField) (s : State) : Out :=
  configOp (.mcfgA rs1 rs2) [rs1, rs2] 3 (fun v => v.getD 1 0) strideOk
    (fun v t => { t with aBase := v.getD 0 0, aStride := v.getD 1 0 }) s
def execMcfgB (rs1 rs2 : RegField) (s : State) : Out :=
  configOp (.mcfgB rs1 rs2) [rs1, rs2] 3 (fun v => v.getD 1 0) strideOk
    (fun v t => { t with bBase := v.getD 0 0, bStride := v.getD 1 0 }) s
def execMcell (rs1 : RegField) (s : State) : Out :=
  configOp (.mcell rs1) [rs1] 5 (fun v => v.getD 0 0) cellOk (fun v t => { t with cell := v.getD 0 0 }) s

/-! Cells (R127-R131, R273). -/

/-- The value of an operand element by its format (R122, R127). -/
def operandVal (f c : Nat) : Val :=
  match f with
  | 0 => decodeT 6 (c % 64)
  | 1 => decodeT 8 c
  | 2 => Val.ofInt (sextN c 8)
  | _ => decodeF fBF16 c

/-- Bytes of an operand element (R266, R273). -/
def operandBytes (t : Slot) (f : Nat) : Nat := if cellMode t then 4 else if f = 3 then 2 else 1

/-- Position of the Q96 point (R127). -/
def point (af : Nat) : Nat := if af ≤ 1 then 32 else 0

/-- `q_step` (R128): the cell, and whether it saturated. -/
def qStep (pt : Nat) (q : BitVec 96) (p : Val) : BitVec 96 × Bool :=
  let d : Int := match p with
    | .num neg m e => alignTo neg m e (-(pt : Int))
    | _ => 0
  let x := q.toInt + d
  let hi : Int := 2 ^ 95 - 1
  let lo : Int := -2 ^ 95
  if hi < x then (BitVec.ofInt 96 hi, true) else if x < lo then (BitVec.ofInt 96 lo, true) else (BitVec.ofInt 96 x, false)

/-- The exact value of an accumulator cell under AF (R127). -/
def cellVal (af : Nat) (q : BitVec 96) : Val :=
  if af = 3 then decodeW96 q
  else let i := q.toInt; .num (decide (i < 0)) i.natAbs (-(point af : Int))

/-- One operation of a cell program (R273): its code, the operands, and a and b for SELLT. -/
def cellOp (f32 : Bool) (code x y a b : Nat) : Nat :=
  if f32 then
    let vx := decodeF fF32 x
    let vy := decodeF fF32 y
    match code with
    | 0 => (rnd fF32 .rne (addV .rne vx vy)).1
    | 1 => (rnd fF32 .rne (addV .rne vx vy.neg)).1
    | 2 => (rnd fF32 .rne (mulV vx vy)).1
    | 3 => (minmaxF fF32 false x y).1
    | 4 => (minmaxF fF32 true x y).1
    | 5 => let r := (rnd fF32 .rne (addV .rne vx vy.neg)).1
           if (decodeF fF32 r).isNan then fF32.qnan else r % 2 ^ 31
    | _ => if ltV vx vy then a else b
  else
    match code with
    | 0 => (x + y) % 2 ^ 32
    | 1 => (x + 2 ^ 32 - y) % 2 ^ 32
    | 2 => x * y % 2 ^ 32
    | 3 => if sextN y 32 < sextN x 32 then y else x
    | 4 => if sextN x 32 < sextN y 32 then y else x
    | 5 => lowN (sextN x 32 - sextN y 32).natAbs 32
    | _ => if sextN x 32 < sextN y 32 then a else b

/-- A source of a cell operation. -/
def cellSrc (n s a b t : Nat) : Nat :=
  match n with
  | 0 => s
  | 1 => a
  | 2 => b
  | _ => t

/-- The recurrence of a cell program, from operation j on (R273). -/
def cellRun (w : Word) (s a b : Nat) : Nat → Nat → Nat → Nat
  | 0, _, t => t
  | n + 1, j, t =>
    let o := fld w (8 * j) 8
    cellRun w s a b n (j + 1)
      (cellOp (bit w 35) (o % 8) (cellSrc (o / 8 % 4) s a b t) (cellSrc (o / 32 % 4) s a b t) a b)

/-- One k-step of one cell on the operands' codes: the cell, saturation, and whether an operand was NAR (R125, R128, R130, R273). -/
def mmaStep (t : Slot) (q : BitVec 96) (a b : Nat) : BitVec 96 × Bool × Bool :=
  if cellMode t then
    let s := q.toNat % 2 ^ 32
    (BitVec.ofNat 96 (cellRun t.cell s a b (cellOps t) 0 s), false, false)
  else
    let va := operandVal (cfgAF t) a
    let vb := operandVal (cfgBF t) b
    if cfgAF t = 3 then (rneW96 (fmaV .rne va vb (decodeW96 q)), false, false)
    else if va = .nar || vb = .nar then (q, false, true)
    else
      let (q1, o) := qStep (point (cfgAF t)) q (mulV va vb).1
      (q1, o, false)

/-- The cells of a region, ascending i, then j. -/
def regionCells (m n : Nat) : List (Nat × Nat) := (List.range m).flatMap (fun i => (List.range n).map (fun j => (i, j)))

def Acc.cell (a : Acc) (i j : Nat) : BitVec 96 := look 0 (64 * i + j) a.cells
def Acc.setCell (a : Acc) (i j : Nat) (v : BitVec 96) : Acc := { a with cells := put (64 * i + j) v a.cells }

/-- One k-step of a whole region. -/
def mmaRow (t : Slot) (rdA rdB : Nat → Nat → Nat) (acc : Acc) (k : Nat) : Acc :=
  (regionCells (cfgM t) (cfgN t)).foldl (fun acc c =>
    let (q, o, z) := mmaStep t (acc.cell c.1 c.2) (rdA c.1 k) (rdB k c.2)
    let r := acc.setCell c.1 c.2 q
    { r with aovf := r.aovf || o, anar := r.anar || z }) acc

/-- MMA.z's clearing (R267); in cell mode the flags are left as they are (R273). -/
def clearRegion (t : Slot) (acc : Acc) : Acc :=
  let r := (regionCells (cfgM t) (cfgN t)).foldl (fun a c => a.setCell c.1 c.2 0) acc
  if cellMode t then r else { r with aovf := false, anar := false }

/-! Accumulators (R262). -/

def Core.acc (k : Core) (n : Nat) : Acc := if n = 0 then k.acc0 else k.acc1
def State.setAcc (s : State) (c n : Nat) (a : Acc) : State :=
  s.modCore c (fun k => if n = 0 then { k with acc0 := a } else { k with acc1 := a })

/-- Claim an accumulator for the executing slot, or trap with reason 4. -/
def claim (s : State) (n : Nat) : Res Unit :=
  let a := s.here.acc n
  match a.owner with
  | some g => if g = s.me then .go () s else trapRes s .matrix (matrixVal 4 (n + 16 * (g % 16)))
  | none => .go () (s.setAcc s.curCore n { a with owner := some s.me })

/-- Release what a slot owns, zeroed with its flags. -/
def releaseAccs (s : State) (g : Nat) : State :=
  s.modCore (coreOf g) (fun k => { k with
    acc0 := if k.acc0.owner = some g then {} else k.acc0
    acc1 := if k.acc1.owner = some g then {} else k.acc1 })

/-! Operand regions (R266, R270, R272). -/

/-- The elements of a region checked as one access: cut at pages in global memory. -/
def regionElems (a : Word) (n : Nat) : Nat → List Elem
  | 0 => []
  | f + 1 =>
    if n = 0 then []
    else if spaceOf a = .global then
      let k := min n (65536 - a.toNat % 65536)
      { a := a, n := k, al := 1 } :: regionElems (a + wd k) (n - k) f
    else [{ a := a, n := n, al := 1 }]

/-- Bytes of a region of rows. -/
def regionLen (rows stride cols e : Nat) : Nat := (rows - 1) * stride + cols * e

/-- The region's checks under R90 and R266; a base in a peer window, as in any space but the two, traps ATTRMIX whatever its route. -/
def regionCheck (s : State) (base : Word) (rows stride cols e : Nat) (acc : Access) : Res Unit :=
  let n := regionLen rows stride cols e
  let l := regionElems base n (n / 65536 + 2)
  match firstBad l (fun e => if spaceOf e.a = .none then some e.a else none) with
  | some v => trapRes s .noncanon v
  | none =>
    (need s (!(windowOf base = some 4 && !s.mine.mode)) .priv base).bnd fun _ s =>
    (need s (base.toNat % e = 0 && stride % e = 0) .misalign base).bnd fun _ s =>
    (need s (match spaceOf base with | .peer _ => false | _ => true) .attrmix base).bnd fun _ s =>
    (checkAccess s l acc false).bnd fun _ s =>
    need s (windowOf base = some 0 || windowOf base = some 2) .attrmix base

/-- The location of the first byte of an operand in window 0x00 or 0x02. -/
def operandLoc (c : Nat) (base : Word) : Nat := sramLoc c 0 { a := base, n := 1 }

/-- The regions a unit operation of slot `g` reads or writes, as locations and lengths. -/
def unitRegions (s : State) (g : Nat) : UnitOp → List (Place × Nat)
  | .mma _ _ _ =>
    let t := s.slot g
    if cfgM t = 0 || cfgN t = 0 || cfgK t = 0 then []
    else
      [(.sram (operandLoc (coreOf g) t.aBase), regionLen (cfgM t) t.aStride.toNat (cfgK t) (operandBytes t (cfgAF t))),
       (.sram (operandLoc (coreOf g) t.bBase), regionLen (cfgK t) t.bStride.toNat (cfgN t) (operandBytes t (cfgBF t)))]
  | .mload a w =>
    let t := s.slot g
    if cfgM t = 0 || cfgN t = 0 then [] else [(.sram (operandLoc (coreOf g) a), regionLen (cfgM t) (fld w 8 18) (cfgN t) 16)]
  | .mstore _ a w _ =>
    let t := s.slot g
    let sz := match fld w 0 3 with | 0 => 16 | 2 => 2 | 3 => 1 | 4 => 1 | _ => 4
    if cfgM t = 0 || cfgN t = 0 then [] else [(.sram (operandLoc (coreOf g) a), regionLen (cfgM t) (fld w 8 18) (cfgN t) sz)]
  | .mscale a b _ =>
    let t := s.slot g
    if cfgM t = 0 || cfgN t = 0 then []
    else [(.sram (operandLoc (coreOf g) a), 2 * cfgM t), (.sram (operandLoc (coreOf g) b), 2 * cfgN t)]
  | .mzero _ => []

/-- The unit operation may start: no scoreboard entry overlaps its regions (R93, R268). -/
def unitClear (s : State) (g : Nat) (op : UnitOp) : Bool := !boardHolds s (coreOf g) (unitRegions s g op)

/-! Issue (R260). -/

/-- The operation in the unit starts if it may: an MMA finds memory as it is now. -/
def startUnit (s : State) (c : Nat) : State :=
  match (s.core c).unitBusy with
  | some (g, .mma z d none) =>
    if unitClear s g (.mma z d none) then s.modCore c (fun k => { k with unitBusy := some (g, .mma z d (some s.mem)) }) else s
  | _ => s

/-- The executing slot's operation enters the unit or its queue, and the slot waits for its completion. While it was held after its Hatch pops another may have
filled the queue: then it waits for room. -/
def enterUnit (s : State) (op : UnitOp) : Res Unit :=
  let g := s.me
  let c := s.curCore
  if s.here.unitBusy.isSome && s.here.unitNext.isSome then waitHere s .unitBusy
  else
  let s1 := match s.here.unitBusy with
    | none => startUnit (s.modCore c (fun k => { k with unitBusy := some (g, op) })) c
    | some _ => s.modCore c (fun k => { k with unitNext := some (g, op) })
  waitHere s1 .matrix

/-- The steps an interrupted operation of the kind has done (R274, R360). -/
def stepsDone (t : Slot) (scale : Bool) : Nat := if bit t.progress 63 && bit t.progress 62 = scale then fld t.progress 0 16 else 0

/-- An instruction that trapped, or that a fault holds, has claimed nothing. -/
def unclaim (s0 s : State) : State :=
  s.modCore s.curCore (fun k => { k with
    acc0 := { k.acc0 with owner := s0.here.acc0.owner }, acc1 := { k.acc1 with owner := s0.here.acc1.owner } })

/-- MMA and MMA.z (R267). One that is resumed makes its issue checks again before it goes on from its recorded progress, and may trap: R274 does not say, DESIGN CHOICE,
log 79. -/
def mmaOp (i : Instr) (z : Bool) (s : State) : Out :=
  ((issue i { level := 2, unit := true } s).bnd fun _ s1 =>
    let t := s1.mine
    (needMatrix s1 (cellMode t || pairOf (cfgAF t) (cfgBF t)) 2 t.fmt).bnd fun _ s2 =>
    (claim s2 (cfgAcc t)).bnd fun _ s3 =>
    let op := UnitOp.mma (z && stepsDone t false = 0 && !(bit t.progress 63 && bit t.progress 61)) (stepsDone t false) none
    let full := cfgM t != 0 && cfgN t != 0 && cfgK t != 0
    let checks : Res Unit :=
      if full then
        (regionCheck s3 t.aBase (cfgM t) t.aStride.toNat (cfgK t) (operandBytes t (cfgAF t)) .load).bnd fun _ s =>
        regionCheck s t.bBase (cfgK t) t.bStride.toNat (cfgN t) (operandBytes t (cfgBF t)) .load
      else .go () s3
    match checks with
    | .stop s => .stop (unclaim s1 s)
    | .go _ s => enterUnit s op).outcome

def execMma (s : State) : Out := mmaOp .mma false s
def execMmaZ (s : State) : Out := mmaOp .mmaZ true s

def execMzero (rs1 : RegField) (s : State) : Out :=
  ((issue (.mzero rs1) { level := 2, unit := true, srcs := [rs1] } s).bnd fun v s1 =>
    let w := v.getD 0 0
    (needMatrix s1 (fld w 2 62 = 0) 3 w).bnd fun _ s2 =>
    (claim s2 (fld w 0 1)).bnd fun _ s3 => enterUnit s3 (.mzero w)).outcome

/-- The output word of MLOAD and MSTORE is valid (R270). -/
def outOk (w : Word) (store : Bool) : Bool :=
  fld w 26 38 = 0 && fld w 3 5 = 0 && (if store then decide (fld w 0 3 ≤ 5) else fld w 0 3 = 0)

/-- Bytes of an output cell. -/
def outBytes (out : Nat) : Nat :=
  match out with
  | 0 => 16
  | 1 => 4
  | 2 => 2
  | 3 => 1
  | 4 => 1
  | _ => 4

/-- MLOAD and MSTORE up to their entry in the unit. -/
def transferOp (i : Instr) (k : Issue) (store : Bool) (op : Word → Word → UnitOp) (s : State) : Out :=
  ((issue i k s).bnd fun v s1 =>
    let a := v.getD 0 0
    let w := v.getD 1 0
    let t := s1.mine
    (needMatrix s1 (outOk w store) 3 w).bnd fun _ s2 =>
    (claim s2 (cfgAcc t)).bnd fun _ s3 =>
    let checks : Res Unit :=
      if cfgM t = 0 || cfgN t = 0 then .go () s3
      else regionCheck s3 a (cfgM t) (fld w 8 18) (cfgN t) (outBytes (fld w 0 3)) (if store then .store else .load)
    match checks with
    | .stop s => .stop (unclaim s1 s)
    | .go _ s => enterUnit s (op a w)).outcome

def execMload (rs1 rs2 : RegField) (s : State) : Out :=
  transferOp (.mload rs1 rs2) { level := 2, unit := true, srcs := [rs1, rs2] } false (fun a w => .mload a w) s
/-- MSTORE (R270, R271). One that its unit has performed, with the push of its result still to do, pushes it. -/
def execMstore (rd rs1 rs2 : RegField) (rm : BitVec 2) (s : State) : Out :=
  match (if s.mine.issued.isSome then s.mine.read else []) with
  | v :: _ => (finish s s rd v).outcome
  | [] =>
  transferOp (.mstore rd rs1 rs2 rm) { level := 2, unit := true, srcs := [rs1, rs2], dst := some rd } true
    (fun a w => .mstore rd.toNat a w rm.toNat) s

/-- MSCALE (R272), resumed as MMA is. With M or N 0 its scale regions, of no byte or of no use, are not checked: R272 does not say, where R266 does for MMA, DESIGN
CHOICE, log 79. -/
def execMscale (rs1 rs2 : RegField) (s : State) : Out :=
  ((issue (.mscale rs1 rs2) { level := 2, unit := true, srcs := [rs1, rs2] } s).bnd fun v s1 =>
    let a := v.getD 0 0
    let b := v.getD 1 0
    let t := s1.mine
    (needMatrix s1 (cfgAF t != 3 && cfgBF t != 3) 2 t.fmt).bnd fun _ s2 =>
    let op := UnitOp.mscale a b (stepsDone t true)
    let checks : Res Unit :=
      (claim s2 (cfgAcc t)).bnd fun _ s =>
      (claim s (1 - cfgAcc t)).bnd fun _ s =>
      if cfgM t = 0 || cfgN t = 0 then .go () s
      else
        (regionCheck s a 1 0 (cfgM t) 2 .load).bnd fun _ s =>
        regionCheck s b 1 0 (cfgN t) 2 .load
    match checks with
    | .stop s => .stop (unclaim s1 s)
    | .go _ s => enterUnit s op).outcome

/-! Performing (R267-R273). -/

/-- Element `n` of an MMA's reads: its bytes as its start found them, or as they are now (R268). -/
def readOperand (s : State) (start : Memory) (loc e n : Nat) : Nat :=
  leNat ((if Config.sourcePoint (s.free + n) % 2 = 0 then start else s.mem).readN loc e)

/-- Perform the k-steps from d up to k of slot g's MMA. -/
def mmaSteps (s : State) (g : Nat) (z : Bool) (d k : Nat) (start : Memory) : State :=
  let t := s.slot g
  let c := coreOf g
  let ea := operandBytes t (cfgAF t)
  let eb := operandBytes t (cfgBF t)
  let rdA := fun i k => readOperand s start (operandLoc c t.aBase + i * t.aStride.toNat + k * ea) ea (i * cfgK t + k)
  let rdB := fun k j => readOperand s start (operandLoc c t.bBase + k * t.bStride.toNat + j * eb) eb (cfgM t * cfgK t + k * cfgN t + j)
  let a := (s.core c).acc (cfgAcc t)
  let a1 := if z && cfgM t != 0 && cfgN t != 0 then clearRegion t a else a
  let a2 := if cfgM t = 0 || cfgN t = 0 then a1
            else ((List.range (k - d)).map (d + ·)).foldl (mmaRow t rdA rdB) a1
  { s.setAcc c (cfgAcc t) a2 with free := s.free + cfgM t * cfgK t + cfgK t * cfgN t }

/-- Perform the rows from d up to m of slot g's MSCALE (R131, R272). -/
def mscaleRows (s : State) (g : Nat) (a b : Word) (d m : Nat) : State :=
  let t := s.slot g
  let c := coreOf g
  let src := (s.core c).acc (cfgAcc t)
  let scale := fun (base : Word) i => decodeF fBF16 (read16 s.mem (operandLoc c base + 2 * i))
  let step := fun (o : Acc) (x : Nat × Nat) =>
    let p := (mulV (mulV (cellVal (cfgAF t) (src.cell x.1 x.2)) (scale a x.1)).1 (scale b x.2)).1
    o.setCell x.1 x.2 (rneW96 (addV .rne p (decodeW96 (o.cell x.1 x.2))))
  let cells := (regionCells m (cfgN t)).filter (fun x => decide (d ≤ x.1))
  s.setAcc c (1 - cfgAcc t) (cells.foldl step ((s.core c).acc (1 - cfgAcc t)))

/-- An output cell's code and flags (R270, R133). -/
def outCell (t : Slot) (out : Nat) (rm : RM) (q : BitVec 96) : Nat × Flags :=
  if cellMode t && (out = 1 || out = 5) then (q.toNat % 2 ^ 32, 0)
  else
    let v := if cellMode t then (if cellF32 t then decodeF fF32 (q.toNat % 2 ^ 32) else Val.ofInt (sextN q.toNat 32))
             else cellVal (cfgAF t) q
    match out with
    | 1 => rndF fF32 rm true v
    | 2 => rndF fBF16 rm true v
    | 3 => rndT 8 rm v
    | 4 => rndT 6 rm v
    | _ => rndI 32 true rm v

/-- Perform slot g's MSTORE: the state and rd's value (R270, R271). -/
def mstoreCells (s : State) (g : Nat) (a w : Word) (rm : RM) : State × Word :=
  let t := s.slot g
  let c := coreOf g
  let acc := (s.core c).acc (cfgAcc t)
  let out := fld w 0 3
  let sz := outBytes out
  let r := (regionCells (cfgM t) (cfgN t)).foldl (fun (x : State × Flags) ij =>
    let (v, fl) := if out = 0 then ((acc.cell ij.1 ij.2).toNat, 0) else outCell t out rm (acc.cell ij.1 ij.2)
    (sramWrite x.1 (cellsAt (operandLoc c a + ij.1 * fld w 8 18 + ij.2 * sz) (leBytes v sz)), x.2 ||| fl)) (s, 0)
  (r.1, wd (at_ (b2n acc.anar) 9 + at_ (b2n acc.aovf) 8 + r.2.toNat))

/-- Perform slot g's MLOAD (R270). -/
def mloadCells (s : State) (g : Nat) (a w : Word) : State :=
  let t := s.slot g
  let c := coreOf g
  let acc := (s.core c).acc (cfgAcc t)
  s.setAcc c (cfgAcc t) ((regionCells (cfgM t) (cfgN t)).foldl (fun acc ij =>
    acc.setCell ij.1 ij.2 (BitVec.ofNat 96 (leNat (s.mem.readN (operandLoc c a + ij.1 * fld w 8 18 + ij.2 * 16) 12)))) acc)

/-- MZERO: all cells and flags zero, and released with REL (R269). -/
def mzeroAcc (s : State) (g : Nat) (w : Word) : State :=
  s.setAcc (coreOf g) (fld w 0 1) { owner := if bit w 1 then none else some g }

/-! Completion and stopping. -/

/-- The unit takes the queued operation. -/
def promote (s : State) (c : Nat) : State :=
  startUnit (s.modCore c (fun k => { k with unitBusy := k.unitNext, unitNext := none })) c

/-- An operation of slot g completes: its whole effect, and the slot goes on. An MSTORE whose result's push must wait is over in the unit, and its slot keeps the
result to push (R138, R295). -/
def completeUnit (s : State) (g : Nat) (op : UnitOp) : State :=
  let c := coreOf g
  let t := s.slot g
  let done := fun (s : State) => promote (jumpTo (s.modSlot g (fun t => { t with progress := 0 })) g (t.pc + 4)) c
  match op with
  | .mma z d start => done (mmaSteps s g z d (cfgK t) (start.getD s.mem))
  | .mzero w => done (mzeroAcc s g w)
  | .mload a w => done (mloadCells s g a w)
  | .mscale a b d => done (mscaleRows s g a b d (cfgM t))
  | .mstore rd a w rm =>
    let (s1, v) := mstoreCells s g a w (RM.of (BitVec.ofNat 2 rm))
    let kept := (s1.actFor g).modMe (fun t => { t with read := [v] })
    let s2 := match finish (s.actFor g) (s1.actFor g) (BitVec.ofNat 6 rd) v with
      | .go _ s2 => s2
      | .stop s2 => if s2.mine.wait.isSome then (finish kept kept (BitVec.ofNat 6 rd) v).state else s2
    promote { s2 with curCore := s.curCore, curSlot := s.curSlot } c

/-- The progress word (R360). -/
def progressWord (scale zd : Bool) (n : Nat) : Word := wd (2 ^ 63 + at_ (b2n scale) 62 + at_ (b2n zd) 61 + n % 65536)

/-- Slot g's operation is queued behind the one in the unit. -/
def unitQueued (k : Core) (g : Nat) : Bool := match k.unitNext with | some (h, _) => h = g | none => false

/-- Preemption stops slot g's operation (R274): a queued one is withdrawn, an MMA or MSCALE stops after a number of steps of the device's choice,
with its progress recorded, and the others are cancelled. -/
def stopUnit (s : State) (g : Nat) : State :=
  let c := coreOf g
  let k := s.core c
  let t := s.slot g
  if unitQueued k g then s.modCore c (fun k => { k with unitNext := none })
  else
    match k.unitBusy with
    | some (h, op) =>
      if h != g then s
      else
        match op with
        | .mma z d (some m) =>
          let total := if cfgM t = 0 || cfgN t = 0 then 0 else cfgK t
          let (i, s1) := s.fresh
          let n := d + Config.pick i % (total - d + 1)
          promote ((mmaSteps s1 g z d n m).modSlot g (fun t => { t with progress := progressWord false (z || bit t.progress 61) n })) c
        | .mscale a b d =>
          let (i, s1) := s.fresh
          let n := d + Config.pick i % (cfgM t - d + 1)
          if unitClear s1 g op then
            promote ((mscaleRows s1 g a b d n).modSlot g (fun t => { t with progress := progressWord true false n })) c
          else promote s1 c
        | _ => promote s c
    | none => s

/-- Annulment stops slot g's operation, and zeroes and releases what it owns (R64, R274). -/
def dropUnit (s : State) (g : Nat) : State :=
  let c := coreOf g
  let k := s.core c
  let s1 := if unitQueued k g then s.modCore c (fun k => { k with unitNext := none }) else s
  let s2 := match (s1.core c).unitBusy with
    | some (h, _) => if h = g then promote s1 c else s1
    | none => s1
  releaseAccs s2 g

end Sys2Proof.Machine
end

