-- ==== Sys2Proof/Machine/KeySelect.lean ====
section
/-! DEFINITION. The key-selection unit: KSEL, KGATHER, KSRESET and DRAW (R275-R287). -/

namespace Sys2Proof.Machine

/-! Blocks read at issue (R279, R282, R284). -/

/-- Eight-byte elements from an address. -/
def wordElems (a : Word) (n : Nat) : List Elem := (List.range n).map (fun i => { a := a + wd (8 * i), n := 8 })

/-- Read the words at elements' places in order, as the slot's loads: its instruction has them from then on. One whose bytes carry an error traps MEMERR with
its address; one at a peer is sent, and the instruction waits for it (R106). `ps` are the places of the whole access. -/
def readPlaces (s : State) (ps : List Place) : List (Elem × Place) → Res Unit
  | [] => .go () s
  | (e, .peer p pa) :: _ => holdIssued (sendPeer s p s.mine.rtag s.curCore (.load 8) pa [] 0) ps (.peer (.word e.a) false)
  | (e, p) :: r =>
    let (bs, bad, s1) := readPlace s s.curCore p 8
    if bad then trapRes s1 .memerr e.a
    else readPlaces (s1.modMe (fun t => { t with read := t.read ++ [wd (leNat bs)] })) ps r

/-- Read the words at elements, checked as the slot's loads, behind the `k` words its instruction has read before them: those it has read already, before a
wait, it does not read again. -/
def readElems (s : State) (k : Nat) (l : List Elem) : Res (List Word) :=
  let n := (s.mine.read.drop k).length
  if l.length ≤ n then .go ((s.mine.read.drop k).take l.length) s
  else
    (checkAccess s l .load false).bnd fun ps s1 =>
    (holdLoad s1 (ps.map (fun p => (p, 8)))).bnd fun _ s2 =>
    (readPlaces s2 ps ((l.zip ps).drop n)).bnd fun _ s3 => .go ((s3.mine.read.drop k).take l.length) s3

/-- Read n words from an address, behind k words of the instruction's. -/
def readWords (s : State) (k : Nat) (a : Word) (n : Nat) : Res (List Word) := readElems s k (wordElems a n)

/-- A sequence descriptor (R278). -/
structure Desc where
  key : Word
  val : Word
  sum : Word
  len : Nat
  kf  : Nat
  dc  : Nat
  gen : Nat
  deriving DecidableEq, Repr

/-- The descriptor its words give. -/
def descOf (w : List Word) : Desc :=
  let w3 := w.getD 3 0
  { key := w.getD 0 0, val := w.getD 1 0, sum := w.getD 2 0, len := fld w3 32 32, kf := fld w3 18 1, dc := fld w3 16 2, gen := fld w3 0 16 }

/-- Read the words of the descriptor at an address, behind k words of the block; a bad one traps with reason 6 and the block address. -/
def readDesc (s : State) (k : Nat) (a block : Word) : Res (List Word) :=
  (readWords s k a 8).bnd fun w s1 =>
    (needMatrix s1 (fld (w.getD 3 0) 19 13 = 0 && (w.drop 4).all (· = 0)) 6 block).bnd fun _ s2 => .go w s2

/-! KSEL (R279, R280). -/

/-- The always-included pages, in order, no page twice. -/
def includedPages (p0 e sinks win stride p : Nat) : List Nat :=
  let n := e - p0
  let a := (List.range (min sinks n)).map (p0 + ·)
  let b := (List.range (min win n)).map (fun i => e - 1 - i)
  let c := if stride = 0 then [] else ((List.range n).map (fun j => p0 + (j + 1) * stride)).filter (fun x => decide (x < e))
  ((a ++ b ++ c).eraseDups).take p

/-- The bound after one channel: F32 codes of the bound and the query, BF16 codes of low and high. -/
def boundStep (b q lo hi : Nat) : Nat :=
  let v := decodeF fF32 q
  let inf := fF32.infBits
  if v.isNan then inf
  else if q % 2 ^ 31 = 0 then b
  else
    let p := fun c => (rnd fF32 .rup (mulV v (decodeF fBF16 c))).1
    let m := (minmaxF fF32 true (p lo) (p hi)).1
    (rnd fF32 .rup (addV .rup (decodeF fF32 b) (decodeF fF32 m))).1

/-- A page's bound from its record's bytes; a NaN ranks as +infinity. -/
def pageBound (d : Nat) (q : Nat → Nat) (rec : List Byte) : Nat :=
  let h := fun o => leNat ((rec.drop o).take 2)
  let b := (List.range d).foldl (fun b c => boundStep b (q c) (h (16 + 2 * c)) (h (16 + 2 * d + 2 * c))) 0
  if (decodeF fF32 b).isNan then fF32.infBits else b

/-- The record is current, not empty and of the sequence's geometry. -/
def recordGood (k : Desc) (rec : List Byte) : Bool :=
  let h := leNat (rec.take 8)
  decide (h % 65536 = k.gen) && decide (h / 2 ^ 16 % 65536 ≠ 0) && decide (h / 2 ^ 32 % 2 = k.kf) && decide (h / 2 ^ 34 % 4 = k.dc)

/-- Insert a candidate by greatest bound, ties to the lower page. -/
def rankIn (x : Nat × Nat) : List (Nat × Nat) → List (Nat × Nat)
  | [] => [x]
  | y :: r =>
    let vx := decodeF fF32 x.2
    let vy := decodeF fF32 y.2
    if ltV vy vx || (eqV vx vy && decide (x.1 < y.1)) then x :: y :: r else y :: rankIn x r

/-- Insert by ascending page. -/
def byPage (x : Nat × Nat) : List (Nat × Nat) → List (Nat × Nat)
  | [] => [x]
  | y :: r => if x.1 < y.1 then x :: y :: r else y :: byPage x r

/-- The pages chosen, ascending, each with its bound. -/
def choosePages (inc : List Nat) (cands : List (Nat × Nat)) (p : Nat) : List (Nat × Nat) :=
  let ranked := (cands.foldl (fun l x => rankIn x l) []).take (p - inc.length)
  (inc.map (fun x => (x, fF32.infBits)) ++ ranked).foldl (fun l x => byPage x l) []

/-- A failed answer to slot g's operation at a peer: it traps with its peer-window address, or is sent again after a NOPROXY (R404, R422, R425). -/
def peerFailed (s : State) (g : Nat) (op : PeerWait) (addr : Word) (code : Nat) : State :=
  if code = 14 then s.modSlot g (fun t => { t with wait := some (.peer op true), since := s.time, state := .waiting })
  else trapAt s g (if code = 9 then .perm else if code = 8 then .xlate else .memerr) (s.slot g).pc addr

/-- The failure with which a peer, or a link that is down, answers slot g's read there for a unit, if it fails: a cause or NOPROXY as `peerFailed` takes them (R404, R422,
R424, R425). What the peer answers is its own, free (log 7). -/
def unitFar (s : State) (g rtag p : Nat) (a : Word) (n : Nat) : Option Nat × State :=
  if portDown s (fld (s.reg (peerrouteAddr p)) 0 4) then (some 0x0B, s)
  else
    let (k, s1) := (sendWork s p rtag (s.partOf (coreOf g)) g (.load n) a [] 0).fresh
    (match Config.peerAnswers k % 5 with
      | 1 => some 8
      | 2 => some 9
      | 3 => some 0x0B
      | 4 => if rtag = 0 then none else some 14
      | _ => none, s1)

/-- The published bytes over the places of a region, as an engine reads them for slot g, or the failure and address of an element that has none: bytes in error, or a
peer's answer. A peer's bytes are free (log 7). -/
def publishedBytes (s : State) (g rtag : Nat) : List (Elem × Place) → Except (Nat × Word) (List Byte) × State
  | [] => (.ok [], s)
  | z :: r =>
    let part : Except (Nat × Word) (List Byte) × State :=
      match z.2 with
      | .peer p a =>
        (match unitFar s g rtag p a z.1.n with
          | (some code, s1) => (.error (code, z.1.a), s1)
          | (none, s1) => (.ok ((List.range z.1.n).map (fun i => Config.freeByte (s1.free + i))), { s1 with free := s1.free + z.1.n }))
      | p =>
        if (List.range z.1.n).any (fun i => s.bad.contains (p.loc + i)) then (.error (0x0B, z.1.a), s) else (.ok (s.mem.readN p.loc z.1.n), s)
    match part with
    | (.error a, s1) => (.error a, s1)
    | (.ok bs, s1) =>
      match publishedBytes s1 g rtag r with
      | (.error a, s2) => (.error a, s2)
      | (.ok l, s2) => (.ok (bs ++ l), s2)

/-- The places of the records of pages, each checked as the slot's load (R281). -/
def recordPlaces (s : State) (k : Desc) : List Nat → Res (List (Nat × List (Elem × Place)))
  | [] => .go [] s
  | x :: r =>
    let n := recordBytes k.dc
    let l := regionElems (k.sum + wd (x * n)) n 3
    (checkAccess s l .record false).bnd fun ps s1 => (recordPlaces s1 k r).bnd fun rs s2 => .go ((x, l.zip ps) :: rs) s2

/-- The records of pages read from their places for slot g. -/
def readRecords (s : State) (g rtag : Nat) : List (Nat × List (Elem × Place)) → Except (Nat × Word) (List (Nat × List Byte)) × State
  | [] => (.ok [], s)
  | x :: r =>
    match publishedBytes s g rtag x.2 with
    | (.error a, s1) => (.error a, s1)
    | (.ok bs, s1) =>
      match readRecords s1 g rtag r with
      | (.error a, s2) => (.error a, s2)
      | (.ok l, s2) => (.ok ((x.1, bs) :: l), s2)

/-- The pages the block asks for: the first, and the end of the range. -/
def pageRange (w : List Word) (k : Desc) : Nat × Nat :=
  let p0 := fld (w.getD 1 0) 0 32
  (p0, min (p0 + fld (w.getD 1 0) 32 17) ((k.len + 63) / 64))

/-- The always-included pages of a block. -/
def blockIncluded (w : List Word) (k : Desc) : List Nat :=
  let w2 := w.getD 2 0
  includedPages (pageRange w k).1 (pageRange w k).2 (fld w2 0 7) (fld w2 16 9) (fld w2 32 16) (fld w2 48 11)

/-- The other pages of its range. -/
def blockOthers (w : List Word) (k : Desc) : List Nat :=
  let r := pageRange w k
  ((List.range (r.2 - r.1)).map (r.1 + ·)).filter (fun x => !(blockIncluded w k).contains x)

/-- The executing slot's operation enters its cluster's key-selection unit, and the slot waits for its completion (R260). -/
def enterKeys (s : State) (op : KeyOp) : Res Unit :=
  waitHere (s.modCluster (clusterOf s.curCore) (fun k => { k with keys := k.keys ++ [(s.me, op)] })) .keyUnit

/-- KSEL up to its entry in the unit: the block, the descriptor and every check are its issue's (R279, R281). The lanes of its query that it reads whatever the block says
come first, R140's check 7; those that the descriptor's d adds come once it is known, log 28. -/
def execKsel (rd rs1 rs2 : RegField) (s : State) : Out :=
  ((issue (.ksel rd rs1 rs2) { level := 3, srcs := [rs1, rs2], dst := some rd } s).bnd fun v s1 =>
    let block := v.getD 0 0
    let qw := v.getD 1 0
    (needLanes s1 [qw.toNat % 32] (List.range 32)).bnd fun _ s1 =>
    (readWords s1 0 block 4).bnd fun w s2 =>
    let w1 := w.getD 1 0
    let w2 := w.getD 2 0
    let np := fld w1 32 17
    let p := fld w2 48 11
    let ok := fld w1 49 15 = 0 && decide (1 ≤ np ∧ np ≤ 65536) && fld w2 7 9 = 0 && fld w2 25 7 = 0 && fld w2 59 5 = 0 &&
      decide (fld w2 0 7 ≤ 64 ∧ fld w2 16 9 ≤ 256 ∧ 1 ≤ p ∧ p ≤ 1024)
    (readDesc s2 4 (w.getD 0 0) block).bnd fun desc s3 =>
    (needMatrix s3 ok 6 block).bnd fun _ s4 =>
    (regionCheck s4 (w.getD 3 0) 1 0 (1 + p) 8 .store).bnd fun _ s5 =>
    let d := dcChannels (descOf desc).dc
    let q := qw.toNat % 32
    let t := s5.mine
    (needMatrix s5 (qw.toNat / 32 = 0 && decide (min d 128 ≤ t.grant) && decide (q + (d - 1) / 128 ≤ 31)) 7 qw).bnd fun _ s6 =>
    (needLanes s6 ((List.range ((d + 127) / 128)).map (q + ·)) (List.range (min d 128))).bnd fun _ s7 =>
    (recordPlaces s7 (descOf desc) (blockOthers w (descOf desc))).bnd fun recs s8 =>
    enterKeys s8 (.select rd.toNat block w desc qw recs)).outcome

/-- What KSEL selects, as the words it writes to its output (R280): the count, then the entries. Its records are read as it completes, one of the moments
at which R280 lets it read them, DEDUCED, log 55. -/
def selection (t : Slot) (w : List Word) (k : Desc) (q : Nat) (recs : List (Nat × List Byte)) : List Word :=
  let query := fun c => (t.vr (q + c / 128) (c % 128)).toNat
  let cands := (recs.filter (fun x => recordGood k x.2)).map (fun x => (x.1, pageBound (dcChannels k.dc) query x.2))
  let chosen := choosePages (blockIncluded w k) cands (fld (w.getD 2 0) 48 11)
  wd chosen.length :: chosen.map (fun x => wd (x.1 % 2 ^ 32 + x.2 * 2 ^ 32))

/-! KSRESET (R277). -/

def execKsreset (rs1 : RegField) (s : State) : Out :=
  ((issue (.ksreset rs1) { level := 3, srcs := [rs1] } s).bnd fun v s1 =>
    let a := v.getD 0 0
    (checkAccess s1 [{ a := a, n := 1 }] .summary false).bnd fun ps s2 =>
    match placeOf ps with
    | .global _ pa leaf ext =>
      (need s2 (leafSm leaf) .attrmix a).bnd fun _ s3 =>
      (need s3 (pa % 65536 % pageBytes (extDc ext) (extKf ext) = 0) .misalign a).bnd fun _ s4 =>
        pass (publishCells s4 (resetCells s4.mem ext pa) 0 none none)
    | _ => trapRes s2 .attrmix a).outcome

/-! KGATHER (R282, R283). -/

/-- The two scoreboard ranges of a gather of n bytes to each destination. -/
def gatherRanges (c : Nat) (kd vd : Word) (n : Nat) (mask : Nat) : List (List (Nat × Nat)) :=
  let one := fun (a : Word) =>
    let l := sramLoc c 0 { a := a, n := 1 }
    if mask = 0 then [(l, l + n - 1)]
    else (maskCores c (wd mask)).map (fun k => (locScratch k (l - locScratch c 0), locScratch k (l - locScratch c 0) + n - 1))
  if n = 0 then [] else [one kd, one vd]

def execKgather (rs1 : RegField) (s : State) : Out :=
  ((issue (.kgather rs1) { level := 3, srcs := [rs1] } s).bnd fun v s1 =>
    let block := v.getD 0 0
    (readWords s1 0 block 8).bnd fun w s2 =>
    let w4 := w.getD 4 0
    let w6 := w.getD 6 0
    (needMatrix s2 (fld w4 33 31 = 0 && fld w6 18 46 = 0 && w.getD 7 0 = 0) 6 block).bnd fun _ s3 =>
    (readDesc s3 8 (w.getD 0 0) block).bnd fun desc s4 =>
    let k := descOf desc
    (readWords s4 16 (w.getD 1 0) 1).bnd fun cw s5 =>
    let n := (cw.getD 0 0).toNat
    (needMatrix s5 (decide (n ≤ 1024)) 6 block).bnd fun _ s6 =>
    (readWords s6 17 (w.getD 1 0 + 8) n).bnd fun list s7 =>
    let mask := fld w4 0 32
    let kd := w.getD 2 0
    let vd := w.getD 3 0
    let okWin := fun a => windowOf a = some 0 || (mask = 0 && windowOf a = some 2)
    (needMatrix s7 (okWin kd && okWin vd) 6 block).bnd fun _ s8 =>
    let tag := fld w6 0 18
    (need s8 (tagAllowed s8 s8.me tag) .perm (wd tag)).bnd fun _ s9 =>
    let pb := pageBytes k.dc k.kf
    let ranges := gatherRanges s9.curCore kd vd (n * pb) mask
    if decide (16 < s9.here.board.length + ranges.length) then waitHere s9 .board
    else if !copyRoom s9 (clusterOf s9.curCore) then waitHere s9 .copyRoom
    else
      (if bit w4 32 then publish s9 .dev else .go () s9).bnd fun _ s10 =>
        let pages := list.map (fun x => fld x 0 32)
        let piece := fun (src dst : Word) => (pages.zipIdx).map (fun x => (src + wd (x.1 * pb), dst + wd (x.2 * pb), pb))
        let plan := piece k.key kd ++ piece k.val vd
        let x : Cmd :=
          { id := s10.nextId, op := 5, words := [0, w.getD 5 0], rtag := if tag = 0 then s10.mine.rtag else tag, core := s10.curCore,
            g := s10.me, hatch := 16, user := !s10.mine.mode, part := s10.partOf s10.curCore, planned := true, plan := plan,
            mask := if mask = 0 then none else some (wd mask), total := planBytes plan,
            left := List.range (planBytes plan / 128), snap := s10.mem, since := s10.history.length, ctx := s10.mine.ctx }
        let s11 := { s10 with nextId := s10.nextId + 1 }
        let s12 := s11.modCore s11.curCore (fun q => { q with board := q.board ++ ranges.map (fun r => { id := x.id, ranges := r }) })
        let s13 :=
          if badCompletion s12 x then endCmd s12 x 3 2 0
          else if !s12.liveTag x.rtag then endCmd s12 x 2 0 0
          else
            match completionError s12 x with
            | some e => endCmd s12 x 3 e 0
            | none =>
              if plan.any (fun p => leavesSpace s12 x.core p.1 p.2.2 || leavesSpace s12 x.core p.2.1 p.2.2) then endCmd s12 x 3 3 0
              else addCopy s12 x
        pass s13).outcome

/-! DRAW (R284-R286). -/

/-- One round of Philox4x32 under a key. -/
def philoxRound (k0 k1 : Nat) (x : Nat × Nat × Nat × Nat) : Nat × Nat × Nat × Nat :=
  let p0 := 0xD2511F53 * x.1
  let p1 := 0xCD9E8D57 * x.2.2.1
  (Nat.xor (Nat.xor (p1 / 2 ^ 32) x.2.1) k0, p1 % 2 ^ 32, Nat.xor (Nat.xor (p0 / 2 ^ 32) x.2.2.2) k1, p0 % 2 ^ 32)

/-- Rounds r, r + 1, ... n more of them. -/
def philoxRounds (k0 k1 : Nat) : Nat → Nat → Nat × Nat × Nat × Nat → Nat × Nat × Nat × Nat
  | 0, _, x => x
  | n + 1, r, x =>
    philoxRounds k0 k1 n (r + 1) (philoxRound ((k0 + r * 0x9E3779B9) % 2 ^ 32) ((k1 + r * 0xBB67AE85) % 2 ^ 32) x)

/-- philox4x32_10's first word (R285). -/
def philox (k0 k1 pos idx : Nat) : Nat := (philoxRounds k0 k1 10 0 (pos, idx, 0, 0)).1

/-- The noise of an index: an F32 code (R285). -/
def gumbel (w0 : Nat) : Nat :=
  let u := (rnd fF32 .rne (.num false (2 * (w0 / 512) + 1) (-24), 0)).1
  let flip := fun c => (c + 2 ^ 31) % 2 ^ 32
  flip (special .log2 .rne (flip (special .log2 .rne u).1)).1

/-- T is a positive F32. -/
def tempPositive (t : Nat) : Bool :=
  match decodeF fF32 t with
  | .num neg m _ => !neg && m != 0
  | .inf neg => !neg
  | _ => false

/-- log2(e) over T, rounded to F32 (R285); +0 for T infinite. -/
def tempScale (t : Nat) : Nat :=
  match decodeF fF32 0x3FB8AA3B, decodeF fF32 t with
  | .num _ ma ea, .num _ mb eb =>
    if mb = 0 then 0
    else
      let k := Nat.log2 mb + 64
      (roundF fF32 .rne false (ma * 2 ^ k / mb) (ea - eb - k) (decide (ma * 2 ^ k % mb ≠ 0))).1
  | _, _ => 0

/-- The score of a logit (R285, R286): with noise for a positive T, else the logit. -/
def drawScore (noise : Bool) (k0 k1 pos idx t logit : Nat) : Nat :=
  if noise && tempPositive t then
    (rnd fF32 .rne (fmaV .rne (decodeF fF32 logit) (decodeF fF32 (tempScale t)) (decodeF fF32 (gumbel (philox k0 k1 pos idx))))).1
  else logit

/-- A score as the argmax compares it: a NaN counts as -infinity. -/
def scoreVal (c : Nat) : Val := let v := decodeF fF32 c; if v.isNan then .inf true else v

/-- The index of the greatest score, the lowest among equals (R286). -/
def argmax (f : Nat → Nat) (n : Nat) : Nat :=
  ((List.range n).foldl (fun (b : Nat × Val) i => let v := scoreVal (f i); if ltV b.2 v then (i, v) else b) (0, scoreVal (f 0))).1

/-- DRAW up to its entry in the unit: `noise` for .s and .v, `draft` rs2's value for .v. -/
def drawOp (i : Instr) (rd : RegField) (srcs : List RegField) (noise : Bool) (draft : List Word → Option Word) (s : State) : Out :=
  ((issue i { level := 3, srcs := srcs, dst := some rd } s).bnd fun v s1 =>
    let block := v.getD 0 0
    (readWords s1 0 block 6).bnd fun w s2 =>
    let w1 := w.getD 1 0
    let vr := fld w1 0 32
    let vp := fld w1 32 32
    let ok := decide (1 ≤ vr ∧ vr ≤ vp ∧ vp ≤ 262144) && fld (w.getD 2 0) 32 32 = 0 && w.getD 5 0 = 0
    (needMatrix s2 ok 6 block).bnd fun _ s3 =>
    (regionCheck s3 (w.getD 0 0) 1 0 vr 4 .load).bnd fun _ s4 =>
    enterKeys s4 (.draw rd.toNat noise w (draft v))).outcome

/-- The token DRAW chooses among logits given by index (R285, R286). -/
def drawToken (noise : Bool) (w : List Word) (logit : Nat → Nat) : Nat :=
  let w3 := w.getD 3 0
  let w4 := w.getD 4 0
  argmax (fun i => drawScore noise (fld w3 0 32) (fld w3 32 32) (fld w4 0 32) ((fld w4 32 32 + i) % 2 ^ 32) (fld (w.getD 2 0) 0 32) (logit i))
    (fld (w.getD 1 0) 0 32)

def execDrawG (rd rs1 : RegField) (s : State) : Out := drawOp (.drawG rd rs1) rd [rs1] false (fun _ => none) s
def execDrawS (rd rs1 : RegField) (s : State) : Out := drawOp (.drawS rd rs1) rd [rs1] true (fun _ => none) s
def execDrawV (rd rs1 rs2 : RegField) (s : State) : Out :=
  drawOp (.drawV rd rs1 rs2) rd [rs1, rs2] true (fun v => some (v.getD 1 0)) s

/-! The unit (R260, R274). -/

/-- The bytes of scratchpad an operation of core c's slot writes or reads. -/
def keyRegion (c : Nat) (op : KeyOp) : Place × Nat :=
  match op with
  | .select _ _ w _ _ _ => (.sram (operandLoc c (w.getD 3 0)), 8 + 8 * fld (w.getD 2 0) 48 11)
  | .draw _ _ w _ => (.sram (operandLoc c (w.getD 0 0)), 4 * fld (w.getD 1 0) 0 32)

/-- The operation may be performed: no scoreboard entry overlaps its bytes (R93). -/
def keyClear (s : State) (g : Nat) (op : KeyOp) : Bool := !boardHolds s (coreOf g) [keyRegion (coreOf g) op]

/-- What an operation of slot g gives: its effect, destination field and result, or the failure and address of what it could not read (R187, R281). -/
def keyResult (s : State) (g : Nat) (op : KeyOp) : Except (Nat × Word) (Nat × Word) × State :=
  let c := coreOf g
  let t := s.slot g
  match op with
  | .select rd _ w desc qw recs =>
    match readRecords s g t.rtag recs with
    | (.error a, s1) => (.error a, s1)
    | (.ok rs, s1) =>
      let out := selection t w (descOf desc) (qw.toNat % 32) rs
      (.ok (rd, out.headD 0), sramWrite s1 (cellsAt (operandLoc c (w.getD 3 0)) (out.flatMap (fun v => leBytes v.toNat 8))))
  | .draw rd noise w draft =>
    let a := w.getD 0 0
    let vr := fld (w.getD 1 0) 0 32
    let loc := operandLoc c a
    match (List.range vr).find? (fun i => anyBad s c (loc + 4 * i) 4) with
    | some i => (.error (0x0B, a + wd (4 * i)), s)
    | none =>
      let tok := drawToken noise w (fun i => leNat (s.mem.readN (loc + 4 * i) 4))
      match draft with
      | none => (.ok (rd, wd tok), s)
      | some d =>
        (.ok (rd, wd (tok + (if d.toNat = tok then 2 ^ 32 else 0))),
         if vr ≤ d.toNat then s.modSlot g (fun t => { t with oovdraft := if t.oovdraft = BitVec.allOnes 32 then t.oovdraft else t.oovdraft + 1 }) else s)

/-- Slot g's operation leaves the key-selection unit. -/
def leaveKeys (s : State) (g : Nat) : State :=
  let cl := clusterOf (coreOf g)
  if (s.cluster cl).keys.any (fun k => k.1 = g) then s.modCluster cl (fun k => { k with keys := k.keys.filter (fun x => x.1 != g) }) else s

/-- The operation at the unit completes: its whole effect, and its slot goes on, or traps, or issues it again after a NOPROXY. -/
def completeKey (s : State) (g : Nat) (op : KeyOp) : State :=
  let s0 := leaveKeys s g
  match keyResult s0 g op with
  | (.error (code, a), s1) => peerFailed s1 g (.word a) a code
  | (.ok (rd, v), s1) =>
    let s2 := (finish (s0.actFor g) (s1.actFor g) (BitVec.ofNat 6 rd) v).state
    { s2 with curCore := s.curCore, curSlot := s.curSlot }

/-- The operation in service at a cluster's unit, if it can be performed. -/
def keyDue (s : State) (cl : Nat) : Option (Nat × KeyOp) :=
  match (s.cluster cl).keys with
  | (g, op) :: _ => if keyClear s g op then some (g, op) else none
  | [] => none

/-- Annulment ends slot g's KSEL or DRAW: the output area of a KSEL in service holds any mix of old and partly written bytes (R64, R274). -/
def annulKeys (s : State) (g : Nat) : State :=
  match (s.cluster (clusterOf (coreOf g))).keys with
  | (h, .select _ _ w _ _ _) :: _ =>
    if h != g then leaveKeys s g
    else
      let n := 8 + 8 * fld (w.getD 2 0) 48 11
      let cells := cellsAt (operandLoc (coreOf g) (w.getD 3 0)) ((List.range n).map (fun i => Config.freeByte (s.free + i)))
      { leaveKeys (sramWrite s cells) g with free := s.free + n }
  | _ => leaveKeys s g

/-- Slot g's operation in its core's matrix unit completes, if no scoreboard entry holds it. -/
def completeMatrix (s : State) (g : Nat) : State :=
  match (s.core (coreOf g)).unitBusy with
  | some (h, op) => if h = g && unitClear s g op then completeUnit s g op else s
  | none => s

/-- An operation of the matrix unit or the key-selection unit completes (R260); one that a scoreboard entry holds does not yet. -/
def execMatrixOpComplete (g : Nat) (s : State) : Out :=
  eventOf (decide (g < 32768)) (fun s =>
    match keyDue s (clusterOf (coreOf g)) with
    | some (h, op) => if h = g then completeKey s g op else completeMatrix s g
    | none => completeMatrix s g) s

end Sys2Proof.Machine
end

