-- ==== Sys2Proof/Machine/Closet.lean ====
section
/-! DEFINITION. Saved contexts: their places and bytes in the Closet and the spill area, saving, moving, restoring and discarding them (R50-R52,
R262, R347, R360, R361). -/

namespace Sys2Proof.Machine

/-! Places (R347, R360). -/

/-- Spill units of a core (CLSPILL). -/
def spillUnits (k : Core) : Nat := fld k.clspill 32 4
/-- Location of byte o of spill unit u. -/
def unitLoc (s : State) (c u o : Nat) : Nat := locDie (dieOf c) (fld (s.core c).clspill 12 15 * 4096 + u * 49152 + o)
/-- Spill units in use. -/
def usedUnits (k : Core) : List Nat := k.saved.flatMap (fun x => x.unit.toList ++ x.unit2.toList)
/-- Free spill units, lowest first. -/
def freeUnits (k : Core) : List Nat := (List.range (spillUnits k)).filter (fun u => !(usedUnits k).contains u)
/-- The lowest free scalar place. -/
def freePlace (k : Core) : Option Nat := (List.range 16).find? (fun p => !k.saved.any (fun x => x.place = some p))
/-- Dispatch takes only saved contexts (R361). -/
def onlySaved (k : Core) : Bool := (freePlace k).isNone && (freeUnits k).isEmpty
/-- The lowest free vector place. -/
def freeVPlace (k : Core) : Option Nat := (List.range 2).find? (fun p => !k.saved.any (fun x => x.vplace = some p))
/-- The accumulator place is free. -/
def freeAPlace (k : Core) : Bool := !k.saved.any (fun x => x.aplace)

/-- The accumulators a slot owns, lower number first. -/
def ownedAccs (k : Core) (g : Nat) : List Nat := (List.range 2).filter (fun n => (k.acc n).owner = some g)

/-- The places a context with a vector part and some accumulators would take (R51, R361), or none. -/
def allotPlaces (k : Core) (vec : Bool) (accs : Nat) : Option Saved :=
  match freePlace k with
  | none => none
  | some p =>
    let v := if vec then freeVPlace k else none
    let a := decide (accs ≠ 0) && freeAPlace k
    let shared := (vec && v.isNone) || (decide (accs ≠ 0) && !a)
    let us := freeUnits k
    let n := b2n shared + b2n (decide (accs = 2))
    if us.length < n then none
    else
      some { num := 0, place := some p, vplace := v, aplace := a, unit := if shared then us[0]? else none,
             unit2 := if accs = 2 then us[n - 1]? else none }

/-- A slot's context could be saved now (R49, R51, R361). -/
def canSave (s : State) (g : Nat) : Bool :=
  (allotPlaces (s.core (coreOf g)) ((s.slot g).grant != 0) (ownedAccs (s.core (coreOf g)) g).length).isSome

/-- The victim of a preemption that the core has started still finds its places (R361). -/
def keepsRoom (s : State) (c : Nat) : Bool :=
  match (s.core c).preempt with
  | some p => canSave s p.victim
  | none => true

/-! The bytes of a context (R360). -/

/-- VGRANT as the CSR shows it (R237). -/
def vgrantWord (t : Slot) : Word := wd (at_ (b2n t.lost) 16 + at_ (t.grant % 256) 8 + t.vl % 256)

/-- CR word 2 of a slot's task, with BUDGETLEFT. -/
def slotWord2 (t : Slot) : Word :=
  crWord2 { pc := 0, instant := 0, budget := t.budget.toNat, deleg := t.deleg, feat := t.feat, prio := t.prio, rtag := t.rtag, x := [] }

/-- Code of a home queue. -/
def homeCode : Home → Nat
  | .core => 0
  | .cluster => 1
  | .die => 2
def homeOf (n : Nat) : Home := match n with | 0 => .core | 1 => .cluster | _ => .die

/-- The header of a context saved from slot g into places x. -/
def headerWord (t : Slot) (k : Core) (g : Nat) (x : Saved) : Word :=
  let a0 := x.accs.headD 0
  let a1 := 1 - a0
  wd (1 + at_ (g % 16) 1 + at_ (b2n (x.lanes != 0)) 5 + at_ (x.vplace.getD 0) 6 + at_ (b2n (x.lanes != 0 && x.vplace.isNone)) 7
    + at_ (b2n (!x.accs.isEmpty)) 8 + at_ a0 9 + at_ (b2n (!x.accs.isEmpty && !x.aplace)) 10
    + at_ (b2n (!x.accs.isEmpty && (k.acc a0).aovf)) 11 + at_ (b2n (!x.accs.isEmpty && (k.acc a0).anar)) 12
    + at_ (b2n x.fault.isSome) 13 + at_ (x.unit.getD 0) 14 + at_ (homeCode t.home) 20 + at_ (b2n (t.state = .halted)) 22
    + at_ (b2n t.doubleHalt) 23 + at_ (b2n (decide (x.accs.length = 2))) 24 + at_ (x.unit2.getD 0) 25
    + at_ (b2n (decide (x.accs.length = 2) && (k.acc a1).aovf)) 30 + at_ (b2n (decide (x.accs.length = 2) && (k.acc a1).anar)) 31)

/-- The 48 words of a scalar place. -/
def scalarWords (t : Slot) (k : Core) (header : Word) : List Word :=
  (List.range 31).map (fun i => t.xr (i + 1)) ++
  [t.pc, slotWord2 t, t.expiry, statusWord k t,
   wd (t.p.toNat / 2 * 2 + at_ (t.xPoison.toNat / 2) 8),
   wd (t.vtype.toNat + at_ t.vflags.toNat 8 + at_ (vgrantWord t).toNat 24),
   wd t.waitlim.toNat, t.tvec, wd t.trapcause.toNat, t.trappc, t.trapval, wd t.dcause.toNat, t.dpc, t.dval, t.sscratch,
   wd t.oovdraft.toNat, header]

/-- A recorded barrier phase as the matrix record holds it, from the context's phase now. -/
def phaseField (now : Nat) : Option (Option Nat) → Nat
  | none => now % 4096
  | some none => 3 * 4096 + now % 4096
  | some (some p) => (if p < now then 3 else if p = now then 1 else 2) * 4096 + now % 4096

/-- The eight words of a matrix record. -/
def matrixWords (s : State) (c : Nat) (t : Slot) : List Word :=
  let ph := fun b => phaseField (s.barrier c b).phase ((t.recorded.find? (fun r => r.1 = b)).map (fun r => r.2))
  [t.shape, t.fmt, t.aBase, t.bBase, wd (t.aStride.toNat + at_ t.bStride.toNat 32), wd (t.cell.toNat % 2 ^ 35),
   wd (b2n (bit t.cell 35) + sumN ((List.range 4).map (fun b => at_ (ph b) (8 + 14 * b)))), t.progress]

/-- Bytes of words. -/
def wordBytes (l : List Word) : List Byte := l.flatMap (fun w => leBytes w.toNat 8)

/-- The 16 KiB of vector registers. -/
def vectorBytes (t : Slot) : List Byte :=
  (List.range 32).flatMap (fun r => (List.range 128).flatMap (fun l => leBytes (t.vr r l).toNat 4))
/-- The 512 bytes of masks. -/
def maskBytes (t : Slot) : List Byte := (List.range 7).flatMap (fun i => leBytes (look 0 (i + 1) t.m).toNat 64) ++ List.replicate 64 0
/-- The 24 KiB of an accumulator. -/
def accBytes (a : Acc) : List Byte := (List.range 2048).flatMap (fun n => leBytes (a.cell (n / 32) (n % 32)).toNat 12)

/-- Where a context's parts lie: scalar place, matrix record, registers, masks, first and second accumulator. -/
structure Parts where
  scalar : Nat
  matrix : Nat
  vec    : Nat
  masks  : Nat
  acc    : Nat
  acc2   : Nat

def partsOf (s : State) (c : Nat) (x : Saved) : Parts :=
  let u := fun o => unitLoc s c (x.unit.getD 0) o
  { scalar := match x.place with | some p => locCloset c (384 * p) | none => u 41472
    matrix := match x.place with | some p => locCloset c (0x1800 + 64 * p) | none => u (41472 + 384)
    vec := match x.vplace with | some v => locCloset c (0x2000 + 16384 * v) | none => u 0
    masks := match x.vplace with | some v => locCloset c (0x1C00 + 512 * v) | none => u 16384
    acc := if x.aplace then locCloset c 0xA000 else u 16896
    acc2 := unitLoc s c (x.unit2.getD 0) 0 }

/-- Store bytes at a location. -/
def storeAt (s : State) (loc : Nat) (bs : List Byte) : State := sramWrite s (cellsAt loc bs)

/-- Write a context's bytes into its places. -/
def writeContext (s : State) (c g : Nat) (x : Saved) : State :=
  let t := s.slot g
  let k := s.core c
  let p := partsOf s c x
  let s1 := storeAt (storeAt s p.scalar (wordBytes (scalarWords t k (headerWord t k g x)))) p.matrix (wordBytes (matrixWords s c t))
  let s2 := if x.lanes = 0 then s1 else storeAt (storeAt s1 p.vec (vectorBytes t)) p.masks (maskBytes t)
  let s3 := if x.accs.isEmpty then s2 else storeAt s2 p.acc (accBytes (k.acc (x.accs.headD 0)))
  if x.accs.length = 2 then storeAt s3 p.acc2 (accBytes (k.acc 1)) else s3

/-! The order of saved contexts (R36). -/

/-- Of two contexts, the first resumes before the second. -/
def resumesBefore (s : State) (c : Nat) (a b : Saved) : Bool :=
  decide (a.cls < b.cls) ||
  (decide (a.cls = b.cls) &&
    (if isEdf s (qCore c) a.cls then
      decide (a.instant.toNat < b.instant.toNat) || (a.instant = b.instant && decide (a.order < b.order))
     else decide (a.order < b.order)))

/-- The header word of a context in memory. -/
def headerAt (s : State) (c : Nat) (x : Saved) : Word := read64 s.mem ((partsOf s c x).scalar + 0x178)

/-- Change a core's saved context by number. -/
def modSaved (s : State) (c num : Nat) (f : Saved → Saved) : State :=
  s.modCore c (fun k => { k with saved := k.saved.map (fun x => if x.num = num then f x else x) })

/-- The place or unit at a location is no longer valid: its header's VALID bit is cleared (R360). -/
def clearValid (s : State) (loc : Nat) : State := sramWrite s [(loc + 0x178, s.mem.read (loc + 0x178) &&& 0xFE)]

/-- Move one context out of a full Closet (R51): the one that would resume last, among those that wait on no fault, to its unit or else to a free one. While no
unit is free there is no move. -/
def moveOne (s : State) (c : Nat) : State :=
  let k := s.core c
  if (freePlace k).isSome || (freeUnits k).isEmpty then s
  else
    let cands := k.saved.filter (fun x => x.place.isSome && x.fault.isNone)
    match leastBy (fun a b => resumesBefore s c b a) cands with
    | none => s
    | some x =>
      let u := match x.unit with | some u => u | none => (freeUnits k).headD 0
      let y : Saved := { x with place := none, vplace := none, aplace := false, unit := some u }
      let p := partsOf s c x
      let q := partsOf s c y
      let h := headerAt s c x
      let h1 := wd (h.toNat - at_ (fld h 6 2) 6 - at_ (fld h 10 1) 10 - at_ (fld h 14 6) 14
        + at_ (b2n (x.lanes != 0)) 7 + at_ (b2n (!x.accs.isEmpty)) 10 + at_ u 14 + at_ 1 19)
      let copy := fun (s : State) (a b n : Nat) => storeAt s b (s.mem.readN a n)
      let s1 := copy (copy s p.scalar q.scalar 384) p.matrix q.matrix 64
      let s2 := storeAt s1 (q.scalar + 0x178) (leBytes h1.toNat 8)
      let s3 := if x.vplace.isSome then copy (copy s2 p.vec q.vec 16384) p.masks q.masks 512 else s2
      let s4 := if x.aplace then copy s3 p.acc q.acc 24576 else s3
      modSaved (clearValid s4 p.scalar) c x.num (fun _ => y)

/-- Save slot g's context under its number (R50, R51, R40): none if there is no room. Its accumulators are released with their cells and flags as they are (R262). The
order of contexts by their moment of preemption (R36) goes by this save, which frees the slot: R36 does not say whether that moment is the preemption's start or its
save, DESIGN CHOICE, log 80. -/
def saveContext (s : State) (g : Nat) (fault : Option Nat) (yields : Option Nat) : Option (Saved × State) :=
  let c := coreOf g
  let t := s.slot g
  let k := s.core c
  let accs := ownedAccs k g
  (allotPlaces k (t.grant != 0) accs.length).map (fun pl =>
    let x : Saved := { pl with num := t.ctx, instant := t.expiry, cls := t.prio, rtag := t.rtag, order := s.nextId, fault := fault, also := if fault.isSome then t.also else [],
                               fkind := if fault.isSome then t.fkind else 0, failed := t.logFailed, yields := yields, lanes := t.grant, accs := accs, vPoison := t.vPoison,
                               budgetPending := t.budgetPending }
    let s1 := writeContext s c g x
    let s2 := { s1 with nextId := s1.nextId + 1 }
    let s3 := s2.modCore c (fun k => { k with
      saved := k.saved ++ [x]
      acc0 := if k.acc0.owner = some g then { k.acc0 with owner := none } else k.acc0
      acc1 := if k.acc1.owner = some g then { k.acc1 with owner := none } else k.acc1 })
    (x, moveOne s3 c))

/-! Restoring (R52, R103, R360). -/

/-- A scalar place's word. -/
def ctxWord (s : State) (p : Parts) (off : Nat) : Word := read64 s.mem (p.scalar + off)

/-- A recorded phase from the matrix record: phases released since the save count, modulo 4,096. -/
def phaseOf (now f : Nat) : Option (Option Nat) :=
  let released := (now + 4096 - f % 4096) % 4096
  match f / 4096 % 4 with
  | 0 => none
  | 1 => some (if released = 0 then some now else none)
  | 2 => some (if released = 0 then some (now + 1) else if released = 1 then some now else none)
  | _ => some none

/-- The barrier phases a matrix record's word 6 holds. -/
def recordedOf (s : State) (c : Nat) (w6 : Word) : Map (Option Nat) :=
  (List.range 4).filterMap (fun b => (phaseOf (s.barrier c b).phase (fld w6 (8 + 14 * b) 14)).map (fun p => (b, p)))

/-- The slot a context's bytes describe, on core c. -/
def slotOf (s : State) (c : Nat) (x : Saved) : Slot :=
  let p := partsOf s c x
  let w := ctxWord s p
  let k := s.core c
  let w2 := w 0x100
  let st := w 0x110
  let pr := w 0x118
  let vv := w 0x120
  let h := w 0x178
  let m := fun i => read64 s.mem (p.matrix + 8 * i)
  let lanes := x.lanes
  { state := if bit h 22 then .halted else .ready
    doubleHalt := bit h 23
    x := (List.range 31).foldl (fun a i => put (i + 1) (w (8 * i)) a) []
    xPoison := BitVec.ofNat 32 (fld pr 8 31 * 2)
    p := BitVec.ofNat 8 (fld pr 1 7 * 2 + 1)
    pc := w 0xF8 &&& ~~~1#64
    expiry := w 0x108
    rtag := fld w2 0 18, prio := fld w2 18 2, feat := fld w2 20 8, deleg := bit w2 28
    budget := BitVec.ofNat 32 (fld w2 32 32)
    inForce := fld w2 32 32 != 0
    budgetPending := x.budgetPending
    mode := bit st 0, dh := bit st 2, pmode := bit st 3, pdh := bit st 4, ie := bit st 5, pie := bit st 6, nest := bit st 7
    grant := lanes
    vl := fld vv 24 8
    lost := bit vv 40 || lanes != 0
    vtype := BitVec.ofNat 3 (fld vv 0 3), vflags := BitVec.ofNat 5 (fld vv 8 5)
    waitlim := BitVec.ofNat 32 (fld (w 0x128) 0 32)
    tvec := w 0x130 &&& ~~~1#64
    trapcause := BitVec.ofNat 8 (fld (w 0x138) 0 8), trappc := w 0x140 &&& ~~~1#64, trapval := w 0x148
    dcause := BitVec.ofNat 8 (fld (w 0x150) 0 8), dpc := w 0x158 &&& ~~~1#64, dval := w 0x160
    sscratch := w 0x168
    oovdraft := BitVec.ofNat 32 (fld (w 0x170) 0 32)
    lprot0 := k.ptempl0, lprot1 := k.ptempl1, lprot2 := k.ptempl2, lprot3 := k.ptempl3
    v := if x.lanes = 0 then [] else
      (List.range 4096).foldl (fun a n => put n (BitVec.ofNat 32 (leNat (s.mem.readN (p.vec + 4 * n) 4))) a) []
    vPoison := x.vPoison
    m := if x.lanes = 0 then [] else
      (List.range 7).foldl (fun a i => put (i + 1) (BitVec.ofNat 512 (leNat (s.mem.readN (p.masks + 64 * i) 64))) a) []
    shape := m 0, fmt := m 1, aBase := m 2, bBase := m 3
    aStride := wd (fld (m 4) 0 18), bStride := wd (fld (m 4) 32 18)
    cell := wd (fld (m 5) 0 35 + at_ (fld (m 6) 0 1) 35)
    progress := m 7
    recorded := recordedOf s c (m 6)
    rearm := true
    home := homeOf (fld h 20 2)
    started := s.time
    ctx := x.num
    logFailed := x.failed }

/-- An accumulator from its bytes. -/
def accOf (s : State) (loc g : Nat) (aovf anar : Bool) : Acc :=
  { cells := (List.range 2048).foldl (fun a n => put (64 * (n / 32) + n % 32) (BitVec.ofNat 96 (leNat (s.mem.readN (loc + 12 * n) 12))) a) []
    aovf := aovf, anar := anar, owner := some g }

/-- The saved context leaves its places, which are valid no longer (R360); a core whose scalar places are still all taken moves one (R51). -/
def dropSaved (s : State) (c num : Nat) : State :=
  let s1 := ((s.core c).saved.filter (fun x => x.num = num)).foldl (fun s x => clearValid s (partsOf s c x).scalar) s
  moveOne (s1.modCore c (fun k => { k with saved := k.saved.filter (fun x => x.num != num) })) c

/-- A context's accumulators have no owner (R262). -/
def accsFree (k : Core) (x : Saved) : Bool := x.accs.all (fun n => (k.acc n).owner.isNone)

/-- The tile can grant its lanes and its accumulators have no owner (R52, R262). -/
def canRestore (s : State) (c : Nat) (x : Saved) : Bool := decide (x.lanes ≤ freeLanes s c) && accsFree (s.core c) x

/-- Contexts the timer made yield slot g may be dispatched again: it has been given away (R378). -/
def slotGiven (s : State) (g : Nat) : State :=
  s.modCore (coreOf g) (fun k => { k with saved := k.saved.map (fun x => if x.yields = some g then { x with yields := none } else x) })

/-- The task resumed traps with a failure that its page met (R399, R402). -/
def takeFailure (s : State) (g : Nat) : State :=
  let t := s.slot g
  match t.logFailed with
  | none => s
  | some (code, a) =>
    trapAt (s.modSlot g (fun t => { t with logFailed := none })) g (failureCause code) t.pc a

/-- Restore a saved context into free slot g (R52): registers from its bytes, its accumulators, its tied copies; the lane store of its grant starts
cleared (R243); a context saved for a storage fault refreshes first (R103). -/
def restore (s : State) (g : Nat) (x : Saved) : State :=
  let c := coreOf g
  let p := partsOf s c x
  let h := ctxWord s p 0x178
  let t := slotOf s c x
  let s1 := s.setSlot g t
  let a0 := x.accs.headD 0
  let s2 := if x.accs.isEmpty then s1 else s1.setAcc c a0 (accOf s p.acc g (bit h 11) (bit h 12))
  let s3 := if x.accs.length = 2 then s2.setAcc c (1 - a0) (accOf s p.acc2 g (bit h 30) (bit h 31)) else s2
  let s4 := dropSaved s3 c x.num
  let s5 := { s4 with mem := s4.mem.filter (fun cell =>
    !((List.range 128).any (fun l => decide (locLane g l 0 ≤ cell.1) && decide (cell.1 < locLane g l 0 + 512)))) }
  let s6 := if bit h 13 then refreshCore s5 c else s5
  resumeTied (slotGiven s6 g) x.num g

end Sys2Proof.Machine
end

