-- ==== Sys2Proof/Machine/Slots.lean ====
section
/-! DEFINITION. A slot's life: dispatch, freeing, voluntary suspension, preemption, and the arrival of messages (R36-R54, R65, R344-R348). -/

namespace Sys2Proof.Machine

/-! Dispatch (R37, R348). -/

/-- Turns of eight cycles that a dispatch takes before the task's first issue: the read of its CR from the queue and its first fetch (R37, R42). Counted in turns of
the core, whatever a turn took: a nominal latency, log 4. -/
def dispatchTurns : Home → Nat
  | .core => 5
  | .cluster => 8
  | .die => 15

/-- A slot as dispatch of a CR leaves it; its context gets a number. -/
def dispatched (k : Core) (cr : CR) (home : Home) (now ctx : Nat) : Slot :=
  { state := .ready
    ctx := ctx
    first := k.turns + dispatchTurns home
    x := (List.range 5).foldl (fun a i => put (i + 1) (cr.x.getD i 0) a) []
    pc := cr.pc &&& ~~~1#64
    expiry := cr.instant, rtag := cr.rtag, prio := cr.prio, feat := cr.feat, deleg := cr.deleg
    budget := BitVec.ofNat 32 cr.budget, inForce := cr.budget % 2 ^ 32 != 0
    lprot0 := k.ptempl0, lprot1 := k.ptempl1, lprot2 := k.ptempl2, lprot3 := k.ptempl3
    home := home, started := now }

/-- A CR is dispatched into slot g; the core refreshes first (R103). -/
def dispatchCr (s : State) (g : Nat) (cr : CR) (home : Home) : State :=
  let c := coreOf g
  slotGiven { (refreshCore s c).setSlot g (dispatched (s.core c) cr home s.time s.nextId) with nextId := s.nextId + 1 } g

/-- The free slots of a core a dispatch may fill; a POOL handler never takes slot 0 of a supervised core (R36, R375). -/
def freeSlots (s : State) (c : Nat) (pool : Bool) : List Nat :=
  (slotsOf c).filter (fun g => !(s.slot g).occupied && !(pool && (s.core c).sched && g % 16 = 0))

/-- One of the free slots, at the device's choice (R36). -/
def pickFree (s : State) (c : Nat) (pool : Bool) : Option (Nat × State) :=
  match freeSlots s c pool with
  | [] => none
  | l =>
    let (n, s1) := s.fresh
    some (l.getD (Config.pick n % l.length) (l.headD 0), s1)

/-! Freeing a slot. -/

/-- The slot that waits in SLOTCTL PREEMPT gets its answer: a status and a place (R359). -/
def answerPreempt (s : State) (w : Nat × Nat) (st place : Nat) : State :=
  match (s.slot w.1).wait with
  | some (.preempting _) =>
    let s0 := s.actFor w.1
    let s1 := (finish s0 s0 (BitVec.ofNat 6 w.2) (wd (st + place * 256))).state
    { s1 with curCore := s.curCore, curSlot := s.curSlot }
  | _ => s

/-- Some interface of this device holds a message that this core refused. -/
def refusedAt (s : State) (c : Nat) : Bool := s.cores.any (fun k => k.2.ni.any (fun m => m.dest = c && m.peer.isNone && m.refused))

/-- A slot or a class-queue entry of the core has freed: interfaces with refused messages retry, those of peers too (R45). -/
def announce (s : State) (c : Nat) : State :=
  let s1 := if refusedAt s c then s.post (.freeSlotNotice c) else s
  let away := (s1.core c).turnedAway
  if away.isEmpty then s1
  else { s1.modCore c (fun k => { k with turnedAway := [] }) with replies := s1.replies ++ away.map (fun d => (d, 0, .freed c)) }

/-- The slot is free: its lanes go back cleared, its monitors are disarmed, and its state is discarded. A preemption of it under way ends
without a save (R380). -/
def vacate (s : State) (g : Nat) : State :=
  let c := coreOf g
  let s1 := if (s.slot g).grant = 0 then s else clearLanes s g 0 (s.slot g).grant
  let s2 := announce (s1.setSlot g {}) c
  match (s2.core c).preempt with
  | some p =>
    if p.victim = g then
      let s3 := s2.modCore c (fun k => { k with preempt := none })
      match p.waiter with
      | some w => answerPreempt s3 w 0 15
      | none => s3
    else s2
  | none => s2

/-- The task of slot g leaves by itself, at DONE or a voluntary suspension: its partial commands fail (R297), its accumulators are zeroed and
released (R262), and the slot is free. -/
def leaveSlot (s : State) (g : Nat) : State := vacate (dropUnit (dropPartial s (coreOf g) (s.slot g).ctx 3 2) g) g

/-- The CR of a voluntary suspension (R39): the next instruction's PC, x1-x5, and the rest of word 2 as the task has it. -/
def suspensionCr (s : State) (g : Nat) (pc : Word) : CR :=
  let t := s.slot g
  { pc := pc, instant := s.instantOf t.rtag, budget := t.budget.toNat, deleg := t.deleg, feat := t.feat, prio := t.prio, rtag := t.rtag,
    x := (List.range 5).map (fun i => t.xr (i + 1)) }

/-- The first marked register among x1-x5: forming a CR reads them (R187). -/
def markedCarry (t : Slot) : Option Word := ((List.range 5).find? (fun i => t.poisoned (i + 1))).map (fun i => t.xr (i + 1))

/-- Stop with MEMERR if a carried register is marked. -/
def needCarry (s : State) : Res Unit :=
  match markedCarry s.mine with
  | some a => trapRes s .memerr a
  | none => .go () s

/-- The same, where the instruction writes its destination first (R39, R187): that write ends the register's mark. -/
def needCarryBut (s : State) (rd : RegField) : Res Unit :=
  match markedCarry (if isHatch rd then s.mine else s.mine.setX rd.toNat 0) with
  | some a => trapRes s .memerr a
  | none => .go () s

/-- The queue a slot's task was last dispatched from (R38). -/
def homeQueue (s : State) (g : Nat) : Nat :=
  match (s.slot g).home with
  | .core => qCore (coreOf g)
  | .cluster => qCluster (clusterOf (coreOf g))
  | .die => qDie (dieOf (coreOf g)) (s.partOf (coreOf g))

/-! Messages (R44, R45). -/

/-- Entries of a message's run in an MSGQ Hatch (R291). -/
def msgRun (m : Msg) : Nat := m.words.length + 1

/-- The header word of MRECV and MSGQ (R226). -/
def msgHeader (m : Msg) : Word :=
  wd (at_ (m.rtag % 2 ^ 18) 24 + at_ (m.words.length - 1) 22 + at_ (m.peer % 64) 16 + at_ (b2n m.remote) 15 + at_ (m.score % 2048) 4
    + m.sslot % 16)

/-- Move whole runs from the class queue into its MSGQ Hatch while they fit (R291). -/
def fillHatch (s : State) (c k : Nat) : Nat → State
  | 0 => s
  | f + 1 =>
    let q := s.msgClass c k
    match q.hatch, q.queue with
    | some h, m :: r =>
      let b := s.hatch c h
      if hatchFill s c h + msgRun m ≤ 8 then
        let run := { value := msgHeader m, start := true, rtag := m.rtag } :: m.words.map (fun w => { value := w, rtag := m.rtag : HatchEntry })
        fillHatch (announce ((s.setHatch c h { b with entries := b.entries ++ run }).setClass c k { q with queue := r }) c) c k f
      else s
    | _, _ => s

/-- Every MSGQ Hatch of a core takes what fits. -/
def fillHatches (s : State) (c : Nat) : State := (List.range 8).foldl (fun s k => fillHatch s c k 16) s

/-- A message is discarded and counted. -/
def countDropped (s : State) : State := { s with dropped := s.dropped + 1 }

/-- A message arrives at a class of a core (R45): the state if it is taken or discarded, none if it is refused, as a POOL handler is while the core's dispatch takes only
saved contexts (R361). -/
def deliver (s : State) (c k : Nat) (m : Msg) : Option State :=
  let q := s.msgClass c k
  if !s.liveTag m.rtag then some (countDropped s)
  else
    match q.mode with
    | .off => some (countDropped s)
    | .bound =>
      if q.queue.length < 16 then
        let s1 := s.setClass c k { q with queue := q.queue ++ [m] }
        let s2 := if q.trp then s1.modCore c (fun x => { x with msgpend := x.msgpend ||| BitVec.ofNat 8 (2 ^ k) }) else s1
        some (fillHatch s2 c k 16)
      else none
    | .pool =>
      if reached (s.instantOf m.rtag) s.time then some (countDropped s)
      else
        (if (s.cluster (clusterOf c)).state != 0 || onlySaved (s.core c) then none else pickFree s c true).map (fun p =>
          let cr : CR := { pc := q.handler, instant := s.instantOf m.rtag, budget := 0, deleg := false, feat := 0, prio := s.classOf m.rtag,
                           rtag := m.rtag,
                           x := (List.range 4).map (fun i => m.words.getD i 0) ++ [wd ((msgHeader m).toNat % 2 ^ 24)] }
          dispatchCr p.2 p.1 cr .core)

/-- Where a message goes: the peer if it leaves the device, the core there, and the class. -/
def Outgoing.goal (m : Outgoing) : Option Nat × Nat × Nat := (m.peer, m.dest, m.cls)

/-- The messages of an interface with none to the same class ahead of them. -/
def heads : List Outgoing → List (Option Nat × Nat × Nat) → List Outgoing
  | [], _ => []
  | m :: r, seen => if seen.contains m.goal then heads r seen else m :: heads r (m.goal :: seen)

/-- A message of core c's interface is offered to its destination: it sets out. -/
def offer (s : State) (c : Nat) (m : Outgoing) : State :=
  match m.peer with
  | none => s.post (.messageArrival m.dest m.cls m.msg)
  | some p => sendWork s p m.msg.rtag (s.partOf c) (16 * c + m.msg.sslot) (.message m.num m.dest m.cls m.msg) 0 [] 0

/-- Offer the message that is now first to a class of a core. -/
def offerNext (s : State) (c : Nat) (goal : Option Nat × Nat × Nat) : State :=
  match (heads (s.core c).ni []).find? (fun m => m.goal = goal) with
  | some m => if m.refused then s else offer s c m
  | none => s

/-- A message enters core c's interface (R44); one for a peer over a link that is down is lost and counted (R422). -/
def sendMessage (s : State) (c : Nat) (peer : Option Nat) (dest cls : Nat) (m : Msg) : State :=
  if (match peer with | some p => portDown s (fld (s.reg (peerrouteAddr p)) 0 4) | none => false) then countDropped s
  else
  let x : Outgoing := { dest := dest, cls := cls, msg := m, peer := peer, num := s.nextId }
  let first := !(s.core c).ni.any (fun y => y.goal = x.goal)
  let s1 : State := { s.modCore c (fun k => { k with ni := k.ni ++ [x] }) with nextId := s.nextId + 1 }
  if first then offer s1 c x else s1

/-- A message of core c's interface has been taken, dropped or lost where it went: it leaves the interface, and the next of its class follows. -/
def messageTaken (s : State) (c : Nat) (m : Outgoing) : State :=
  offerNext (s.modCore c (fun k => { k with ni := k.ni.filter (fun x => x.num != m.num) })) c m.goal

/-- A message of core c's interface has been refused, or is offered again. -/
def markRefused (s : State) (c : Nat) (m : Outgoing) (on : Bool) : State :=
  s.modCore c (fun k => { k with ni := k.ni.map (fun x => if x.num = m.num then { x with refused := on } else x) })

/-- A message of core `c` arrives at a core of this device. -/
def arriveLocal (s : State) (c : Nat) (m : Outgoing) : State :=
  match deliver s m.dest m.cls m.msg with
  | some s1 => messageTaken s1 c m
  | none => markRefused s c m true

/-- A message arrives at its destination core (R45). One that its sender's interface no longer holds first is no arrival. -/
def execMessageArrival (core cls : Nat) (msg : Msg) (s : State) : Out :=
  eventOf (decide (core < 2048) && decide (cls < 8)) (fun s =>
    match (heads (s.core msg.score).ni []).find? (fun m => m.goal = (none, core, cls)) with
    | some m => if m.msg = msg then arriveLocal s msg.score m else s
    | none => s) s

/-- The notice of a freed slot or queue entry reaches the interfaces: each offers again the first refused message to each class (R45, R56). -/
def execFreeSlotNotice (core : Nat) (s : State) : Out :=
  eventOf (decide (core < 2048)) (fun s =>
    s.cores.foldl (fun s k =>
      (heads k.2.ni []).foldl (fun s m => if m.peer.isNone && m.dest = core && m.refused then arriveLocal s k.1 m else s) s) s) s

/-- A core sends itself a message on class 7 under RTAG 0 (R65, R445). -/
def sendSelf (s : State) (c : Nat) (slot : Nat) (words : List Word) : State :=
  sendMessage s c none c 7 { rtag := 0, words := words, remote := false, peer := 0, score := c, sslot := slot }

/-! Preemption (R47-R50, R378-R380). -/

/-- A slot holds a SLOTQ binding (R47). -/
def pinned (s : State) (g : Nat) : Bool :=
  (s.core (coreOf g)).hatches.any (fun h => h.2.kind = 1 && (h.2.slotA = g % 16 || h.2.slotB = g % 16))

/-- A preemption of slot g starts (R50 step 1, R379): a deferred tagged-word operation is withdrawn (R193). -/
def startPreempt (s : State) (g : Nat) (waiter : Option (Nat × Nat)) (timer : Bool) : State :=
  let s1 := s.modCore (coreOf g) (fun k => { k with preempt := some { victim := g, waiter := waiter, timer := timer } })
  match (s.slot g).wait with
  | some (.tagged w true _ _) => (s1.modSlot g (fun t => { t with wait := some (.withdrawn w .preemption) })).post (.withdrawalAnswer g)
  | _ => s1

/-- An operation of slot g is performed, or may be, and its answer is awaited (R50 step 2, R65): one at a peer, a write of LMSHARE, or the part of a publish that waits
for stores held at the core; the part that waits for the side log or for peers is not awaited (R104). -/
def replyAwaited (s : State) (g : Nat) : Bool :=
  match (s.slot g).wait with
  | some (.peer _ false) => true
  | some .share => true
  | some .stores => true
  | _ => false

/-- The instruction is an AMO, CAS or tagged-word operation: one that has not left the core is cancelled, not awaited (R193, R197). -/
def cancelled : Instr → Bool
  | .amo32 _ _ _ _ _ => true
  | .amo64 _ _ _ _ _ => true
  | .cas _ _ _ _ _ => true
  | .ldfull _ _ => true
  | .ldtake _ _ => true
  | .stfill _ _ => true
  | .stforce _ _ => true
  | .tagrd _ _ => true
  | _ => false

/-- The slot's access has passed its checks and is to be performed before the slot can be saved (R50 step 2, R93, R258): not one that waits in its implied publish
(R104), nor one that has not left the core and may be cancelled. -/
def accessHeld (t : Slot) : Bool :=
  (t.checked.isSome || decide (t.vprog ≠ 0)) && t.wait != some .publish && !(match t.issued with | some x => cancelled x.1 | none => false)

/-- The victim's last issued instruction is over, or can be cancelled (R50 step 2). -/
def saveReady (s : State) (g : Nat) : Bool :=
  let t := s.slot g
  !replyAwaited s g && !accessHeld t &&
  (match t.wait with
    | some (.tagAnswer _ _ _) => false
    | some (.tagged _ true _ _) => false
    | some (.withdrawn _ _) => false
    | some (.late _) => false
    | _ => true)

/-- Slot g's store is part-way: it has passed its checks and waits for room in a log, or has stored some of its elements and is held again, and performs or logs its
other elements before its task ends (R240, R258). -/
def storePartWay (t : Slot) : Bool :=
  accessHeld t && (decide (t.vprog ≠ 0) || (match t.wait with | some .sideLog => true | some .dirtyLog => true | _ => false))

/-- The task of slot g cannot end yet: its instruction is to reach its boundary first (R65). -/
def endAwaited (s : State) (g : Nat) : Bool := replyAwaited s g || storePartWay (s.slot g)

/-- Slot g's performed instruction is over with its result discarded: what it popped stays popped, and its reserved places are free (R64, R65). -/
def passOver (s : State) (g : Nat) : State :=
  let s1 := undoIssue (s.modSlot g (fun t => { t with held := [] })) g
  jumpTo s1 g ((s1.slot g).pc + 4)

/-- Slot g's operation is performed and its values have not been written (R64). -/
def performed (t : Slot) : Bool :=
  match t.wait with
  | some (.tagAnswer _ _ _) => true
  | some (.late _) => true
  | _ => false

/-- The save of a preemption (R50 steps 3-6): its unit operation stops, its copies suspend, its context is saved, and the slot is free. A task held on a
fault is saved as any other, and meets its fault again when resumed (R397). A started preemption finds its places (R361): should it not, it stays. -/
def preemptSave (s : State) (p : Preemption) : State :=
  let g := p.victim
  let c := coreOf g
  let s1 := stopUnit (leaveKeys (dropHeld (undoIssue s g) c (s.slot g).ctx) g) g
  let s2 := s1.modSlot g (fun t => { t with wait := none, state := if t.state = .halted then .halted else .ready })
  match saveContext (suspendCopies s2 g true) g none (if p.timer then some g else none) with
  | none => s
  | some (x, s3) =>
    let s4 := vacate (s3.modCore c (fun k => { k with preempt := none })) g
    match p.waiter with
    | some w => answerPreempt s4 w 0 (x.place.getD 15)
    | none => s4

/-- The preemption in progress on a core can complete. -/
def preemptionReady (s : State) (p : Preemption) : Bool :=
  (s.slot p.victim).occupied && saveReady s p.victim && canSave s p.victim

/-- The preemption in progress on a core completes, once it can. -/
def execPreemptionComplete (core : Nat) (s : State) : Out :=
  eventOf (decide (core < 2048)) (fun s =>
    match (s.core core).preempt with
    | some p => if preemptionReady s p then preemptSave s p else s
    | none => s) s

/-! Ending a task (R64, R65). -/

/-- The annul notice word (R65). -/
def noticeWord (why slot rtag : Nat) : Word := wd (at_ (why % 4) 22 + at_ (slot % 16) 18 + rtag % 2 ^ 18)

/-- End slot g's task at its instruction boundary (R65): nothing of the waiting instruction is done, unless it is performed and only its values are missing; its unit operation and accumulators are
dropped, its deferral is freed, its partial commands are annulled, and the slot is free. With `notice` and notices enabled the core tells its
class 7. A store that it has made since its request's annulment point, in a line tagged with the request after it, stays and is published in time: R66 tells
only of the lines that stand at the point, DESIGN CHOICE, log 57. -/
def endSlot (s : State) (g : Nat) (notice : Bool) : State :=
  let c := coreOf g
  let s := if performed (s.slot g) then passOver s g else s
  let t := s.slot g
  let s1 := dropPartial (annulKeys (dropUnit (dropHeld (undoIssue s g) c t.ctx) g) g) c t.ctx 2 0
  let s2 := { s1 with deferred := s1.deferred.filter (fun d => d.g != g) }
  let s3 := vacate s2 g
  if notice && (s.core c).an then sendSelf s3 c (g % 16) [noticeWord (s.req t.rtag).why (g % 16) t.rtag, t.pc] else s3

end Sys2Proof.Machine
end

