-- ==== Sys2Proof/Machine/Requests.lean ====
section
/-! DEFINITION. RFORK, RHOLD, RDROP, RCANCEL, RRETIRE and RSTAT (R24-R29, R221-R224). -/

namespace Sys2Proof.Machine

/-- An operation at die d: dropped, with nothing done, once the issuing request's annulment point is known there (R64, R212). -/
def unlessAnnulled (s : State) (d : Nat) (f : Unit → Res Unit) : Res Unit :=
  if annulKnown s s.mine.rtag d then waitHere s .turn else f ()

/-- A tag operand. -/
def tagOf (v : Word) : Nat := fld v 0 18

def execRfork (rd rs1 rs2 : RegField) (s : State) : Out :=
  ((issue (.rfork rd rs1 rs2) { srcs := [rs1, rs2], dst := some rd } s).bnd fun v s1 =>
    let r := s1.mine.rtag
    let d := dieOf s1.curCore
    unlessAnnulled s1 d fun _ =>
      let i := wd (min (s1.instantOf r).toNat (v.getD 0 0).toNat)
      if reached i s1.time then finish s1 s1 rd 0
      else
        match allocate s1 d { state := .live, instant := i, cls := max (s1.classOf r) (fld (v.getD 1 0) 0 2), parent := r,
                              part := s1.partOf s1.curCore } with
        | some (t, s2) => finish s1 s2 rd (wd t)
        | none => finish s1 s1 rd 0).outcome

/-- The first empty place of a held list. -/
def heldPlace (q : Req) : Option Nat := (List.range 4).find? (fun i => q.held.getD i 0 = 0)

/-- RFORK.SH: a shared child, held by the forker. -/
def execRforkSh (rd rs2 : RegField) (s : State) : Out :=
  ((issue (.rforkSh rd rs2) { srcs := [rs2], dst := some rd } s).bnd fun v s1 =>
    let r := s1.mine.rtag
    let d := dieOf s1.curCore
    let q := s1.req r
    (need s1 (r != 0) .perm 0).bnd fun _ s1 =>
    unlessAnnulled s1 d fun _ =>
      match (if q.shared then none else heldPlace q) with
      | none => finish s1 s1 rd 0
      | some i =>
        match allocate s1 d { state := .live, instant := BitVec.allOnes 64, cls := fld (v.getD 0 0) 0 2, parent := r, shared := true,
                              holds := 1, part := s1.partOf s1.curCore } with
        | some (t, s2) => finish s1 (s2.setReq r { s2.req r with held := setAt (s2.req r).held i t }) rd (wd t)
        | none => finish s1 s1 rd 0).outcome

/-- RHOLD's status (R222). Where several codes apply, 3 comes first, then 2, then 0 for a hold there already, then 1: R222 gives no order, DESIGN CHOICE, log 69. -/
def holdStatus (s : State) (r h : Nat) : Nat :=
  if r = 0 || (s.req r).shared then 3
  else if (s.req h).state != .live || !(s.req h).shared || (s.req h).part != s.partOf s.curCore then 2
  else if (s.req r).held.contains h then 0
  else if (heldPlace (s.req r)).isNone then 1
  else 0

/-- Enter a shared request in a held list (R28). R24 gives holds 16 bits and no rule for a 65,536th hold: the count goes on, and RSTAT shows it modulo 65,536,
DESIGN CHOICE, log 58. -/
def addHold (s : State) (r h : Nat) : State :=
  if (s.req r).held.contains h then s
  else
    match heldPlace (s.req r) with
    | some i =>
      let s1 := s.setReq r { s.req r with held := setAt (s.req r).held i h }
      s1.setReq h { s1.req h with holds := (s1.req h).holds + 1 }
    | none => s

/-- RHOLD (R28, R222). One whose request has left LIVE already is not performed: it is no hold by a LIVE request. -/
def execRhold (rd rs1 : RegField) (s : State) : Out :=
  ((issue (.rhold rd rs1) { srcs := [rs1], dst := some rd } s).bnd fun v s1 =>
    let r := s1.mine.rtag
    let h := tagOf (v.getD 0 0)
    unlessAnnulled s1 (h / 65536) fun _ =>
    if r != 0 && !s1.liveTag r then waitHere s1 .turn
    else
      let st := holdStatus s1 r h
      finish s1 (if st = 0 then addHold s1 r h else s1) rd (wd st)).outcome

/-- Drop a hold: the shared request leaves LIVE with its last one (R26, R222). -/
def endHold (s : State) (r h : Nat) : State :=
  let q := s.req r
  let s1 := s.setReq r { q with held := q.held.map (fun x => if x = h then 0 else x) }
  let (gone, s2) := dropHold s1 h
  if gone then leave s2 h 1 .annulled else s2

def execRdrop (rd rs1 : RegField) (s : State) : Out :=
  ((issue (.rdrop rd rs1) { srcs := [rs1], dst := some rd } s).bnd fun v s1 =>
    let r := s1.mine.rtag
    let h := tagOf (v.getD 0 0)
    unlessAnnulled s1 (h / 65536) fun _ =>
      if r = 0 then finish s1 s1 rd 3
      else if h = 0 || !(s1.req r).held.contains h then finish s1 s1 rd 1
      else finish s1 (endHold s1 r h) rd 0).outcome

/-- STATE's code (R224). -/
def stateCode : ReqState → Nat
  | .free => 0
  | .live => 1
  | .annulled => 2
  | .retired => 3

/-- RCANCEL and RRETIRE (R223). A target that is the slot's own request ends the slot, and rd is discarded: the instruction is over then, so that the notice names the
next one's PC (R65), and what it popped stays popped. -/
def endRequest (i : Instr) (rd rs1 : RegField) (why : Nat) (goal : ReqState) (s : State) : Out :=
  ((issue i { srcs := [rs1], dst := some rd } s).bnd fun v s1 =>
    let t := tagOf (v.getD 0 0)
    (need s1 (t != 0 && tagAllowed s1 s1.me t) .perm (wd t)).bnd fun _ s1 =>
    unlessAnnulled s1 (t / 65536) fun _ =>
      let old := (s1.req t).state
      let s2 := if old = .live then leave s1 t why goal else s1
      if t = s1.mine.rtag then .stop (endSlot (passOver s2 s2.me) s2.me true) else finish s1 s2 rd (wd (stateCode old))).outcome

def execRcancel (rd rs1 : RegField) (s : State) : Out := endRequest (.rcancel rd rs1) rd rs1 1 .annulled s
def execRretire (rd rs1 : RegField) (s : State) : Out := endRequest (.rretire rd rs1) rd rs1 2 .retired s

/-- RSTAT's words of an entry (R224). -/
def statWord (q : Req) (n : Nat) : Word :=
  match n with
  | 0 => q.instant
  | 1 => wd (at_ (q.holds % 65536) 23 + at_ (b2n q.shared) 22 + at_ (stateCode q.state) 20 + at_ (q.cls % 4) 18 + q.parent % 2 ^ 18)
  | 2 => wd (q.held.getD 0 0 + at_ (q.held.getD 1 0) 32)
  | 3 => wd (q.held.getD 2 0 + at_ (q.held.getD 3 0) 32)
  | 4 => wd q.parked
  | _ => 0

/-- RSTAT's answer for RTAG 0. -/
def statZero (n : Nat) : Word :=
  match n with
  | 0 => BitVec.allOnes 64
  | 1 => wd (2 ^ 20)
  | _ => 0

/-- RSTAT (R224). A free entry reads 0 in every word: R224 gives only its STATE, DESIGN CHOICE, log 82. -/
def execRstat (rd rs1 rs2 : RegField) (s : State) : Out :=
  ((issue (.rstat rd rs1 rs2) { srcs := [rs1, rs2], dst := some rd } s).bnd fun v s1 =>
    let t := tagOf (v.getD 0 0)
    let n := fld (v.getD 1 0) 0 3
    unlessAnnulled s1 (if t = 0 then dieOf s1.curCore else t / 65536) fun _ =>
      finish s1 s1 rd
        (if t = 0 then statZero n
         else if (s1.req t).state = .free || (s1.req t).part != s1.partOf s1.curCore then 0
         else statWord (s1.req t) n)).outcome

end Sys2Proof.Machine
end

