-- ==== Sys2Proof/Machine/Tasks.lean ====
section
/-! DEFINITION. SPAWN, DONE, YIELD, SUSPEND and WAKE (R34, R39, R213-R220). -/

namespace Sys2Proof.Machine

/-- The CR at an address, read as the core's loads. -/
def readCr (s : State) (a : Word) : Res (List Word) := readElems s 0 (crElems a)

/-- A new CR would displace the latest CR of its EDF level rather than enter the ring (R373). -/
def displaces (s : State) (q : Nat) (cr : CR) : Bool :=
  isEdf s q (cr.prio % 4) &&
  (match latestCr (s.level q (cr.prio % 4)).entries with
    | some (_, b) => decide (cr.instant.toNat < b.instant.toNat)
    | none => false)

/-- The request SPAWN names: its own for 0, a child of its partition's, or none (R34, R215). A tag whose entry is free is no child's, DESIGN CHOICE, log 77. -/
def spawnTag (s : State) (t : Nat) : Option Nat :=
  if t = 0 then some s.mine.rtag
  else
    let q := s.req t
    if q.state != .free && q.parent = s.mine.rtag && q.part = s.partOf s.curCore then some t else none

/-- The CR of a record under a request (R215, R358). -/
def recordCr (s : State) (w : List Word) (t : Nat) : CR :=
  let r := crOf w
  { r with instant := s.instantOf t, rtag := t, prio := max (s.classOf t) r.prio }

/-- Whether the CR can go to the queue: the status if not (R53, R213). -/
def placeStatus (s : State) (q : Nat) (cr : CR) : Option Nat :=
  if !s.liveTag cr.rtag then some 3
  else if !scopeReaches s q cr.feat then some 2
  else none

/-- SPAWN and SPAWN.W. The spawner's CR stands in an EDF ring where word 1 puts it (R373). That is behind the child but for a child of a shared request, whose
instant may be all ones: R216's "directly behind the child" and R373's "never earlier" then disagree, DESIGN CHOICE, log 67. -/
def spawnOp (i : Instr) (rd rs1 rs2 : RegField) (wait : Bool) (s : State) : Out :=
  ((issue i { srcs := [rs1, rs2], dst := some rd } s).bnd fun v s1 =>
    let a := v.getD 0 0
    let tw := v.getD 1 0
    match targetQueue s1 tw with
    | none => trapRes s1 .perm tw
    | some q =>
      (readCr s1 a).bnd fun w s2 =>
      (need s2 (fld (w.getD 2 0) 29 3 = 0) .perm a).bnd fun _ s3 =>
      let named := fld (w.getD 2 0) 0 18
      match spawnTag s3 named with
      | none => trapRes s3 .perm (wd named)
      | some t =>
        let cr := recordCr s3 w t
        let l := cr.prio % 4
        let parks := wait && decide (routeQueue s3 q < 2112) && wouldRing s3 q l && !displaces s3 q cr && (placeStatus s3 q cr).isNone && decide (2 ≤ ringFree s3 q l)
        (if parks then needCarryBut s3 rd else .go () s3).bnd fun _ s3 =>
        (publish s3 .dev).bnd fun _ s4 =>
          match placeStatus s4 q cr with
          | some st => finish s1 s4 rd (wd st)
          | none =>
            if wait && decide (routeQueue s4 q < 2112) && wouldRing s4 q l && !displaces s4 q cr then
              if ringFree s4 q l < 2 then finish s1 s4 rd 1
              else
                match enqueue s4 q cr with
                | none => finish s1 s4 rd 1
                | some s5 =>
                  (finish s1 s5 rd 0).bnd fun _ s6 =>
                    match enqueueAt s6 q l (suspensionCr s6 s6.me s6.mine.pc) with
                    | some s7 => .go () (leaveSlot s7 s7.me)
                    | none => .go () s6
            else
              match enqueue s4 q cr with
              | some s5 => finish s1 s5 rd 0
              | none => finish s1 s4 rd 1).outcome

def execSpawn (rd rs1 rs2 : RegField) (s : State) : Out := spawnOp (.spawn rd rs1 rs2) rd rs1 rs2 false s
def execSpawnW (rd rs1 rs2 : RegField) (s : State) : Out := spawnOp (.spawnW rd rs1 rs2) rd rs1 rs2 true s

def execDoneTask (s : State) : Out :=
  ((issue .doneTask {} s).bnd fun _ s1 =>
    (publish s1 .dev).bnd fun _ s2 => (.go () (leaveSlot s2 s2.me) : Res Unit)).outcome

/-- The saved contexts of a core that R36 would resume now, of class at most p. -/
def readyContexts (s : State) (c p : Nat) : List Saved :=
  (s.core c).saved.filter (fun x => decide (x.cls ≤ p) && x.fault.isNone && x.yields.isNone && s.liveTag x.rtag && canRestore s c x)

/-- An eligible CR or context of class at most p waits for the core (R36, R218, R378). -/
def workWaits (s : State) (c p : Nat) : Bool :=
  !(readyContexts s c p).isEmpty || (nextCr s c (queuesOf s c) (List.range (p + 1))).isSome

def execYield (s : State) : Out :=
  ((issue .yield {} s).bnd fun _ s1 =>
    let t := s1.mine
    let q := homeQueue s1 s1.me
    if workWaits s1 s1.curCore t.prio && hasRoom s1 q (t.prio % 4) then
      (needCarry s1).bnd fun _ s2 =>
      (publish s2 .dev).bnd fun _ s3 =>
        match enqueue s3 q (suspensionCr s3 s3.me (t.pc + 4)) with
        | some s4 => (.go () (leaveSlot s4 s4.me) : Res Unit)
        | none => pass s3
    else pass s1).outcome

/-- The address of a parked CR lies in a space that accepts an AMO and is no peer window (R87, R219). -/
def parkable (p : Place) : Bool :=
  match p with
  | .peer _ _ => false
  | .global _ _ leaf _ => !leafSm leaf
  | _ => true

/-- Write the eight words as published writes, word 0 last (R219, R358, R107). -/
def writeCr (s : State) (ps : List Place) (w : List Word) : State :=
  let zs := (ps.zip w).map (fun z => (z.1, leBytes z.2.toNat 8))
  (zs.drop 1 ++ zs.take 1).foldl (fun s z => writePublished s s.curCore s.mine.rtag z.1 z.2) s

/-- SUSPEND (R219). A marked register among x1-x5 traps before the checks of the access: it is a source (R140 check 7, R187), DEDUCED, log 68. A page
that faults holds the slot, as for a load: its CR is written by published writes and the slot freed at once (R219), which a side log cannot do, DEDUCED, log 81. -/
def execSuspend (rs1 : RegField) (s : State) : Out :=
  ((issue (.suspend rs1) { srcs := [rs1] } s).bnd fun v s1 =>
    let a := v.getD 0 0
    (needCarry s1).bnd fun _ s1 =>
    (checkAccess s1 (crElems a) .store false).bnd fun ps s2 =>
    (need s2 (ps.all parkable) .attrmix a).bnd fun _ s2 =>
    (holdAccess s2 (ps.map (fun p => (p, 8))) true).bnd fun _ s3 =>
    (keepPlaces ps (publish s3 .dev)).bnd fun _ s4 =>
      let cr := suspensionCr s4 s4.me (s4.mine.pc + 4)
      let w := crWords { cr with pc := cr.pc ||| 1#64 }
      (.go () (leaveSlot (parkedUp (writeCr s4 ps w) s4.mine.rtag) s4.me) : Res Unit)).outcome

/-- Die of a place's home. -/
def placeDie (c : Nat) (p : Place) : Nat :=
  match p with
  | .global _ pa _ _ => homeDie pa
  | _ => dieOf c

/-- A request's parked count falls, and its entry may then be free (R63). -/
def unpark (s : State) (r : Nat) : State := tryFree (parkedDown s r) r

/-- WAKE (R220). A peer-window address traps ATTRMIX: no CR is parked there (R219), though R220 checks only that the space accepts an AMO, DEDUCED, log 68. The CR's
bytes are taken as they stand, in error or not: R220 has no trap for them, DESIGN CHOICE, log 78. -/
def execWake (rd rs1 rs2 : RegField) (s : State) : Out :=
  ((issue (.wake rd rs1 rs2) { srcs := [rs1, rs2], dst := some rd } s).bnd fun v s1 =>
    let a := v.getD 0 0
    let tw := v.getD 1 0
    match targetQueue s1 tw with
    | none => trapRes s1 .perm tw
    | some q =>
      (checkAccess s1 (crElems a) .atomic false).bnd fun ps s2 =>
      (need s2 (ps.all parkable) .attrmix a).bnd fun _ s2 =>
      (holdAccess s2 (ps.map (fun p => (p, 8))) true).bnd fun _ s3 =>
      if lineCapped s3 (placeOf ps) then holdIssued s3 ps .cap
      else
      (keepPlaces ps (publish s3 .dev)).bnd fun _ s4 =>
      unlessAnnulled s4 (placeDie s4.curCore (placeOf ps)) fun _ =>
        let s5 := atomicPrep s4 s4.curCore (placeOf ps)
        let w := ps.map (fun p => read64 s5.mem p.loc)
        let w0 := w.getD 0 0
        if !bit w0 0 then finish s1 s5 rd 4
        else
          let r := crOf w
          let clear := fun (s : State) => unpark (atomicWrite s s.curCore (placeOf ps) s.me (w0.toNat - 1) 8) r.rtag
          (need s5 (!(r.rtag = 0 && s5.mine.rtag != 0)) .perm a).bnd fun _ s5 =>
          if !s5.liveTag r.rtag then finish s1 (clear s5) rd 3
          else
            let cr : CR := { r with pc := wd (w0.toNat - 1), instant := s5.instantOf r.rtag, prio := max (s5.classOf r.rtag) r.prio }
            if !scopeReaches s5 q cr.feat then finish s1 s5 rd 2
            else
              match enqueue (clear s5) q cr with
              | some s6 => finish s1 s6 rd 0
              | none => finish s1 s5 rd 1).outcome

end Sys2Proof.Machine
end

