-- ==== Sys2Proof/Machine/Messages.lean ====
section
/-! DEFINITION. MSEND, MRECV and MBIND (R44, R225-R227). -/

namespace Sys2Proof.Machine

/-- The fields of consecutive registers from a field. -/
def regRun (r : RegField) (n : Nat) : List RegField := (List.range n).map (fun i => r + BitVec.ofNat 6 i)

/-- A destination word is legal: reserved bits zero, PEER only with REMOTE, and a local core of the sender's partition (R225). -/
def destOk (s : State) (w : Word) : Bool :=
  fld w 21 43 = 0 &&
  (if bit w 14 then routeOk s (fld w 15 6)
   else fld w 15 6 = 0 && s.partOf (fld w 3 11) = s.partOf s.curCore)

/-- MSEND (R44, R225, R423). Its checks come before it waits for room in the interface, DEDUCED, log 14. -/
def execMsend (rs1 rs2 : RegField) (words : BitVec 2) (s : State) : Out :=
  ((issue (.msend rs1 rs2 words) { srcs := rs1 :: regRun rs2 (words.toNat + 1) } s).bnd fun v s1 =>
    let w := v.getD 0 0
    (need s1 (destOk s1 w) .perm w).bnd fun _ s2 =>
      let remote := bit w 14
      let m : Msg := { rtag := s2.mine.rtag, words := v.tail, remote := remote, peer := 0, score := s2.curCore, sslot := s2.curSlot }
      if 8 ≤ s2.here.ni.length then waitHere s2 .interface
      else pass (sendMessage s2 s2.curCore (if remote then some (fld w 15 6) else none) (fld w 3 11) (fld w 0 3) m)).outcome

/-- Five registers receive a message: four payload words and the header (R226). -/
def receive (t : Slot) (rd : Nat) (m : Msg) : Slot :=
  ((List.range 4).foldl (fun t i => t.setX (rd + i) (m.words.getD i 0)) t).setX (rd + 4) (msgHeader m)

/-- MRECV (R226). -/
def execMrecv (rd rs1 : RegField) (s : State) : Out :=
  ((issue (.mrecv rd rs1) { srcs := [rs1] } s).bnd fun v s1 =>
    let a := v.getD 0 0
    let c := s1.curCore
    let q := s1.msgClass c a.toNat
    (need s1 (decide (a.toNat < 8) && q.mode = .bound && q.slot = s1.curSlot && q.hatch.isNone) .perm a).bnd fun _ s2 =>
    match q.queue with
    | [] => waitHere s2 .message
    | m :: r => pass ((announce (s2.setClass c a.toNat { q with queue := r }) c).modMe (fun t => receive t rd.toNat m))).outcome

/-- MBIND's status (R227). A request both invalid and busy is invalid: R227 gives no order, DESIGN CHOICE, log 69. -/
def bindStatus (q : MsgClass) (slot : Nat) (a h : Word) : Nat :=
  let mode := fld a 4 2
  if mode = 3 || bit a 3 || fld a 6 58 != 0 || (mode != 2 && h != 0) then 2
  else if q.mode = .bound && (q.slot != slot || !q.queue.isEmpty || q.hatch.isSome) then 1
  else 0

/-- A class in its new mode; its TRP stays. -/
def rebind (q : MsgClass) (slot mode : Nat) (h : Word) : MsgClass :=
  match mode with
  | 0 => { trp := q.trp }
  | 1 => { mode := .bound, slot := slot, trp := q.trp }
  | _ => { mode := .pool, handler := h &&& ~~~1#64, trp := q.trp }

/-- MBIND (R227). -/
def execMbind (rd rs1 rs2 : RegField) (s : State) : Out :=
  ((issue (.mbind rd rs1 rs2) { srcs := [rs1, rs2], dst := some rd } s).bnd fun v s1 =>
    let a := v.getD 0 0
    let h := v.getD 1 0
    let k := fld a 0 3
    let q := s1.msgClass s1.curCore k
    let st := bindStatus q s1.curSlot a h
    finish s1 (if st = 0 then s1.setClass s1.curCore k (rebind q s1.curSlot (fld a 4 2) h) else s1) rd (wd st)).outcome

end Sys2Proof.Machine
end

