-- ==== Sys2Proof/Machine/Larder.lean ====
section
/-! DEFINITION. The Larder: CLAIM, FULFIL, ABANDON, LPIN, LUNPIN and LINVAL, its waiters, and what annulment does to it (R70, R228-R233, R410). -/

namespace Sys2Proof.Machine

/-! The region (R228, R410). -/

/-- log2 of a partition's entries; 0 for no Larder. -/
def larderLog2 (s : State) (p : Nat) : Nat := fld (s.reg (plarderAddr p)) 0 5
/-- Waiters a partition's pool holds. -/
def waiterCap (s : State) (p : Nat) : Nat :=
  let w := fld (s.reg (plarderAddr p)) 56 5
  if w = 0 then 0 else 2 ^ w

/-- The set of a name among 2^(n-3). -/
def larderSet (name : BitVec 128) (n : Nat) : Nat :=
  let v := name.toNat
  (Nat.xor (Nat.xor (v % 2 ^ 32) (v / 2 ^ 32 % 2 ^ 32)) (Nat.xor (v / 2 ^ 64 % 2 ^ 32) (v / 2 ^ 96))) % 2 ^ (n - 3)

/-- Virtual address of a set. -/
def setVa (s : State) (p set : Nat) : Nat := fld (s.reg (plarderAddr p)) 16 40 * 65536 + set * 512

/-- Physical address of an address of the region, unless its page is unmapped, storage-backed, tagged or system, or holds an uncorrectable error
(R410). -/
def regionPa (s : State) (p va : Nat) : Option Nat :=
  match walk s p va with
  | .leaf _ leaf _ _ lg =>
    let base := leafPa leaf
    if leafSb leaf || leafTg leaf || leafSys leaf || s.bad.any (fun a => decide (base ≤ a) && decide (a < base + 2 ^ lg)) then none
    else some (base + va % 2 ^ lg)
  | _ => none

/-- Physical address of a set's first line. -/
def setPa (s : State) (p set : Nat) : Option Nat := regionPa s p (setVa s p set)

/-- The waiter pool's pages can be reached (R410). Which record a waiter takes is not stated, so an operation on a waiter needs the pool as a whole, DEDUCED,
log 59. -/
def poolReached (s : State) (p : Nat) : Bool :=
  let base := setVa s p 0 + 2 ^ larderLog2 s p * 64
  (List.range ((base % 65536 + 64 * waiterCap s p + 65535) / 65536)).all (fun i => (regionPa s p (base / 65536 * 65536 + 65536 * i)).isSome)

/-- Die of a name's home slice; die 0 when the region cannot be reached. -/
def larderDie (s : State) (p : Nat) (name : BitVec 128) : Nat :=
  match setPa s p (larderSet name (larderLog2 s p)) with
  | some a => homeDie a
  | none => 0

/-- The name a pair field holds. -/
def pairName (lo hi : Word) : BitVec 128 := BitVec.ofNat 128 (lo.toNat + hi.toNat * 2 ^ 64)

/-! Entries (R229). -/

def findEntry (l : Larder) (name : BitVec 128) : Option LarderEntry := l.entries.find? (fun e => e.name = name)
def dropEntry (l : Larder) (name : BitVec 128) : Larder := { l with entries := l.entries.filter (fun e => e.name != name) }
/-- Put an entry last: it is the most recently used. -/
def useEntry (l : Larder) (e : LarderEntry) : Larder := { l with entries := (l.entries.filter (fun x => x.name != e.name)) ++ [e] }
/-- Change an entry where it stands. -/
def modEntry (l : Larder) (name : BitVec 128) (f : LarderEntry → LarderEntry) : Larder :=
  { l with entries := l.entries.map (fun e => if e.name = name then f e else e) }

/-- Waiters that hold a place of the pool (R231). -/
def waitersHeld (l : Larder) : Nat := sumN (l.entries.map (fun e => e.waiters.length)) + l.stalled.length

/-! Resumption (R231). -/

/-- A CR whose registers rd and rd + 1 hold a CLAIM's result. -/
def answered (cr : CR) (rd code : Nat) (h : Word) : CR := { cr with x := setAt (setAt cr.x (rd - 1) (wd code)) rd h }

/-- A waiter resumes: its CR is enqueued, or keeps its place in the pool while its level and ring are full or an earlier one waits there. -/
def resumeWaiter (s : State) (p : Nat) (w : CR × Nat × Nat) (code : Nat) (h : Word) : State :=
  let cr := answered w.1 w.2.1 code h
  let q := w.2.2
  let l := s.larder p
  let stall := s.setLarder p { l with stalled := l.stalled ++ [(cr, q)] }
  if !s.liveTag cr.rtag then s
  else if l.stalled.any (fun x => x.2 = q && x.1.prio % 4 = cr.prio % 4) then stall
  else
    match enqueue s q cr with
    | some s1 => s1
    | none => stall

/-- Every waiter of a list resumes. -/
def resumeAll (s : State) (p : Nat) (ws : List (CR × Nat × Nat)) (code : Nat) (h : Word) : State :=
  ws.foldl (fun s w => resumeWaiter s p w code h) s

/-- The maker's role goes to the first live waiter, or the entry is FREE (R229, R231). -/
def handover (s : State) (p : Nat) (e : LarderEntry) : State :=
  match e.waiters.dropWhile (fun w => !s.liveTag w.1.rtag) with
  | [] => s.setLarder p (dropEntry (s.larder p) e.name)
  | w :: r =>
    resumeWaiter (s.setLarder p (modEntry (s.larder p) e.name (fun e => { e with maker := w.1.rtag, waiters := r }))) p w 2 0

/-- The stalled CRs that find room are enqueued, in order (R231); one whose request has left LIVE is discarded. -/
def placeStalled (s : State) (p : Nat) : List (CR × Nat) → List (CR × Nat) → State
  | [], kept => s.setLarder p { s.larder p with stalled := kept }
  | (cr, q) :: r, kept =>
    if !s.liveTag cr.rtag then placeStalled s p r kept
    else if kept.any (fun x => x.2 = q && x.1.prio % 4 = cr.prio % 4) then placeStalled s p r (kept ++ [(cr, q)])
    else
      match enqueue s q cr with
      | some s1 => placeStalled s1 p r kept
      | none => placeStalled s p r (kept ++ [(cr, q)])

/-- A stalled waiter could be enqueued now. -/
def stalledReady (s : State) (p : Nat) : Bool :=
  (s.larder p).stalled.any (fun x => !s.liveTag x.1.rtag || hasRoom s x.2 (x.1.prio % 4))

/-- Queue room has freed for waiters that were resumed while their level and ring were full (R231). -/
def execLarderDeferredEnqueue (part : Nat) (s : State) : Out :=
  eventOf (decide (part < 16)) (fun s => placeStalled s part (s.larder part).stalled []) s

/-- The annul notice of request r reaches the home slices of die d (R70): its waiters go, and where it is a maker the role passes on. -/
def larderNotice (s : State) (r d : Nat) : State :=
  s.larders.foldl (fun s l =>
    let p := l.1
    let s0 := s.setLarder p { s.larder p with stalled := (s.larder p).stalled.filter (fun x => x.1.rtag != r) }
    (s0.larder p).entries.foldl (fun s e =>
      if larderDie s p e.name != d then s
      else
        let ws := e.waiters.filter (fun w => w.1.rtag != r)
        let s1 := s.setLarder p (modEntry (s.larder p) e.name (fun e => { e with waiters := ws }))
        if e.state = .making && e.maker = r then handover s1 p { e with waiters := ws } else s1) s0) s

/-! The instructions. -/

/-- The entry is MAKING and the slot's request is its maker (R232). -/
def ownsEntry (s : State) (name : BitVec 128) : Option LarderEntry :=
  match findEntry (s.larder (s.partOf s.curCore)) name with
  | some e => if e.state = .making && e.maker = s.mine.rtag then some e else none
  | none => none

/-- The operation of the executing slot takes or ends places in the waiter pool: `ends` which entry's waiters it resumes, none for a CLAIM that joins. -/
def usesPool (s : State) (name : BitVec 128) (ends : Option (State → BitVec 128 → Option LarderEntry)) : Bool :=
  match ends with
  | some f => (match f s name with | some e => !e.waiters.isEmpty | none => false)
  | none => (match findEntry (s.larder (s.partOf s.curCore)) name with | some e => e.state = .making | none => false)

/-- The address part shared by the six: the name, then LARDER if its set or the pool it uses cannot be reached; with no Larder, `none` (R230); an operation of
an annulled request is dropped once its notice is known at the slice (R64); one whose request would exceed the cluster's cap waits (R416). `rel` performs
FULFIL's publish first. `f` is given the state as issued, so that a result that cannot be pushed leaves nothing done (R140). -/
def larderOp (i : Instr) (k : Issue) (rel : Bool) (ends : Option (State → BitVec 128 → Option LarderEntry))
    (f : State → State → List Word → Option (BitVec 128) → Res Unit) (s : State) : Out :=
  ((issue i { k with level := 3 } s).bnd fun v s1 =>
    let name := pairName (v.getD 0 0) (v.getD 1 0)
    let p := s1.partOf s1.curCore
    let n := larderLog2 s1 p
    let set := larderSet name n
    (need s1 (n = 0 || ((setPa s1 p set).isSome && (!usesPool s1 name ends || poolReached s1 p))) .larder (wd set)).bnd fun _ s2 =>
    if n != 0 && capReached s2 (clusterOf s2.curCore) then waitHere s2 .cap
    else
    (if rel then publish s2 .dev else .go () s2).bnd fun _ s3 =>
    if n = 0 then f s2 s3 v none
    else unlessAnnulled s3 (larderDie s3 p name) fun _ => f s2 s3 v (some name)).outcome

/-- A name pair's fields. -/
def pairSrcs (rs1 : RegField) : List RegField := [rs1, rs1 + 1]

/-- CLAIM's answer in its pair. -/
def claimAnswer (s : State) (rd : RegField) (code : Nat) (h : Word) : Res Unit :=
  pass (s.modMe (fun t => (t.setX rd.toNat (wd code)).setX (rd.toNat + 1) h))

/-- A CLAIM joins a MAKING entry's waiters by a voluntary suspension (R39, R230). -/
def joinWaiters (s : State) (p : Nat) (e : LarderEntry) (rd : RegField) : Res Unit :=
  (needCarry s).bnd fun _ s1 =>
  (publish s1 .dev).bnd fun _ s2 =>
    let w := (suspensionCr s2 s2.me (s2.mine.pc + 4), rd.toNat, homeQueue s2 s2.me)
    .go () (leaveSlot (s2.setLarder p (modEntry (s2.larder p) e.name (fun e => { e with waiters := e.waiters ++ [w] }))) s2.me)

/-- The entry a new name may take in its set (R229): a FREE one, or the least recently used of those READY and unpinned in a full set. -/
def claimPlace (l : Larder) (name : BitVec 128) (n : Nat) : Option Larder :=
  let inSet := l.entries.filter (fun e => larderSet e.name n = larderSet name n)
  if inSet.length < 8 then some l
  else (inSet.find? (fun e => e.state = .ready && e.pins = 0)).map (fun e => dropEntry l e.name)

def execClaim (rd rs1 : RegField) (s : State) : Out :=
  larderOp (.claim rd rs1) { srcs := pairSrcs rs1 } false none (fun _ s _ name =>
    match name with
    | none => claimAnswer s rd 4 0
    | some name =>
      let p := s.partOf s.curCore
      let l := s.larder p
      match findEntry l name with
      | some e =>
        match e.state with
        | .ready => (claimAnswer (s.setLarder p (useEntry l e)) rd 0 e.handle).bnd fun _ s1 => .go () (refresh s1 .dev)
        | .making => if waitersHeld l < waiterCap s p then joinWaiters s p e rd else claimAnswer s rd 3 0
      | none =>
        match claimPlace l name (larderLog2 s p) with
        | some l1 =>
          let e : LarderEntry := { name := name, state := .making, maker := s.mine.rtag, handle := 0, pins := 0, waiters := [] }
          claimAnswer (s.setLarder p { l1 with entries := l1.entries ++ [e] }) rd 1 0
        | none => claimAnswer s rd 3 0) s

def execFulfil (rd rs1 rs2 : RegField) (s : State) : Out :=
  larderOp (.fulfil rd rs1 rs2) { srcs := pairSrcs rs1 ++ [rs2], dst := some rd } true (some ownsEntry) (fun s0 s v name =>
    let p := s.partOf s.curCore
    match name.bind (ownsEntry s) with
    | some e =>
      let h := v.getD 2 0
      let s1 := s.setLarder p (useEntry (s.larder p) { e with state := .ready, handle := h, waiters := [] })
      finish s0 (resumeAll s1 p e.waiters 0 h) rd 0
    | none => finish s0 s rd 1) s

def execAbandon (rd rs1 : RegField) (s : State) : Out :=
  larderOp (.abandon rd rs1) { srcs := pairSrcs rs1, dst := some rd } false (some ownsEntry) (fun s0 s _ name =>
    match name.bind (ownsEntry s) with
    | some e => finish s0 (handover s (s.partOf s.curCore) e) rd 0
    | none => finish s0 s rd 1) s

/-- The READY entry of a name. -/
def readyEntry (s : State) (name : BitVec 128) : Option LarderEntry :=
  match findEntry (s.larder (s.partOf s.curCore)) name with
  | some e => if e.state = .ready then some e else none
  | none => none

/-- Set a name's pin count. -/
def setPins (s : State) (name : BitVec 128) (n : Nat) : State :=
  let p := s.partOf s.curCore
  s.setLarder p (modEntry (s.larder p) name (fun e => { e with pins := n }))

def execLpin (rd rs1 : RegField) (s : State) : Out :=
  larderOp (.lpin rd rs1) { srcs := pairSrcs rs1, dst := some rd } false (some readyEntry) (fun s0 s _ name =>
    match name.bind (readyEntry s) with
    | some e => if e.pins = 65535 then finish s0 s rd 2 else finish s0 (setPins s e.name (e.pins + 1)) rd 0
    | none => finish s0 s rd 1) s

def execLunpin (rd rs1 : RegField) (s : State) : Out :=
  larderOp (.lunpin rd rs1) { srcs := pairSrcs rs1, dst := some rd } false (some readyEntry) (fun s0 s _ name =>
    match name.bind (readyEntry s) with
    | some e => if e.pins = 0 then finish s0 s rd 1 else finish s0 (setPins s e.name (e.pins - 1)) rd 0
    | none => finish s0 s rd 1) s

def execLinval (rd rs1 : RegField) (s : State) : Out :=
  larderOp (.linval rd rs1) { srcs := pairSrcs rs1, dst := some rd } false (some (fun s n => findEntry (s.larder (s.partOf s.curCore)) n)) (fun s0 s _ name =>
    let p := s.partOf s.curCore
    match name.bind (findEntry (s.larder p)) with
    | some e =>
      match e.state with
      | .ready => if e.pins = 0 then finish s0 (s.setLarder p (dropEntry (s.larder p) e.name)) rd 0 else finish s0 s rd 2
      | .making => finish s0 (resumeAll (s.setLarder p (dropEntry (s.larder p) e.name)) p e.waiters 4 0) rd 0
    | none => finish s0 s rd 1) s

end Sys2Proof.Machine
end

