-- ==== Sys2Proof/Machine/Hatches.lean ====
section
/-! DEFINITION. HBIND and HSTAT (R234, R235). -/

namespace Sys2Proof.Machine

/-- Bits of a kind's argument (R234). -/
def kindArgBits (kind : Nat) : Nat :=
  match kind with
  | 1 => 8
  | 4 => 1
  | 5 => 2
  | 7 => 3
  | _ => 0

/-- The request is invalid: stray bits, or a SLOTQ that names the executing slot nowhere. -/
def bindInvalid (slot : Nat) (a w : Word) : Bool :=
  let kind := fld a 4 3
  fld a 7 57 != 0 || decide (2 ^ kindArgBits kind ≤ w.toNat) ||
  (kind = 1 && fld w 0 4 != slot && fld w 4 4 != slot)

/-- The Hatch's binding names a slot. -/
def Hatch.names (h : Hatch) (slot : Nat) : Bool := h.slotA = slot || (h.kind = 1 && h.slotB = slot)

/-- Some other slot's waiting instruction has popped an entry that would return to the Hatch if it ended (R138). -/
def poppedAway (s : State) (h : Nat) : Bool :=
  (slotsOf s.curCore).any (fun g => g != s.me && (s.slot g).held.any (fun x => x.1 = h))

/-- The Hatch, or the class, is busy. -/
def bindBusy (s : State) (a w : Word) : Bool :=
  let h := fld a 0 4
  let q := s.hatch s.curCore h
  q.count != 0 || q.resv != 0 || poppedAway s h || (q.kind != 0 && !q.names s.curSlot) ||
  (fld a 4 3 = 7 && (s.msgClass s.curCore (fld w 0 3)).mode != .off) ||
  (q.kind = 7 && !(s.msgClass s.curCore q.arg).queue.isEmpty)

/-- Make the binding: a class bound through the Hatch before returns to OFF, one bound now is BOUND to the executing slot through it. -/
def bindHatch (s : State) (a w : Word) : State :=
  let c := s.curCore
  let h := fld a 0 4
  let kind := fld a 4 3
  let q := s.hatch c h
  let s1 := if q.kind = 7 then s.setClass c q.arg { trp := (s.msgClass c q.arg).trp } else s
  let new : Hatch :=
    if kind = 0 then {}
    else if kind = 1 then { kind := 1, slotA := fld w 0 4, slotB := fld w 4 4, arg := w.toNat }
    else { kind := kind, slotA := s.curSlot, arg := w.toNat }
  let s2 := s1.setHatch c h new
  if kind = 7 then
    s2.setClass c (fld w 0 3) { mode := .bound, slot := s.curSlot, hatch := some h, trp := (s2.msgClass c (fld w 0 3)).trp }
  else s2

/-- HBIND (R234). A request both invalid and busy is invalid: R234 gives no order, DESIGN CHOICE, log 69. -/
def execHbind (rd rs1 rs2 : RegField) (s : State) : Out :=
  ((issue (.hbind rd rs1 rs2) { srcs := [rs1, rs2], dst := some rd } s).bnd fun v s1 =>
    let a := v.getD 0 0
    let w := v.getD 1 0
    if bindInvalid s1.curSlot a w then finish s1 s1 rd 2
    else if bindBusy s1 a w then finish s1 s1 rd 1
    else finish s1 (bindHatch s1 a w) rd 0).outcome

/-- HSTAT's word (R235). -/
def hatchStat (h : Hatch) : Word :=
  wd (at_ (if h.kind = 1 then h.slotB else 0) 16 + at_ h.slotA 12 + at_ h.kind 8 + at_ h.resv 4 + h.count)

def execHstat (rd rs1 : RegField) (s : State) : Out :=
  ((issue (.hstat rd rs1) { srcs := [rs1], dst := some rd } s).bnd fun v s1 =>
    let a := v.getD 0 0
    finish s1 s1 rd (if fld a 4 60 = 0 then hatchStat (s1.hatch s1.curCore (fld a 0 4)) else BitVec.allOnes 64)).outcome

end Sys2Proof.Machine
end

