-- ==== Sys2Proof/Machine/Csr.lean ====
section
/-! DEFINITION. The CSRs and their instructions (R76-R80, R345-R348), with the writes that act on a core, tile or die. -/

namespace Sys2Proof.Machine

/-! Tile operating points (R412, R413). -/

/-- The level a tile should run at: its cores' highest request, under TILECAP. -/
def targetLevel (s : State) (t : Nat) : Nat :=
  min ((tileCores t).foldl (fun m c => max m (s.core c).freqreq.toNat) 0) (fld (s.reg (tilecapAddr t)) 0 4)

/-- Voltage of a level, in 12.5 mV steps above 0.6 V. -/
def levelVoltage (l : Nat) : Nat := 2 * l

/-- A tile with no step under way takes the next one toward its target, or settles there; on the way its clock is the lower of the settled level's and the
target's (R413, R420). -/
def retarget (s : State) (t : Nat) : State :=
  let g := targetLevel s t
  s.modTile t (fun k =>
    match k.moving with
    | some _ => { k with level := min k.settled g }
    | none =>
      if k.voltage = levelVoltage g then { k with level := g, settled := g }
      else { k with level := min k.settled g, moving := some (decide (k.voltage < levelVoltage g), s.time + 100) })

/-! Reading (R346, R347). -/

/-- MSGCFG. -/
def msgcfgWord (k : Core) : Word :=
  wd (sumN ((List.range 8).map (fun c =>
    let q : MsgClass := look {} c k.classes
    at_ (at_ (b2n q.trp) 7 + at_ (b2n q.hatch.isSome) 6 + at_ (q.slot % 16) 2
      + (match q.mode with | .off => 0 | .bound => 1 | .pool => 2)) (8 * c))))

/-- HCFG. -/
def hcfgWord (k : Core) : Word :=
  wd (sumN ((List.range 16).map (fun h => at_ ((look ({} : Hatch) h k.hatches).kind % 8) (4 * h))))

/-- FAULTSTAT of a die. -/
def faultstatWord (b : FaultBuffer) : Word := wd (at_ (b2n b.ovf) 32 + at_ (b.held.length % 65536) 16 + b.entries.length)

/-- CLOMAP. -/
def clomapWord (k : Core) : Word :=
  let bits := fun (l : List Nat) (n : Nat) => sumN (((List.range n).filter l.contains).map (fun i => 2 ^ i))
  wd (at_ (bits (usedUnits k) 15) 19 + at_ (b2n (!freeAPlace k)) 18 + at_ (bits (k.saved.filterMap (fun x => x.vplace)) 2) 16
    + bits (k.saved.filterMap (fun x => x.place)) 16)

/-- CSR n as slot g reads it. -/
def csrRead (s : State) (g n : Nat) : Word :=
  let c := coreOf g
  let k := s.core c
  let t := s.slot g
  match n with
  | 0x000 => wd s.time
  | 0x001 => t.expiry
  | 0x002 => wd t.rtag
  | 0x003 => wd t.prio
  | 0x004 => wd (g % 16)
  | 0x005 => wd c
  | 0x006 => wd k.featmask.toNat
  | 0x007 => wd (at_ k.asid.toNat 4 + k.part.toNat)
  | 0x008 => statusWord k t
  | 0x010 => vgrantWord t
  | 0x011 => wd t.vtype.toNat
  | 0x012 => wd t.vflags.toNat
  | 0x013 => wd t.waitlim.toNat
  | 0x014 => wd t.budget.toNat
  | 0x015 => wd t.oovdraft.toNat
  | 0x016 => t.tvec
  | 0x017 => wd t.trapcause.toNat
  | 0x018 => t.trappc
  | 0x019 => t.trapval
  | 0x020 => t.lprot0
  | 0x021 => t.lprot1
  | 0x022 => t.lprot2
  | 0x023 => t.lprot3
  | 0x028 => wd k.lmsplit.toNat
  | 0x029 => wd k.lmshare.toNat
  | 0x02A => wd (b2n (s.tile (tileOf c)).lmgroup)
  | 0x02B => wd (look 0 (dieOf c) s.dsplit)
  | 0x030 => msgcfgWord k
  | 0x031 => hcfgWord k
  | 0x032 => wd k.freqreq.toNat
  | 0x033 => wd ((s.cluster (clusterOf c)).memcap % 256)
  | 0x034 => faultstatWord (s.faultBuf (dieOf c))
  | 0x040 => k.stvec
  | 0x041 => wd t.dcause.toNat
  | 0x042 => t.dpc
  | 0x043 => t.dval
  | 0x044 => t.sscratch
  | 0x045 => k.timercmp
  | 0x046 => wd k.msgpend.toNat
  | 0x048 => k.ptempl0
  | 0x049 => k.ptempl1
  | 0x04A => k.ptempl2
  | 0x04B => k.ptempl3
  | 0x04C => k.clspill
  | 0x04D => clomapWord k
  | _ => 0

/-- User mode may access CSR n (R346). -/
def csrUser (n : Nat) (writes dh : Bool) : Bool :=
  if n ≤ 0x008 then !writes
  else
    match n with
    | 0x010 => true
    | 0x011 => true
    | 0x012 => true
    | 0x013 => true
    | 0x014 => !writes || dh
    | 0x015 => true
    | 0x016 => true
    | 0x017 => dh
    | 0x018 => dh
    | 0x019 => dh
    | _ => !writes && ((decide (0x020 ≤ n) && decide (n ≤ 0x02B)) || (decide (0x030 ≤ n) && decide (n ≤ 0x033)))

/-! Writing. -/

/-- The bits of a protection entry that are not reserved (R80). -/
def lprotMask : Word := 0xFC0FFFFFFFFFFFFF#64
/-- The bits of CLSPILL that are not reserved. -/
def clspillMask : Word := 0x0000000F07FFF000#64
/-- An address register's value: bit 0 is reserved. -/
def even (v : Word) : Word := v &&& ~~~1#64

/-- STATUS fields of a slot. -/
def writeStatus (t : Slot) (v : Word) : Slot :=
  { t with nest := bit v 7, pie := bit v 6, ie := bit v 5, pdh := bit v 4, pmode := bit v 3, dh := bit v 2 }

/-- A write of SCHED by slot g: only slot 0's has effect (R376). -/
def writeSched (s : State) (g : Nat) (v : Bool) : State :=
  if g % 16 = 0 then s.modCore (coreOf g) (fun k => { k with sched := v }) else s

/-- A write of VGRANT (R237): VL up to GRANT, LOST cleared by a 1. -/
def writeVgrant (t : Slot) (v : Word) : Slot := { t with vl := min (fld v 0 8) t.grant, lost := t.lost && !bit v 16 }

/-- A write of BUDGETLEFT puts a budget in force when nonzero (R381). A zero written ends the charge without a trap. -/
def writeBudget (t : Slot) (v : Word) : Slot := { t with budget := BitVec.ofNat 32 (fld v 0 32), inForce := fld v 0 32 != 0 }

/-- A write of TIMERCMP clears a pending TIMER (R354). -/
def writeTimercmp (k : Core) (v : Word) : Core := { k with timercmp := v, timer := false }

/-- A write of FEATMASK: a value above the current one is ignored. -/
def writeFeatmask (k : Core) (v : Word) : Core :=
  if fld v 0 8 ≤ k.featmask.toNat then { k with featmask := BitVec.ofNat 8 (fld v 0 8) } else k

/-- A write of FREQREQ (R412). -/
def writeFreqreq (s : State) (c : Nat) (v : Word) : State :=
  retarget (s.modCore c (fun k => { k with freqreq := BitVec.ofNat 4 (fld v 0 4) })) (tileOf c)

/-- The TRP bits of a core's classes. -/
def writeMsgcfg (s : State) (c : Nat) (v : Word) : State :=
  (List.range 8).foldl (fun s k => s.setClass c k { s.msgClass c k with trp := bit v (8 * k + 7) }) s

/-- n bytes from a location become zero. -/
def zeroRange (s : State) (loc n : Nat) : State :=
  { s with mem := s.mem.filter (fun x => !(decide (loc ≤ x.1) && decide (x.1 < loc + n))) }

/-- Publish and refresh core c (R78, R79). -/
def flushCore (s : State) (c : Nat) : State := refreshCore (publishLines s c) c

/-- An LMSPLIT write may act now: no scoreboard entry, and no store whose publication waits (R78). -/
def lmsplitReady (s : State) (c : Nat) : Bool := (s.core c).board.isEmpty && (s.core c).sideLog.isEmpty

/-- A core's L1 and its part of the pool hold no line any more; what it held coherently it has seen. -/
def emptyL1 (s : State) (c : Nat) : State :=
  let s1 := s.modCore c (fun k => { k with l1 := [], coherent := [], seen := noteBytes k.seen (k.coherent.flatMap lineBytes) s.history.length })
  if (s.tile (tileOf c)).pool.isEmpty then s1 else s1.modTile (tileOf c) (fun t => { t with pool := t.pool.filter (fun x => x.1 != c) })

/-- A write of LMSPLIT: published and refreshed, the units that change role zeroed; 9-15 is ignored. -/
def setLmsplit (s : State) (c : Nat) (v : Word) : State :=
  let n := fld v 0 4
  let o := (s.core c).lmsplit.toNat
  if 8 < n then s
  else
    (zeroRange (emptyL1 (flushCore s c) c) (locScratch c (min n o * 32768)) ((max n o - min n o) * 32768)).modCore c
      (fun k => { k with lmsplit := BitVec.ofNat 4 n })

/-- The cores of core c's cluster whose copy does not yet hold its new exposed size (R77). -/
def copiesOld (s : State) (c : Nat) : List Nat := (clusterCores (clusterOf c)).filter (fun d => !(s.core d).csmCopy.any (fun x => x.1 = c))

/-- No copy holds a size of core c that is not yet complete. -/
def clearCopies (s : State) (c : Nat) : State :=
  (clusterCores (clusterOf c)).foldl (fun s d =>
    if (s.core d).csmCopy.any (fun x => x.1 = c) then s.modCore d (fun k => { k with csmCopy := drop c k.csmCopy }) else s) s

/-- A write of LMSHARE is complete: every copy holds the new size (R77). -/
def setLmshare (s : State) (c : Nat) (v : Word) : State :=
  (clearCopies s c).modCore c (fun k => { k with lmshare := BitVec.ofNat 4 (fld v 0 4) })

/-- A write of LMSHARE by the executing slot (R77): one copy after another takes the new size, in an order of the device's choice, and the slot waits until all
have. A second write of the core's waits for the first. -/
def shareWrite (s : State) (v : Word) : Res Unit :=
  let c := s.curCore
  let old := copiesOld s c
  if s.mine.wait != some .share && decide (old.length < 32) then waitHere s .turn
  else
    match old with
    | [] => .go () (setLmshare s c v)
    | d :: r =>
      let (n, s1) := s.fresh
      let x := (d :: r).getD (Config.pick n % (r.length + 1)) d
      waitHere (s1.modCore x (fun k => { k with csmCopy := put c (exposed { s.core c with lmshare := BitVec.ofNat 4 (fld v 0 4) }) k.csmCopy })) .share

/-- Every core of the tile can publish now. -/
def lmgroupReady (s : State) (t : Nat) : Bool := (tileCores t).all (fun c => (s.core c).sideLog.isEmpty)

/-- A write of LMGROUP: all four cores publish and refresh first (R79). -/
def setLmgroup (s : State) (t : Nat) (v : Word) : State :=
  ((tileCores t).foldl flushCore s).modTile t (fun k => { k with lmgroup := bit v 0 })

/-- A write of DSPLIT: the die scratchpad units that change role are zeroed (R75, R78). -/
def setDsplit (s : State) (d : Nat) (v : Word) : State :=
  let n := fld v 0 3
  let o := look 0 d s.dsplit
  let s1 := zeroRange s (locDie d (min n o * 128 * 131072)) ((max n o - min n o) * 128 * 131072)
  { s1 with dsplit := put d n s1.dsplit }

/-- Write CSR n of the executing slot; a write of LMSPLIT, LMSHARE or LMGROUP may have to wait. PTEMPL0-3 ignore a supervisor's write: only firmware writes them
(R405), DEDUCED, log 60. -/
def csrWrite (s : State) (n : Nat) (v : Word) : Res Unit :=
  let c := s.curCore
  let slot := fun (f : Slot → Slot) => (.go () (s.modMe f) : Res Unit)
  let core := fun (f : Core → Core) => (.go () (s.modCore c f) : Res Unit)
  match n with
  | 0x006 => core (fun k => writeFeatmask k v)
  | 0x008 => .go () ((writeSched (s.modMe (fun t => writeStatus t v)) s.me (bit v 9)).modCore c (fun k => { k with an := bit v 8 }))
  | 0x010 => slot (fun t => writeVgrant t v)
  | 0x011 => slot (fun t => { t with vtype := BitVec.ofNat 3 (fld v 0 3) })
  | 0x012 => slot (fun t => { t with vflags := BitVec.ofNat 5 (fld v 0 5) })
  | 0x013 => slot (fun t => { t with waitlim := BitVec.ofNat 32 (fld v 0 32) })
  | 0x014 => slot (fun t => writeBudget t v)
  | 0x015 => slot (fun t => { t with oovdraft := BitVec.ofNat 32 (fld v 0 32) })
  | 0x016 => slot (fun t => { t with tvec := even v })
  | 0x017 => slot (fun t => { t with trapcause := BitVec.ofNat 8 (fld v 0 8) })
  | 0x018 => slot (fun t => { t with trappc := even v })
  | 0x019 => slot (fun t => { t with trapval := v })
  | 0x020 => slot (fun t => { t with lprot0 := v &&& lprotMask })
  | 0x021 => slot (fun t => { t with lprot1 := v &&& lprotMask })
  | 0x022 => slot (fun t => { t with lprot2 := v &&& lprotMask })
  | 0x023 => slot (fun t => { t with lprot3 := v &&& lprotMask })
  | 0x028 =>
    if 8 < fld v 0 4 then .go () s
    else if (s.core c).board.isEmpty then (publish s .dev).bnd fun _ s1 => .go () (setLmsplit s1 c v)
    else waitHere s .board
  | 0x029 => shareWrite s v
  | 0x02A => if lmgroupReady s (tileOf c) then .go () (setLmgroup s (tileOf c) v) else waitHere s .turn
  | 0x02B => .go () (setDsplit s (dieOf c) v)
  | 0x030 => .go () (writeMsgcfg s c v)
  | 0x032 => .go () (writeFreqreq s c v)
  | 0x034 => .go () (if bit v 32 then s.setFaultBuf (dieOf c) { s.faultBuf (dieOf c) with ovf := false } else s)
  | 0x040 => core (fun k => { k with stvec := even v })
  | 0x041 => slot (fun t => { t with dcause := BitVec.ofNat 8 (fld v 0 8) })
  | 0x042 => slot (fun t => { t with dpc := even v })
  | 0x043 => slot (fun t => { t with dval := v })
  | 0x044 => slot (fun t => { t with sscratch := v })
  | 0x045 => core (fun k => writeTimercmp k v)
  | 0x046 => core (fun k => { k with msgpend := k.msgpend &&& ~~~(BitVec.ofNat 8 (fld v 0 8)) })
  | 0x04C => .go () (moveOne (s.modCore c (fun k => { k with clspill := v &&& clspillMask })) c)
  | _ => .go () s

/-! The instructions. -/

/-- The result can be taken now: a write of LMSHARE begins and goes on only while its old value can be, and one that traps or waits instead has written
nothing. -/
def shareResult (s : State) (n : Nat) (rd : RegField) (old : Word) : Res Unit :=
  if n != 0x029 then .go () s
  else
    match finish s s rd old with
    | .go _ _ => .go () s
    | .stop s1 => .stop (if s.mine.wait = some .share then clearCopies s1 s.curCore else s1)

/-- A CSR instruction (R345): `f` gives the new value from the old one and rs1's, for one that writes. -/
def csrOp (i : Instr) (rd : RegField) (src : Option RegField) (csr : BitVec 11) (f : Word → Word → Word) (s : State) : Out :=
  let n := csr.toNat
  ((issue i { sup := !csrUser n src.isSome s.mine.dh, srcs := src.toList, dst := some rd } s).bnd fun v s1 =>
    let old := csrRead s1 s1.me n
    (match src with
      | some _ => (shareResult s1 n rd old).bnd fun _ s1 => csrWrite s1 n (f old (v.getD 0 0))
      | none => .go () s1).bnd fun _ s2 =>
    finish s1 s2 rd old).outcome

def execCsrr (rd : RegField) (csr : BitVec 11) (s : State) : Out := csrOp (.csrr rd csr) rd none csr (fun o _ => o) s
def execCsrw (rd rs1 : RegField) (csr : BitVec 11) (s : State) : Out := csrOp (.csrw rd rs1 csr) rd (some rs1) csr (fun _ v => v) s
def execCsrset (rd rs1 : RegField) (csr : BitVec 11) (s : State) : Out :=
  csrOp (.csrset rd rs1 csr) rd (if rs1 = 0#6 then none else some rs1) csr (fun o v => o ||| v) s
def execCsrclr (rd rs1 : RegField) (csr : BitVec 11) (s : State) : Out :=
  csrOp (.csrclr rd rs1 csr) rd (if rs1 = 0#6 then none else some rs1) csr (fun o v => o &&& ~~~v) s

/-! The writes as they are performed at their owner. -/

def execStatusSchedWrite (g : Nat) (value : Bool) (s : State) : Out := eventOf (decide (g < 32768)) (fun s => noteConfig (writeSched s g value) (csrSetting (coreOf g) 8) (wd (at_ (b2n value) 9))) s
def execTimercmpWrite (core : Nat) (value : Word) (s : State) : Out :=
  eventOf (decide (core < 2048)) (fun s => s.modCore core (fun k => writeTimercmp k value)) s
def execLmsplitWrite (core : Nat) (value : Word) (s : State) : Out :=
  eventOf (decide (core < 2048)) (fun s => if lmsplitReady s core then noteConfig (setLmsplit s core value) (csrSetting core 0x28) value else s) s
def execLmshareWrite (core : Nat) (value : Word) (s : State) : Out := eventOf (decide (core < 2048)) (fun s => noteConfig (setLmshare s core value) (csrSetting core 0x29) value) s
def execLmgroupWrite (tile : Nat) (value : Word) (s : State) : Out :=
  eventOf (decide (tile < 512)) (fun s =>
    if lmgroupReady s tile then noteConfig (setLmgroup s tile value) (csrSetting ((tileCores tile).headD 0) 0x2A) value else s) s
def execDsplitWrite (die : Nat) (value : Word) (s : State) : Out := eventOf (decide (die < 4)) (fun s => noteConfig (setDsplit s die value) (csrSetting (512 * die) 0x2B) value) s
def execVgrantWrite (g : Nat) (value : Word) (s : State) : Out :=
  eventOf (decide (g < 32768)) (fun s => s.modSlot g (fun t => writeVgrant t value)) s
def execFreqreqWrite (core : Nat) (value : Word) (s : State) : Out := eventOf (decide (core < 2048)) (fun s => writeFreqreq s core value) s
def execFeatmaskWrite (core : Nat) (value : Word) (s : State) : Out :=
  eventOf (decide (core < 2048)) (fun s => noteConfig (s.modCore core (fun k => writeFeatmask k value)) (csrSetting core 6) value) s
def execBudgetleftWrite (g : Nat) (value : Word) (s : State) : Out :=
  eventOf (decide (g < 32768)) (fun s => s.modSlot g (fun t => writeBudget t value)) s

end Sys2Proof.Machine
end

