-- ==== Sys2Proof/Machine/System.lean ====
section
/-! DEFINITION. The system instructions (R350-R364): BRK, TRAP, ERET, RQENQ, RQDEQ, SLOTCTL, CLOSAVE, CLOREST, TLBINV, CFLUSH, HALT, and the
asynchronous traps. -/

namespace Sys2Proof.Machine

/-! Traps on purpose, and the return (R352, R356). -/

def execBrk (s : State) : Out := ((issue .brk {} s).bnd fun _ s1 => (trapRes s1 .brk 0 : Res Unit)).outcome

def execTrapImm (imm : BitVec 13) (s : State) : Out :=
  ((issue (.trapImm imm) {} s).bnd fun _ s1 =>
    (.stop (trapAt s1 s1.me .trapi (s1.mine.pc + 4) (imm.setWidth 64)) : Res Unit)).outcome

def execEret (s : State) : Out :=
  ((issue .eret { sup := true } s).bnd fun _ s1 =>
    (.go () (s1.modMe (fun t => { eretSlot t with wait := none, state := .ready, inst := none, read := [] })) : Res Unit)).outcome

/-! Queues (R357, R358). -/

/-- A nonzero tag that is allocated to another partition. -/
def foreignTag (s : State) (t : Nat) : Bool := t != 0 && (s.req t).state != .free && (s.req t).part != s.partOf s.curCore

def execRqenq (rd rs1 rs2 : RegField) (s : State) : Out :=
  ((issue (.rqenq rd rs1 rs2) { sup := true, srcs := [rs1, rs2], dst := some rd } s).bnd fun v s1 =>
    let a := v.getD 0 0
    let tw := v.getD 1 0
    match targetQueue s1 tw with
    | none => trapRes s1 .perm tw
    | some q =>
      (readCr s1 a).bnd fun w s2 =>
      (need s2 (fld (w.getD 2 0) 29 3 = 0) .perm a).bnd fun _ s3 =>
      let t := fld (w.getD 2 0) 0 18
      (need s3 (!foreignTag s3 t) .perm (wd t)).bnd fun _ s3 =>
      (publish s3 .dev).bnd fun _ s4 =>
        let cr := recordCr s4 w t
        match placeStatus s4 q cr with
        | some st => finish s1 s4 rd (wd st)
        | none =>
          match enqueue s4 q cr with
          | some s5 => finish s1 s5 rd 0
          | none => finish s1 s4 rd 1).outcome

/-- The queue RQDEQ's scope names. -/
def scopeQueue (s : State) (scope : Nat) : Nat := (queuesOf s s.curCore).getD scope 0

/-- The levels a mask names, most urgent first. -/
def maskLevels (m : Nat) : List Nat := (List.range 4).filter (fun p => m / 2 ^ p % 2 = 1)

def execRqdeq (rd rs1 rs2 : RegField) (s : State) : Out :=
  ((issue (.rqdeq rd rs1 rs2) { sup := true, srcs := [rs1, rs2], dst := some rd } s).bnd fun v s1 =>
    let a := v.getD 0 0
    let w := v.getD 1 0
    if fld w 6 58 != 0 || fld w 4 2 = 3 then finish s1 s1 rd 8
    else
      (checkAccess s1 (crElems a) .store false).bnd fun ps s2 =>
      (holdAccess s2 (ps.map (fun p => (p, 8))) true).bnd fun _ s3 =>
        let q := scopeQueue s3 (fld w 4 2)
        let ls := maskLevels (fld w 0 4)
        let s4 := ls.foldl (fun s l => purge s q l) s3
        match nextCr s4 s4.curCore [q] ls with
        | none => finish s1 s4 rd 5
        | some (q, l, i, cr) => finish s1 (writeCr (takeCr s4 q l i) ps (crWords cr)) rd 0).outcome

/-! SLOTCTL (R359). The operation is rs1's; a word decodes to the form that the register's value names (`resolve`, Machine/Completion.lean). -/

/-- The shared form: INVALID for a stray bit or operation 7; otherwise the operation on the named slot. -/
def slotctl (i : Instr) (rd rs1 rs2 : RegField) (op : State → Nat → Word → (State → Nat → Nat → Res Unit) → Res Unit) (s : State) : Out :=
  ((issue i { sup := true, srcs := [rs1, rs2], dst := some rd } s).bnd fun v s1 =>
    let a := v.getD 0 0
    let answer := fun (s : State) (st place : Nat) => finish s1 s rd (wd (st + at_ place 8))
    if fld a 7 57 != 0 || fld a 4 3 = 7 then answer s1 8 0
    else op s1 (s1.curCore * 16 + fld a 0 4) (v.getD 1 0) answer).outcome

/-- A slot's state as QUERY reports it: one that publishes behind its core's side log waits as if fault-held (R398). -/
def slotCode (s : State) (g : Nat) : Nat :=
  if isVictim s g then 5
  else if g = s.me then 1
  else if (s.slot g).wait = some .publish && !logDone (s.core (coreOf g)) ((s.slot g).awaits.getD s.nextId) then 3
  else
    match (s.slot g).state with
    | .free => 0
    | .ready => 1
    | .waiting => 2
    | .faultHeld => 3
    | .halted => 4

def execSlotctlQuery (rd rs1 rs2 : RegField) (s : State) : Out :=
  slotctl (.slotctlQuery rd rs1 rs2) rd rs1 rs2 (fun s g _ answer =>
    let t := s.slot g
    answer s 0 (slotCode s g + at_ (b2n t.mode) 3 + at_ (t.rtag % 2 ^ 18) 4 + at_ (t.prio % 4) 22)) s

/-- START's status for a CR (R33, R35). -/
def startStatus (s : State) (cr : CR) : Nat :=
  if foreignTag s cr.rtag then 8
  else if crAnnulled s cr then 3
  else if s.here.featmask.toNat < cr.feat then 2
  else 0

/-- The executing core's cluster dispatches nothing while it drains (R408). -/
def draining (s : State) : Bool := (s.cluster (clusterOf s.curCore)).state != 0

/-- START (R359). In a cluster that drains it gives BUSY, as RESUME does: R408 lets its cores dispatch nothing, DEDUCED, log 39; the same while the core's dispatch takes
only saved contexts (R361), DEDUCED, log 39. -/
def execSlotctlStart (rd rs1 rs2 : RegField) (s : State) : Out :=
  slotctl (.slotctlStart rd rs1 rs2) rd rs1 rs2 (fun s g w answer =>
    if (s.slot g).occupied || draining s || onlySaved s.here then answer s 6 0
    else
      (readCr s w).bnd fun cw s1 =>
        let cr := crOf cw
        let st := startStatus s1 cr
        answer (if st = 0 then dispatchCr s1 g cr .core else s1) st 0) s

/-- PREEMPT (R359, R379): it waits while a preemption is in progress, and for a scalar place while a spill unit is free for the move that frees one. -/
def execSlotctlPreempt (rd rs1 rs2 : RegField) (s : State) : Out :=
  slotctl (.slotctlPreempt rd rs1 rs2) rd rs1 rs2 (fun s g _ answer =>
    if !(s.slot g).occupied || g = s.me then answer s 6 0
    else if s.here.preempt.isSome then waitHere s .turn
    else if !canSave s g then (if (freePlace s.here).isNone && !(freeUnits s.here).isEmpty then waitHere s .turn else answer s 7 0)
    else waitHere (startPreempt s g (some (s.me, rd.toNat)) false) (.preempting g)) s

/-- The saved context a word names: by Closet place, or with bit 4 the moved one in a spill unit. -/
def namedSaved (k : Core) (w : Word) : Option Saved :=
  k.saved.find? (fun x => if bit w 4 then x.place.isNone && x.unit = some (fld w 0 4) else x.place = some (fld w 0 4))

def execSlotctlResume (rd rs1 rs2 : RegField) (s : State) : Out :=
  slotctl (.slotctlResume rd rs1 rs2) rd rs1 rs2 (fun s g w answer =>
    if (s.slot g).occupied || draining s then answer s 6 0
    else
      match namedSaved s.here w with
      | none => answer s 6 0
      | some x =>
        if x.fault.isSome then answer s 6 0
        else if !canRestore s s.curCore x then answer s 7 0
        else answer (restore s g x) 0 0) s

/-- KILL (R359): the task ends as R65 does, once an answer that it awaits has come. -/
def execSlotctlKill (rd rs1 rs2 : RegField) (s : State) : Out :=
  slotctl (.slotctlKill rd rs1 rs2) rd rs1 rs2 (fun s g _ answer =>
    if !(s.slot g).occupied || g = s.me then answer s 6 0
    else if endAwaited s g then answer (s.modSlot g (fun t => { t with killed := true })) 0 0
    else answer (endSlot s g false) 0 0) s

/-- COPYSTOP (R359): every running copy that the slot has pushed, for whatever task. -/
def execSlotctlCopystop (rd rs1 rs2 : RegField) (s : State) : Out :=
  slotctl (.slotctlCopystop rd rs1 rs2) rd rs1 rs2 (fun s g _ answer => answer (stopCopies s g) 0 0) s

/-- A halted slot goes on: after its HALT, or at STVEC (R353). -/
def releaseSlot (stvec : Word) (t : Slot) : Slot :=
  { t with state := .ready, doubleHalt := false, pc := if t.doubleHalt then stvec else t.pc }

def execSlotctlRelease (rd rs1 rs2 : RegField) (s : State) : Out :=
  slotctl (.slotctlRelease rd rs1 rs2) rd rs1 rs2 (fun s g _ answer =>
    if (s.slot g).state = .halted then answer (s.modSlot g (releaseSlot s.here.stvec)) 0 0 else answer s 6 0) s

/-! Images of contexts (R362). -/

/-- n bytes of an image from an address, in 64-byte elements. -/
def imageElems (a : Word) (n : Nat) : List Elem := (List.range (n / 64)).map (fun i => { a := a + wd (64 * i), n := 64 })

/-- The image's space is one R362 admits. -/
def imageSpace (a : Word) : Bool :=
  match spaceOf a with
  | .global => true
  | .window w => w = 0 || w = 2 || w = 3
  | _ => false

/-- The image address (R362), checked in R90's order: NONCANON, then MISALIGN, then ATTRMIX. -/
def needImage (s : State) (a : Word) : Res Unit :=
  (need s (spaceOf a != .none) .noncanon a).bnd fun _ s1 =>
  (need s1 (a.toNat % 64 = 0) .misalign a).bnd fun _ s2 => need s2 (imageSpace a) .attrmix a

/-- The bytes of a saved context's image. -/
def imageBytes (s : State) (c : Nat) (x : Saved) : List Byte :=
  let p := partsOf s c x
  s.mem.readN p.scalar 384 ++ s.mem.readN p.matrix 64 ++ List.replicate 64 0
    ++ (if x.lanes = 0 then [] else s.mem.readN p.vec 16384 ++ s.mem.readN p.masks 512)
    ++ (if x.accs.isEmpty then [] else s.mem.readN p.acc 24576) ++ (if x.accs.length = 2 then s.mem.readN p.acc2 24576 else [])

/-- A context waits on its storage fault, or has side-log entries not yet replayed (R362, R398). -/
def unserviced (k : Core) (x : Saved) : Bool := x.fault.isSome || k.sideLog.any (fun e => e.ctx = x.num)

/-- Write bytes over 64-byte places as published writes. -/
def writeImage (s : State) : List Place → List Byte → State
  | [], _ => s
  | p :: r, bs => writeImage (writePublished s s.curCore s.mine.rtag p (bs.take 64)) r (bs.drop 64)

def execClosave (rd rs1 rs2 : RegField) (s : State) : Out :=
  ((issue (.closave rd rs1 rs2) { sup := true, srcs := [rs1, rs2], dst := some rd } s).bnd fun v s1 =>
    let a := v.getD 1 0
    (needImage s1 a).bnd fun _ s2 =>
    let named := namedSaved s2.here (v.getD 0 0)
    let bs := match named with | some x => imageBytes s2 s2.curCore x | none => List.replicate 512 0
    (checkAccess s2 (imageElems a bs.length) .store false).bnd fun ps s3 =>
    match named with
    | none => finish s1 s3 rd 0
    | some x =>
      if unserviced s3.here x then finish s1 s3 rd 1
      else
        (holdAccess s3 (ps.map (fun p => (p, 64))) true).bnd fun _ s4 =>
        finish s1 (dropSaved (untie (writeImage s4 ps bs) s4.curCore x.num) s4.curCore x.num) rd (wd bs.length)).outcome

/-- Bytes of words. -/
def bytesOfWords (w : List Word) : List Byte := w.flatMap (fun v => leBytes v.toNat 8)

/-- The words of an image part, read as the core's loads, behind k words of it. -/
def readImage (s : State) (k : Nat) (a : Word) (n : Nat) : Res (List Word) :=
  readElems s k ((List.range (n / 8)).map (fun i => { a := a + wd (8 * i), n := 8, al := if i = 0 then 64 else 8 }))

/-- The header of a restored place: the parts' new places, unmoved. -/
def restoredHeader (h : Word) (x : Saved) : Word :=
  wd (h.toNat % 64 + at_ (x.vplace.getD 0) 6 + at_ (b2n (x.lanes != 0 && x.vplace.isNone)) 7 + at_ (fld h 8 2) 8
    + at_ (b2n (!x.accs.isEmpty && !x.aplace)) 10 + at_ (fld h 11 3) 11 + at_ (x.unit.getD 0) 14 + at_ (fld h 20 5) 20
    + at_ (x.unit2.getD 0) 25 + at_ (fld h 30 2) 30)

/-- The context an image describes, given places (R362). -/
def imageSaved (s : State) (w : List Word) (pl : Saved) : Saved :=
  let h := w.getD 47 0
  let w2 := w.getD 32 0
  let a0 := fld h 9 1
  { pl with
    num := s.nextId, order := s.nextId, instant := w.getD 33 0, cls := fld w2 18 2, rtag := fld w2 0 18
    lanes := if bit h 5 then fld (w.getD 36 0) 32 8 else 0
    accs := if bit h 8 then (if bit h 24 then [a0, 1 - a0] else [a0]) else [] }

/-- Put an image into its places. -/
def placeImage (s : State) (w : List Word) (body : List Byte) (x : Saved) : State :=
  let c := s.curCore
  let s0 := { s.modCore c (fun k => { k with saved := k.saved ++ [x] }) with nextId := s.nextId + 1 }
  let p := partsOf s0 c x
  let nv := if x.lanes = 0 then 0 else 16896
  let s1 := storeAt (storeAt s0 p.scalar (bytesOfWords ((w.take 47) ++ [restoredHeader (w.getD 47 0) x]))) p.matrix
    (bytesOfWords ((w.drop 48).take 8))
  let s2 := if nv = 0 then s1 else storeAt (storeAt s1 p.vec (body.take 16384)) p.masks ((body.drop 16384).take 512)
  let s3 := if x.accs.isEmpty then s2 else storeAt s2 p.acc ((body.drop nv).take 24576)
  if x.accs.length = 2 then storeAt s3 p.acc2 ((body.drop (nv + 24576)).take 24576) else s3

/-- Bytes of an image behind its first 512. -/
def bodyLength (h : Word) : Nat :=
  (if bit h 5 then 16896 else 0) + (if bit h 8 then (if bit h 24 then 49152 else 24576) else 0)

/-- CLOREST (R362). An image that names another partition's request is INVALID, DEDUCED from R406, log 39. It takes no place that the victim of a started preemption needs (R361). -/
def execClorest (rd rs1 : RegField) (s : State) : Out :=
  ((issue (.clorest rd rs1) { sup := true, srcs := [rs1], dst := some rd } s).bnd fun v s1 =>
    let a := v.getD 0 0
    (needImage s1 a).bnd fun _ s2 =>
    (readImage s2 0 a 512).bnd fun w s3 =>
      let h := w.getD 47 0
      if !bit h 0 || fld h 32 32 != 0 then finish s1 s3 rd 8
      else
        (readImage s3 64 (a + 512) (bodyLength h)).bnd fun b s4 =>
          if !s4.liveTag (fld (w.getD 32 0) 0 18) then finish s1 s4 rd 3
          else if foreignTag s4 (fld (w.getD 32 0) 0 18) then finish s1 s4 rd 8
          else
            match allotPlaces s4.here (bit h 5) (if bit h 8 then (if bit h 24 then 2 else 1) else 0) with
            | none => finish s1 s4 rd 7
            | some pl =>
              let x := imageSaved s4 w pl
              let s5 := moveOne (placeImage s4 w (bytesOfWords b) x) s4.curCore
              if keepsRoom s5 s5.curCore then finish s1 s5 rd (wd (at_ (x.place.getD 0) 8)) else finish s1 s4 rd 7).outcome

/-! TLBINV, CFLUSH and HALT (R363, R364). -/

/-- The entry holds the page of an address. -/
def TlbEntry.covers (t : TlbEntry) (va : Nat) : Bool := va / 2 ^ t.log2 * 2 ^ t.log2 = t.base

/-- Drop from every TLB of partition p, or of the device, the entries `gone` names. -/
def tlbDrop (s : State) (p : Option Nat) (gone : TlbEntry → Bool) : State :=
  let hit : Nat → Bool := fun c => match p with | some q => decide (s.partOf c = q) | none => true
  { s with
    cores := s.cores.map (fun k => if hit k.1 then (k.1, { k.2 with tlb := k.2.tlb.filter (fun t => !gone t) }) else k)
    clusters := s.clusters.map (fun k =>
      if hit (coreAt k.1 0) then (k.1, { k.2 with tlb := k.2.tlb.filter (fun t => !gone t) }) else k) }

/-- A place whose translation is invalidated: it is translated again before its access is performed (`resettle`). -/
def Place.stale (p : Place) : Place :=
  match p with
  | .global va _ _ _ => .logged va (.fault 3 1)
  | p => p

/-- A slot's translations are invalidated: those of a held access, and that of a tagged-word operation whose request is not performed, which it sends again. -/
def Slot.stale (t : Slot) (now : Nat) : Slot :=
  { t with
    checked := t.checked.map (fun l => l.map Place.stale)
    wait := match t.wait with
      | some (.tagged w d n r) => some (.tagged { w with stale := true } false n (if d then now else r))
      | w => w }

/-- A key operation holds a translated address. -/
def KeyOp.translated (op : KeyOp) : Bool :=
  match op with
  | .select _ _ _ _ _ recs => recs.any (fun r => r.2.any (fun z => match z.2 with | .global _ _ _ _ => true | _ => false))
  | .draw _ _ _ _ => false

/-- The key operations of a cluster that hold an invalidated translation leave the unit; their slots issue them to it again. -/
def reissueKeys (s : State) (cl : Nat) : State :=
  let out := (s.cluster cl).keys.filter (fun k => k.2.translated)
  if out.isEmpty then s
  else out.foldl (fun s k => s.modSlot k.1 Slot.goesOn) (s.modCluster cl (fun k => { k with keys := k.keys.filter (fun x => !x.2.translated) }))

/-- What the cores `hit` picks have translated and not yet performed, they translate again (R93, R363): held accesses, tagged-word operations, whose deferrals
are freed unperformed, and the records of selections. -/
def retranslate (s : State) (hit : Nat → Bool) : State :=
  let s1 : State := { s with
    slots := s.slots.map (fun t => if hit (coreOf t.1) then (t.1, t.2.stale s.time) else t)
    deferred := s.deferred.filter (fun d => !hit (coreOf d.g)) }
  s1.clusters.foldl (fun s k => if hit (coreAt k.1 0) then reissueKeys s k.1 else s) s1

/-- TLBINV's effect. -/
def tlbInvalidate (s : State) (a : Word) (extent : Nat) : State :=
  let asid := s.here.asid.toNat
  let p := s.partOf s.curCore
  match extent with
  | 0 => tlbDrop s (some p) (fun t => t.asid = asid && spaceOf a = .global && t.covers (fld a 0 56))
  | 1 => tlbDrop s (some p) (fun t => t.asid = asid)
  | _ => tlbDrop s none (fun _ => true)

def execTlbinv (rs1 rs2 : RegField) (s : State) : Out :=
  ((issue (.tlbinv rs1 rs2) { sup := true, srcs := [rs1, rs2] } s).bnd fun v s1 =>
    let w := v.getD 1 0
    (need s1 (decide (w.toNat < 3)) .illegalOp (encodingOf (.tlbinv rs1 rs2))).bnd fun _ s2 =>
    pass (retranslate (tlbInvalidate s2 (v.getD 0 0) w.toNat) (fun c => w = 2 || s2.partOf c = s2.partOf s2.curCore))).outcome

/-- The core no longer holds a line in its L1 or pool: its later loads read it afresh (DEDUCED, log 15). -/
def dropLine (s : State) (c ln : Nat) : State :=
  (s.modCore c (fun k => { k with
    l1 := k.l1.filter (· != ln)
    coherent := k.coherent.filter (· != ln)
    reverted := k.reverted.filter (fun x => lineNo x.1 != ln)
    seen := noteBytes k.seen (lineBytes ln) s.history.length })).modTile (tileOf c) (fun t => { t with pool := t.pool.filter (· != (c, ln)) })

/-- Every copy of a line in an L1 or pool is dropped (R364); stores that its core has not published are published as it leaves (R98). -/
def dropCopies (s : State) (ln : Nat) : State := s.cores.foldl (fun s k => dropLine (publishLine s k.1 ln) k.1 ln) s

/-- CFLUSH of one line: rs1 is checked as an 8-byte load, its line published and dropped; `all` drops the copies of other cores too (operation 1, whose
write-back changes no value). -/
def flushLine (i : Instr) (rs1 rs2 : RegField) (all : Bool) (s : State) : Out :=
  ((issue i { sup := true, srcs := [rs1, rs2] } s).bnd fun v s1 =>
    (need s1 (fld (v.getD 1 0) 0 2 != 3) .illegalOp (encodingOf i)).bnd fun _ s2 =>
    (checkAccess s2 [{ a := v.getD 0 0, n := 8 }] .load false).bnd fun ps s3 =>
    match placeOf ps with
    | .global _ pa leaf _ =>
      if cached leaf then
        let s4 := dropLine (publishLine s3 s3.curCore (lineNo pa)) s3.curCore (lineNo pa)
        pass (if all then dropCopies s4 (lineNo pa) else s4)
      else pass s3
    | _ => pass s3).outcome

def execCflushLine (rs1 rs2 : RegField) (s : State) : Out := flushLine (.cflushLine rs1 rs2) rs1 rs2 false s
def execCflushWriteback (rs1 rs2 : RegField) (s : State) : Out := flushLine (.cflushWriteback rs1 rs2) rs1 rs2 true s

/-- CFLUSH of the whole L1 and pool. -/
def execCflushAll (rs1 rs2 : RegField) (s : State) : Out :=
  ((issue (.cflushAll rs1 rs2) { sup := true, srcs := [rs1, rs2] } s).bnd fun v s1 =>
    (need s1 (fld (v.getD 1 0) 0 2 != 3) .illegalOp (encodingOf (.cflushAll rs1 rs2))).bnd fun _ s2 =>
    (publish s2 .dev).bnd fun _ s3 =>
    pass (emptyL1 (refreshCore s3 s3.curCore) s3.curCore)).outcome

def execHalt (s : State) : Out :=
  ((issue .halt { sup := true } s).bnd fun _ s1 =>
    let s2 := advance s1 4
    (.go () (s2.modMe (fun t => { t with state := .halted })) : Res Unit)).outcome

/-! Asynchronous traps (R350, R354, R381, R382). -/

/-- A wait that a pending BUDGET withdraws (R382). -/
def budgetWithdraws : Option Wait → Bool
  | none => true
  | some .hatch => true
  | some .unitBusy => true
  | some .fetch => true
  | some .board => true
  | some .sideLog => true
  | some .message => true
  | some .interface => true
  | some (.monitor _ _) => true
  | some (.barrier _) => true
  | _ => false

/-- A slot that waits so may take TIMER or MSG: its next instruction has not issued, or it is in MONWAIT (R202, R350). -/
def boundaryWait : Option Wait → Bool
  | some (.monitor _ _) => true
  | w => !issuedWait w

/-- TIMER is pending on a core: TIME has reached TIMERCMP, the event that notes it come or not (R354). -/
def timerPending (k : Core) (now : Nat) : Bool := k.timer || reached k.timercmp now

/-- The asynchronous trap slot g takes at its boundary, if any, with its TRAPVAL. An MMA or MSCALE that a resumed context still has to finish was
issued before its save, so its boundary comes after it. -/
def asyncCause (s : State) (g : Nat) : Option (Cause × Word) :=
  let t := s.slot g
  let k := s.core (coreOf g)
  let kernel := k.sched && g % 16 = 0 && t.ie && boundaryWait t.wait
  if bit t.progress 63 || !(t.state = .ready || t.state = .waiting) || slotDoomed s g then none
  else if t.budgetPending && budgetWithdraws t.wait then some (.budget, 0)
  else if kernel && timerPending k s.time then some (.timer, wd s.time)
  else if kernel && k.msgpend != 0 then some (.msg, wd k.msgpend.toNat)
  else none

/-- Take it. -/
def takeAsync (s : State) (g : Nat) : State :=
  match asyncCause s g with
  | none => s
  | some (c, v) =>
    let s1 := if c = .budget then s.modSlot g (fun t => { t with budgetPending := false }) else s
    trapAt s1 g c (s.slot g).pc v

def execTakeAsyncTrap (g : Nat) (s : State) : Out := eventOf (decide (g < 32768)) (fun s => takeAsync s g) s

/-- BUDGETLEFT has reached zero with a budget in force: BUDGET is pending, and a deferred tagged-word wait is withdrawn (R381, R382). -/
def spendBudget (s : State) (g : Nat) : State :=
  let t := s.slot g
  if t.inForce && t.budget = 0 && t.occupied then
    let s1 := s.modSlot g (fun t => { t with inForce := false, budgetPending := true })
    match t.wait with
    | some (.tagged w true _ _) => (s1.modSlot g (fun t => { t with wait := some (.withdrawn w .budget) })).post (.withdrawalAnswer g)
    | some (.tagged _ false _ _) => (undoIssue s1 g).modSlot g (fun t => { t with wait := none, state := .ready, inst := none })
    | _ => s1
  else s

def execBudgetExpiry (g : Nat) (s : State) : Out := eventOf (decide (g < 32768)) (fun s => spendBudget s g) s

/-- TIME has reached TIMERCMP on a supervised core (R354). -/
def execTimercmpExpiry (core : Nat) (s : State) : Out :=
  eventOf (decide (core < 2048)) (fun s =>
    let k := s.core core
    if k.sched && reached k.timercmp s.time then s.modCore core (fun k => { k with timer := true }) else s) s

end Sys2Proof.Machine
end

