-- ==== Sys2Proof/Machine/Sched.lean ====
section
/-! DEFINITION. Scheduling by hardware: launch queues, dispatch and resume, timer and demand preemption, overflow rings, and the scheduling
registers of a die (R32, R35-R37, R48-R52, R361, R366-R379, R386). -/

namespace Sys2Proof.Machine

/-! Launch queues (R32, R368, R369, R421). -/

/-- A counter of LQSTAT, which stops at 65,535. -/
def bump16 (n : Nat) : Nat := min (n + 1) 65535

/-- A record or other write arrives at a launch queue's record area. -/
def launchWrite (s : State) (d p : Nat) (whole : Bool) (w : List Word) : State :=
  let q := s.launchQ d p
  s.setLaunchQ d p
    (if !s.ready then { q with fulls := bump16 q.fulls }
     else if !whole then { q with disc := bump16 q.disc }
     else if 256 ≤ q.records.length then { q with fulls := bump16 q.fulls }
     else { q with records := q.records ++ [w] })

/-- A host write to a launch window (R421): only the record area takes writes, and only whole records. -/
def execLaunchQueueWrite (die part offset : Nat) (data : List Byte) (s : State) : Out :=
  eventOf (decide (die < 4) && decide (part < 16)) (fun s =>
    if offset < 64 then launchWrite s die part (decide (offset = 0) && decide (data.length = 64)) (wordsOf data) else s) s

/-- A record is discarded under step 2 of R32: its instant has passed or a reserved bit is set. -/
def recordBad (s : State) (w : List Word) : Bool :=
  reached (w.getD 1 0) s.time || fld (w.getD 2 0) 0 18 != 0 || fld (w.getD 2 0) 29 3 != 0

/-- The head record must wait (R32 step 1, R369): no entry, no quota, or no room for its CR. -/
def recordWaits (s : State) (d p : Nat) (w : List Word) : Bool :=
  (nextTag s d).isNone || quotaSpent s p || !hasRoom s (qDie d p) (fld (w.getD 2 0) 18 2)

/-- The record at a launch queue's head is accepted or discarded, if it need not wait. -/
def launchAccept (s : State) (d p : Nat) : State :=
  let q := s.launchQ d p
  match q.records with
  | [] => s
  | w :: r =>
    if recordWaits s d p w then s
    else if recordBad s w then s.setLaunchQ d p { q with records := r, disc := bump16 q.disc }
    else
      let cr := crOf w
      match allocate (s.setLaunchQ d p { q with records := r }) d { state := .live, instant := cr.instant, cls := cr.prio % 4, part := p } with
      | none => s
      | some (t, s1) =>
        match enqueue s1 (qDie d p) { cr with rtag := t } with
        | some s2 => s2
        | none => s

def execLaunchAccept (die part : Nat) (s : State) : Out :=
  eventOf (decide (die < 4) && decide (part < 16)) (fun s => if s.ready then launchAccept s die part else s) s

/-! Dispatch and resume (R36, R52, R361, R375). -/

/-- Hardware fills the core's slots: hardware dispatch mode, in a cluster that runs (R375, R408). -/
def hardwareCore (s : State) (c : Nat) : Bool := !(s.core c).sched && decide ((s.cluster (clusterOf c)).state = 0)

/-- The home a queue makes (R38). -/
def homeOfQueue (q : Nat) : Home := if q < 2048 then .core else if q < 2112 then .cluster else .die

/-- Drop the annulled CRs a core's search meets (R35). -/
def purgeFor (s : State) (c : Nat) : State := (queuesOf s c).foldl (fun s q => (List.range 4).foldl (fun s l => purge s q l) s) s

/-- What a free slot of the core takes next (R36): a saved context, or a CR as queue, level, index. -/
def nextWork (s : State) (c : Nat) : Option (Saved ⊕ (Nat × Nat × Nat × CR)) :=
  let ctx := leastBy (resumesBefore s c) (readyContexts s c 3)
  let cr := if onlySaved (s.core c) then none else nextCr s c (queuesOf s c) (List.range 4)
  match ctx, cr with
  | some x, some y => if x.cls ≤ y.2.1 then some (.inl x) else some (.inr y)
  | some x, none => some (.inl x)
  | none, some y => some (.inr y)
  | none, none => none

/-- Give a free slot its work. -/
def fillSlot (s : State) (c : Nat) : State :=
  let s0 := purgeFor s c
  match nextWork s0 c, pickFree s0 c false with
  | some (.inl x), some (g, s1) => restore s1 g x
  | some (.inr (q, l, i, cr)), some (g, s1) => dispatchCr (takeCr s1 q l i) g cr (homeOfQueue q)
  | _, _ => s0

def execDispatch (core : Nat) (s : State) : Out :=
  eventOf (decide (core < 2048)) (fun s => if hardwareCore s core && !(freeSlots s core false).isEmpty then fillSlot s core else s) s

/-- The core's next work is a saved context. -/
def resumeNext (s : State) (c : Nat) : Bool := match nextWork s c with | some (.inl _) => true | _ => false

def execResumeContext (core : Nat) (s : State) : Out :=
  eventOf (decide (core < 2048)) (fun s =>
    if hardwareCore s core && !(freeSlots s core false).isEmpty && resumeNext s core then fillSlot s core else s) s

/-! Preemption by hardware (R49, R378, R379). -/

/-- Of two slots, the better victim (R49). -/
def worseSlot (s : State) (a b : Nat) : Bool :=
  let x := s.slot a
  let y := s.slot b
  decide (y.prio < x.prio) || (x.prio = y.prio &&
    (decide (y.expiry.toNat < x.expiry.toNat) || (x.expiry = y.expiry && decide (b < a))))

/-- The victim among a core's occupied slots that could be saved and meet a condition. -/
def victim (s : State) (c : Nat) (ok : Nat → Bool) : Option Nat :=
  leastBy (worseSlot s) ((slotsOf c).filter (fun g => (s.slot g).occupied && canSave s g && ok g))

/-- The core may start a preemption of its own now. -/
def mayPreempt (s : State) (c : Nat) : Bool :=
  hardwareCore s c && (s.core c).preempt.isNone && (freePlace (s.core c)).isSome && (freeSlots s c false).isEmpty

/-- DQCTL of a core. -/
def dqctlOf (s : State) (c : Nat) : Word := s.reg (dqctlAddr (dieOf c) (s.partOf c))

/-- The victim of dispatch demand: for the most urgent class that waits and may demand. -/
def demandVictim (s : State) (c : Nat) : Option Nat :=
  (List.range 4).findSome? (fun p =>
    if bit (dqctlOf s c) p && (nextCr s c (queuesOf s c) [p]).isSome then
      victim s c (fun g => !pinned s g && decide (p < (s.slot g).prio))
    else none)

/-- The victim of the timer: a task whose slice is spent while work of its class or a more urgent one waits. -/
def timerVictim (s : State) (c : Nat) : Option Nat :=
  let slice := fld (dqctlOf s c) 8 32
  if slice = 0 then none
  else victim s c (fun g => decide (slice ≤ s.time - (s.slot g).started) && workWaits s c (s.slot g).prio)

def execDemandPreemption (core : Nat) (s : State) : Out :=
  eventOf (decide (core < 2048)) (fun s =>
    if mayPreempt s core then (match demandVictim s core with | some g => startPreempt s g none false | none => s) else s) s

def execTimerPreemption (core : Nat) (s : State) : Out :=
  eventOf (decide (core < 2048)) (fun s =>
    if mayPreempt s core && (demandVictim s core).isNone then
      (match timerVictim s core with | some g => startPreempt s g none true | none => s)
    else s) s

/-! Rings and registers (R371-R373, R386). -/

def execRingMove (queue level : Nat) (s : State) : Out :=
  eventOf (decide (queue < 2176) && decide (level < 4)) (fun s => ringMove s queue level) s

/-- Sort CRs by word 1, earlier enqueued first among equals; each keeps its index. -/
def sortCrs : List (CR × Nat) → List (CR × Nat)
  | [] => []
  | a :: r => ins a (sortCrs r)
where
  /-- Put one in its place before those no earlier. -/
  ins (a : CR × Nat) : List (CR × Nat) → List (CR × Nat)
    | [] => [a]
    | b :: r => if b.1.instant.toNat < a.1.instant.toNat then b :: ins a r else a :: b :: r

/-- A level with its ring comes under EDF order (R371, R373): the ring is in word 1 order, and every CR of the level is no later than every
CR of the ring. -/
def orderEdf (s : State) (q l : Nat) : State :=
  let v := s.level q l
  let n := v.entries.length
  let all := v.entries ++ ringCrs s q l
  let sorted := sortCrs all.zipIdx
  let inLevel := (sorted.take n).map (fun x => x.2)
  let entries := all.zipIdx.filter (fun x => inLevel.contains x.2)
  let s1 := (sorted.drop n).foldl (fun s x => ringAdd s q l false x.1) (s.setLevel q l { entries := entries.map (fun x => x.1), ring := [] })
  let s2 := (entries.filter (fun x => decide (n ≤ x.2))).foldl (fun s x => parkedDown s x.1.rtag) s1
  ((sorted.drop n).filter (fun x => decide (x.2 < n))).foldl (fun s x => parkedUp s x.1.rtag) s2

/-- A write of DQCTL: the levels whose EDF bit becomes set are put in order. -/
def setDqctl (s : State) (d p : Nat) (v : Word) : State :=
  let old := s.reg (dqctlAddr d p)
  let new := wd (fld v 0 40 - at_ (fld v 7 1) 7)
  let s1 := s.setReg (dqctlAddr d p) new
  s1.levels.foldl (fun s x =>
    let q := x.1 / 4
    let l := x.1 % 4
    if l != 0 && qDieOf q = d && qPart s q = p && bit new (3 + l) && !bit old (3 + l) then orderEdf s q l else s) s1

def execDqctlWrite (die part : Nat) (value : Word) (s : State) : Out :=
  eventOf (decide (die < 4) && decide (part < 16)) (fun s => noteConfig (setDqctl s die part value) (dqctlAddr die part) value) s

/-- A write of RINGD: ignored unless the level and its ring are empty. -/
def setRingd (s : State) (q l : Nat) (v : Word) : State :=
  let x := s.level q l
  if x.entries.isEmpty && x.ring.isEmpty then s.setReg (ringdAddr q l) (wd (at_ (fld v 52 4) 52 + at_ (fld v 6 46) 6)) else s

def execRingdWrite (queue level : Nat) (value : Word) (s : State) : Out :=
  eventOf (decide (queue < 2176) && decide (level < 4)) (fun s => noteConfig (setRingd s queue level value) (ringdAddr queue level) value) s

/-- RTFREE's result for a tag (R386). -/
def rtfreeCode (s : State) (t : Nat) : Nat :=
  let q := s.req t
  if t = 0 || q.state = .free then 3
  else if q.state = .live then 1
  else if !mayRelease s t || inRing s t then 2
  else 0

/-- A write of RTFREE frees the entry where it may, and the result is read back. -/
def setRtfree (s : State) (d : Nat) (v : Word) : State :=
  let t := fld v 0 18
  let c := rtfreeCode s t
  let s1 := if c = 0 then releaseEntry s t else s
  { s1 with rtfree := put d c s1.rtfree }

def execRtfreeWrite (die : Nat) (value : Word) (s : State) : Out := eventOf (decide (die < 4)) (fun s => setRtfree s die value) s

end Sys2Proof.Machine
end

