-- ==== Sys2Proof/Machine/Collective.lean ====
section
/-! DEFINITION. The die collective engine (R68, R305-R308). -/

namespace Sys2Proof.Machine

/-! The words of a collective command (R306). -/

def collType (x : Cmd) : Nat := fld (x.words.getD 0 0) 18 3
def collRed (x : Cmd) : Nat := fld (x.words.getD 0 0) 21 2
def collId (x : Cmd) : Nat := fld (x.words.getD 0 0) 23 8
def collSrc (x : Cmd) : Word := x.words.getD 2 0
def collDst (x : Cmd) : Word := x.words.getD 3 0
def collCount (x : Cmd) : Nat := fld (x.words.getD 4 0) 0 32
def collRoot (x : Cmd) : Nat := fld (x.words.getD 4 0) 32 16
def collMap (x : Cmd) : Word := x.words.getD 5 0
/-- Bytes of an element. -/
def collBytes (x : Cmd) : Nat := if collType x = 1 then 2 else 4

/-- Bytes a member's source holds, for n members. -/
def collSrcLen (x : Cmd) (n : Nat) : Nat := (if x.op = 10 then n else 1) * collCount x * collBytes x
/-- Bytes a member's destination takes. -/
def collDstLen (x : Cmd) (n : Nat) : Nat := (if x.op = 9 then n else 1) * collCount x * collBytes x

/-- The operations' own checks (R296, R306); the root must be a rank. -/
def collBad (x : Cmd) (n : Nat) : Bool :=
  let h := x.words.getD 0 0
  decide (2 < collType x) || decide (1 < collRed x) || hNw h != 5 || collCount x = 0 || decide (2 ^ 28 < collCount x) ||
  (if x.op = 11 then n != 0 && decide (n ≤ collRoot x) else collRoot x != 0)

/-! Groups (R305). -/

/-- The group a command names on its core's die. -/
def groupOf (s : State) (x : Cmd) : Option Group :=
  s.groups.find? (fun g => g.die = dieOf x.core && g.part = x.part && g.id = collId x)

/-- The rank a core registered. -/
def rankOf (g : Group) (core : Nat) : Option Nat := (g.ranks.find? (fun r => r.2 = core)).map (fun r => r.1)

/-- The same group, on whichever die's engine. -/
def Group.same (a b : Group) : Bool := a.part = b.part && a.id = b.id && a.members = b.members

/-- Change a die's group. -/
def modGroup (s : State) (die part id : Nat) (f : Group → Group) : State :=
  { s with groups := s.groups.map (fun g => if g.die = die && g.part = part && g.id = id then f g else g) }

/-- A command under the id has begun and not ended, on any die: the engines of a group act as one (R305). -/
def collRunning (s : State) (x : Cmd) : Bool :=
  s.colls.any (fun y => y.id != x.id && y.op != 12 && y.part = x.part && collId y = collId x)

/-- A group record's first word is in range (R305). -/
def recordOk (w : Word) : Bool :=
  let n := fld w 0 16
  decide (2 ≤ n ∧ n ≤ 1024) && decide (fld w 16 16 < n) && fld w 32 32 = 0

/-- The peers that hold members of a group's record. -/
def remotePeers (members : List Word) : List Nat := ((members.filter (fun w => bit w 14)).map (fun w => fld w 15 6)).eraseDups

/-- A record names a member whose route is invalid, PERM (R423), or lies over a link that is down, LINK (R422). -/
def routeError (s : State) (members : List Word) : Option Nat :=
  let ps := remotePeers members
  if ps.any (fun p => !routeOk s p) then some 5
  else if ps.any (fun p => portDown s (fld (s.reg (peerrouteAddr p)) 0 4)) then some 15
  else none

/-- A registration under the id differs from the record: one made on some die of this device, or, with members on peers, one made there, which is a peer's
answer and free (log 7). -/
def differs (s : State) (x : Cmd) (members : List Word) : Bool × State :=
  if s.groups.any (fun g => g.part = x.part && g.id = collId x && g.members != members) then (true, s)
  else if (remotePeers members).isEmpty then (false, s)
  else let (k, s1) := s.fresh; (decide (Config.peerAnswers k % 2 = 1), s1)

/-- A die's new record of a group that other dies have registered: it knows what they know of its matches (R68, R307). -/
def sameElsewhere (s : State) (g : Group) : Group :=
  match s.groups.find? (fun h => h.same g) with
  | some h => { g with dead := h.dead, parts := h.parts }
  | none => g

/-- Register a group; one that differs from one already made under the id, on any die, fails with GROUP, and so does one under an id with a
collective in progress. -/
def register (s : State) (x : Cmd) (own : Nat) (members : List Word) : State :=
  match routeError s members with
  | some e => endCmd s x 3 e 0
  | none =>
    let (bad, s1) := differs s x members
    if bad || collRunning s1 x then endCmd s1 x 3 8 0
    else
      match groupOf s1 x with
      | none =>
        endCmd { s1 with groups := s1.groups ++
          [sameElsewhere s1 { die := dieOf x.core, part := x.part, id := collId x, members := members, ranks := [(own, x.core)] }] } x 1 0 0
      | some g =>
        endCmd (modGroup s1 g.die g.part g.id (fun g =>
          { g with ranks := g.ranks.filter (fun r => r.1 != own && r.2 != x.core) ++ [(own, x.core)] })) x 1 0 0

/-- GROUP reads its record, once the record's pages are there. -/
def runGroup (s : State) (x : Cmd) : State :=
  let a := collSrc x
  let fetch := fun (s : State) (n : Nat) => engineRead s x.core x.rtag x.user a (8 * n)
  let wait := fun (n : Nat) => spanStop (spans s x.core x.user .engineIn a (8 * n)).1
  let go := fun (s : State) (n : Nat) (f : State → List Word → State) =>
    match wait n with
    | some (.inr (va, t)) =>
      let (waits, s1) := awaitPage s x va t
      if waits then s1 else endCmd s1 x 3 4 0
    | _ =>
      match fetch s n with
      | (.error e, s1) => endCmd s1 x 3 e 0
      | (.ok bs, s1) => f s1 (wordsOf bs)
  go s 1 (fun s w =>
    let w0 := w.headD 0
    if !recordOk w0 then endCmd s x 3 2 0
    else
      let n := fld w0 0 16
      go s (n + 1) (fun s w =>
        let m := w.drop 1
        if leavesSpace s x.core a (8 * (n + 1)) then endCmd s x 3 3 0
        else if m.any (fun v => fld v 0 3 != 0 || fld v 21 43 != 0) then endCmd s x 3 2 0
        else register s x (fld w0 16 16) m))

/-! Matching (R307). -/

/-- The next index a rank's command takes, past those skipped. -/
def nextIndex (g : Group) (rank : Nat) : Nat → Nat → Nat
  | 0, j => j
  | f + 1, j => if g.skips.contains (rank, j) then nextIndex g rank f (j + 1) else j

/-- The index of the command with k others of its rank ahead of it, not yet counted. -/
def indexAhead (g : Group) (rank : Nat) : Nat → Nat
  | 0 => nextIndex g rank g.skips.length (look 0 rank g.counts)
  | k + 1 => nextIndex g rank g.skips.length (indexAhead g rank k + 1)

/-- The member of a rank is a core of this device. -/
def memberCore (g : Group) (r : Nat) : Option Nat :=
  let w := g.members.getD r 0
  if bit w 14 then none else some (fld w 3 11)

/-- The j-th command of a core under a group, if it has been taken. -/
def commandOf (s : State) (g : Group) (core j : Nat) : Option Cmd :=
  s.colls.find? (fun y => y.op != 12 && y.core = core && y.part = g.part && collId y = g.id && y.seq = j)

/-- The j-th commands of the group's members on this device, in rank order. -/
def matchOf (s : State) (g : Group) (j : Nat) : List (Nat × Cmd) :=
  (List.range g.members.length).filterMap (fun r =>
    (memberCore g r).bind (fun c => (commandOf s g c j).map (fun y => (r, y))))

/-- What the engines of a group know of the member of a rank beside its command: announced by a peer, or its source read (R307, R308). -/
def contribution (s : State) (g : Group) (j r : Nat) : Option Contribution :=
  (s.groups.find? (fun h => h.same g)).bind (fun h => h.parts.find? (fun p => p.rank = r && p.seq = j))

/-- Change the group's record with every engine that has it. -/
def modSame (s : State) (g : Group) (f : Group → Group) : State := { s with groups := s.groups.map (fun h => if h.same g then f h else h) }

/-- Enter a contribution, in place of what was known of it. -/
def addPart (s : State) (g : Group) (p : Contribution) : State :=
  modSame s g (fun h => { h with parts := h.parts.filter (fun q => !(q.rank = p.rank && q.seq = p.seq)) ++ [p] })

/-- The fields in which matched commands must agree (R307). -/
def matchFields (x : Cmd) : List Nat := [x.op, collType x, collRed x, collCount x, collRoot x]

/-- Every member has pushed its j-th command: one on a peer has been announced by it. -/
def matchFull (s : State) (g : Group) (j : Nat) : Bool :=
  (List.range g.members.length).all (fun r =>
    match memberCore g r with
    | some c => (commandOf s g c j).isSome
    | none => (contribution s g j r).isSome)

/-- The matched commands agree, those on peers among them. -/
def matchAgrees (s : State) (g : Group) (j : Nat) : Bool :=
  let l := (matchOf s g j).map (fun y => matchFields y.2) ++
    (List.range g.members.length).filterMap (fun r => (contribution s g j r).map (fun p => p.fields))
  l.all (fun f => f = l.headD [])

/-- Tell each peer that holds members of a group about a member here or a match: the form is the model's, log 46. The error with which the first that does not
take it fails the command (R422, R425). -/
def tellPeers (s : State) (g : Group) (rtag rank j : Nat) (fields : List Nat) (dead : Bool) (data : List Byte) : Option Nat × State :=
  (remotePeers g.members).foldl (fun y p =>
    let (e, s1) := farWork y.2 g.part rtag p (.collective g.id rank j fields dead) 0 data
    (y.1.or e, s1)) (none, s)

/-! Results (R307, R308). -/

/-- Combine two elements. -/
def combElem (ty red a b : Nat) : Nat :=
  match ty, red with
  | 0, 0 => fredFn false a b
  | 1, 0 => fredFn true a b
  | 0, _ => (minmaxF fF32 true a b).1
  | 1, _ => (minmaxF fBF16 true a b).1
  | _, 0 => amoFn 0 4 a b
  | _, _ => amoFn 5 4 a b

/-- The i-th element of a source. -/
def elemAt (es : Nat) (bs : List Byte) (i : Nat) : Nat := leNat ((bs.drop (i * es)).take es)

/-- The destination of a member: `src` gives each rank's source, or nothing where it is not to be had. -/
def collResult (x : Cmd) (own n : Nat) (src : Nat → Option (List Byte)) : List (Option Byte) :=
  let es := collBytes x
  let c := collCount x
  let fold := fun (i : Nat) =>
    (List.range n).foldl (fun (acc : Option (Option Nat)) r =>
      match acc, src r with
      | some none, some bs => some (some (elemAt es bs i))
      | some (some a), some bs => some (some (combElem (collType x) (collRed x) a (elemAt es bs i)))
      | _, _ => none) (some none)
  let elem := fun (v : Option Nat) => match v with | some v => (leBytes v es).map some | none => List.replicate es none
  match x.op with
  | 8 => (List.range c).flatMap (fun i => elem ((fold i).bind id))
  | 9 => (List.range n).flatMap (fun r => (List.range c).flatMap (fun i => elem ((src r).map (fun bs => elemAt es bs i))))
  | 10 => (List.range c).flatMap (fun i => elem ((fold (own * c + i)).bind id))
  | _ => (List.range c).flatMap (fun i => elem ((src (collRoot x)).map (fun bs => elemAt es bs i)))

/-- Sectors a destination touches. -/
def sectorsOf (a : Word) (n : Nat) : Nat := if n = 0 then 0 else (a.toNat + n - 1) / 16 - a.toNat / 16 + 1

/-- The bytes of a bitmap. -/
def bitmapBytes (l : List Bool) : List Byte :=
  leBytes (sumN (l.zipIdx.map (fun b => b2n b.1 * 2 ^ b.2))) ((l.length + 63) / 64 * 8)

/-- Write bytes over spans; the error with which a peer refuses its part. -/
def writeSpans (s : State) (x : Cmd) : List Span → List Byte → Option Nat × State
  | [], _ => (none, s)
  | sp :: r, bs =>
    match engineStore s x.core x.rtag sp (bs.take sp.len) with
    | (some e, s1) => (some e, s1)
    | (none, s1) => writeSpans s1 x r (bs.drop sp.len)

/-- Write bytes at an address as the engine: what stops it, if its pages do not allow it, and the state. -/
def engineWrite (s : State) (x : Cmd) (a : Word) (bs : List Byte) : Option Stop × State :=
  let (l, s1) := spans s x.core x.user .engineOut a bs.length
  match spanStop l with
  | some e => (some e, s)
  | none => let (e, s2) := writeSpans s1 x l bs; (e.map Sum.inl, s2)

/-- A member's command ends, once its bitmap, if it asks for one, has been written (R308): while the bitmap's page is not resident the command stays, with
the bitmap's bytes in `snap` and their number in `left`; a page that refuses the bitmap fails a command that would be done. -/
def endMember (s : State) (x : Cmd) (st err bytes : Nat) (map : List Byte) : State :=
  if collMap x = 0 || map.isEmpty then endCmd s x st err bytes
  else
    let failed := fun (s : State) (e : Nat) => if st = 1 then endCmd s x 3 e bytes else endCmd s x st err bytes
    match engineWrite s x (collMap x) map with
    | (none, s1) => endCmd s1 x st err bytes
    | (some (.inl e), s1) => failed s1 e
    | (some (.inr (va, t)), s1) =>
      let (waits, s2) := awaitPage (keepCmd s1 x) x va t
      if waits then
        modCmd s2 x.id (fun y => { y with ended := true, state := st, error := err, bytes := bytes, left := [map.length],
                                          snap := Memory.writes [] (cellsAt 0 map) })
      else failed s2 4

/-- A collective command that is over ends when the page it waits for is there. -/
def collOver (s : State) (x : Cmd) : State :=
  match x.left with
  | n :: _ => endMember s { x with left := [] } x.state x.error x.bytes (x.snap.readN 0 n)
  | [] => endOver s x

/-- The sectors of a destination by what they now hold: at each, the device's choice of old or new where the new value is to be had and can be written. -/
def partialSectors (s : State) (x : Cmd) (res : List (Option Byte)) : Nat → State × List Bool → State × List Bool
  | 0, acc => acc
  | k + 1, (s0, l) =>
    let i := sectorsOf (collDst x) res.length - (k + 1)
    let a0 := max ((collDst x).toNat / 16 * 16 + 16 * i) (collDst x).toNat
    let a1 := min ((collDst x).toNat / 16 * 16 + 16 * i + 16) ((collDst x).toNat + res.length)
    let part := (res.drop (a0 - (collDst x).toNat)).take (a1 - a0)
    let (n, s1) := s0.fresh
    if part.all (fun b => b.isSome) && decide (Config.pick n % 2 = 1) then
      let (stop, s2) := engineWrite s1 x (wd a0) (part.filterMap id)
      partialSectors s x res k (s2, l ++ [stop.isNone])
    else partialSectors s x res k (s1, l ++ [false])

/-- BYTES of a member whose sectors are partly written: those of the prefix that holds new values (R300). -/
def prefixBytes (x : Cmd) (len : Nat) (map : List Bool) : Nat :=
  let k := (map.takeWhile id).length
  if k = 0 then 0 else min len ((collDst x).toNat / 16 * 16 + 16 * k - (collDst x).toNat)

/-- The bytes of a rank's source, once an engine has read them. -/
def rankSource (s : State) (g : Group) (j r : Nat) : Option (List Byte) :=
  (contribution s g j r).bind (fun p => if p.data.isEmpty then none else some p.data)

/-- Ranks whose source a collective reads. -/
def readRanks (g : Group) (x : Cmd) : List Nat := if x.op = 11 then [collRoot x] else List.range g.members.length

/-- What the engines know of a match goes when the match is over. -/
def clearParts (s : State) (g : Group) (j : Nat) : State := modSame s g (fun h => { h with parts := h.parts.filter (fun p => p.seq != j) })

/-- A value a device may have read of a rank's source before a match was killed: what was read, else its bytes now, where they can be read. -/
def sourceSoFar (s : State) (g : Group) (j : Nat) (l : List (Nat × Cmd)) (r : Nat) : Option (List Byte) :=
  match rankSource s g j r with
  | some bs => some bs
  | none =>
    (l.find? (fun y => y.1 = r)).bind (fun y =>
      (sourceBytes s { y.2 with snap := s.mem, since := s.history.length } []
        (spans s y.2.core y.2.user .engineIn (collSrc y.2) (collSrcLen y.2 g.members.length)).1).1.toOption)

/-- End every command of a match without a result: of an annulled one some sectors may hold their new value (R68). -/
def endMatch (s : State) (g : Group) (j st err : Nat) : State :=
  let l := matchOf s g j
  let n := g.members.length
  let src := sourceSoFar s g j l
  clearParts (l.foldl (fun s y =>
    let res := if err = 7 then collResult y.2 y.1 n src else []
    let (s1, map) := partialSectors s y.2 res (sectorsOf (collDst y.2) res.length) (s, [])
    let len := collDstLen y.2 n
    endMember s1 y.2 st err (if err = 7 then prefixBytes y.2 len map else 0)
      (bitmapBytes (if err = 7 then map else List.replicate (sectorsOf (collDst y.2) len) false))) s) g j

/-- Index j of a group ends without a result for every member on this device, those still to push included (R68, R307). -/
def killHere (s : State) (g : Group) (j st err : Nat) : State :=
  endMatch (modSame s g (fun h => { h with dead := h.dead ++ [(j, st, err)] })) g j st err

/-- Index j of a group ends without a result for every member, those on peers told of it. -/
def killMatch (s : State) (g : Group) (j st err : Nat) : State := killHere (tellPeers s g 0 0 j [st, err] true []).2 g j st err

/-- The sources of the ranks on this device that no engine has read yet are read, and given to the engines of peers with members (R307, R308): what stops it
is the first failing source by rank, or a page to wait for. -/
def readSources (s : State) (g : Group) (l : List (Nat × Cmd)) (j : Nat) : List Nat → Option (Sum Nat (Cmd × Nat × Trans)) × State
  | [] => (none, s)
  | r :: rs =>
    match rankSource s g j r, l.find? (fun y => y.1 = r) with
    | none, some (_, y) =>
      let (sp, s1) := spans s y.core y.user .engineIn (collSrc y) (collSrcLen y g.members.length)
      match sourceBytes s1 y [] sp with
      | (.error (.inl e), s2) => (some (.inl e), s2)
      | (.error (.inr (va, t)), s2) => (some (.inr (y, va, t)), s2)
      | (.ok bs, s2) =>
        let s3 := addPart s2 g { rank := r, seq := j, fields := matchFields y, dead := false, data := bs }
        match tellPeers s3 g y.rtag r j (matchFields y) false bs with
        | (some e, s4) => (some (.inl e), s4)
        | (none, s4) => readSources s4 g l j rs
    | _, _ => readSources s g l j rs

/-- One member's destination is written, its bitmap, and its completion: state 2 if its request left LIVE meanwhile (R68). One whose destination cannot be
written fails, and its bitmap says that it holds nothing new. -/
def finishMember (s : State) (g : Group) (y : Nat × Cmd) (src : Nat → Option (List Byte)) : State :=
  let x := y.2
  let res := (collResult x y.1 g.members.length src).filterMap id
  let map := fun (b : Bool) => bitmapBytes (List.replicate (sectorsOf (collDst x) res.length) b)
  match engineWrite s x (collDst x) res with
  | (some (.inl e), s1) => endMember s1 x 3 e 0 (map false)
  | (some (.inr _), s1) => endMember s1 x 3 4 0 (map false)
  | (none, s1) => endMember s1 x (if s.liveTag x.rtag then 1 else 2) 0 res.length (map true)

/-- The page a destination waits for, if any. -/
def destStop (s : State) (g : Group) (l : List (Nat × Cmd)) : Option (Cmd × Nat × Trans) :=
  l.findSome? (fun y =>
    match spanStop (spans s y.2.core y.2.user .engineOut (collDst y.2) (collDstLen y.2 g.members.length)).1 with
    | some (.inr (va, t)) => some (y.2, va, t)
    | _ => none)

/-- A collective whose members are all here goes on: it is accepted, and later performed whole (R308). -/
def runCollective (s : State) (x : Cmd) : State :=
  match groupOf s x with
  | none => endCmd s x 3 8 0
  | some g =>
    let l := matchOf s g x.seq
    if !matchFull s g x.seq then s
    else if !matchAgrees s g x.seq then killMatch s g x.seq 3 8
    else if !x.planned then
      (l.foldl (fun s y => modCmd s y.2.id (fun z => { z with planned := true, snap := s.mem, since := s.history.length })) s).post
        (.commandCompletion x.id)
    else
      let (source, s1) := readSources s g l x.seq (readRanks g x)
      let stop : Option (Sum Nat (Cmd × Nat × Trans)) := match source with
        | some w => some w
        | none => (destStop s1 g l).map Sum.inr
      match stop with
      | some (.inl e) => killMatch s1 g x.seq 3 e
      | some (.inr (y, va, t)) =>
        let (waits, s2) := awaitPage s1 y va t
        if waits then s2 else killMatch s2 g x.seq 3 4
      | none =>
        if (readRanks g x).all (fun r => (rankSource s1 g x.seq r).isSome) then
          clearParts (l.foldl (fun s y => finishMember s g y (rankSource s1 g x.seq)) s1) g x.seq
        else s1

/-! Taking a command. -/

/-- A collective command counts as its rank's next. -/
def countIndex (s : State) (g : Group) (rank : Nat) : Nat × State :=
  let j := indexAhead g rank 0
  (j, modGroup s g.die g.part g.id (fun g => { g with counts := put rank (j + 1) g.counts }))

/-- A range of the command names the lane store or the Closet, or leaves its space (R296). -/
def collSpace (s : State) (x : Cmd) (n : Nat) : Bool :=
  leavesSpace s x.core (collSrc x) (collSrcLen x n) || leavesSpace s x.core (collDst x) (collDstLen x n) ||
  (collMap x != 0 && leavesSpace s x.core (collMap x) ((sectorsOf (collDst x) (collDstLen x n) + 63) / 64 * 8))

/-- A collective command leaves its Hatch. One that ends at once without a result takes its match with it. -/
def takeCollective (s : State) (c h : Nat) : State :=
  match takeable s c h with
  | none => s
  | some l =>
    let x := cmdOf s c h l
    let s1 := takeWords s c h l.length
    let g := groupOf s1 x
    let rank := g.bind (fun g => rankOf g c)
    let n := match g with | some g => g.members.length | none => 0
    let bad := headerBad s1 x (l.any (fun e => e.failed)) || collBad x n
    match g, rank with
    | some g, some r =>
      let (j, s2) := countIndex s1 g r
      let y := { x with seq := j }
      let s3 : State := { s2 with colls := s2.colls ++ [y] }
      let stop := fun (st err : Nat) => killMatch s3 g j st err
      let refuse := fun (err : Nat) => killMatch (endCmd s3 y 3 err 0) g j 3 8
      if bad then refuse 2
      else if !s3.liveTag x.rtag then stop 2 7
      else
        match (completionError s3 x).or (routeError s3 g.members), g.dead.find? (fun d => d.1 = j) with
        | some e, _ => refuse e
        | none, some d => endMatch s3 g j d.2.1 d.2.2
        | none, none =>
          if collSpace s3 x n then refuse 3
          else
            match tellPeers s3 g x.rtag r j (matchFields x) false [] with
            | (some e, s4) => killMatch s4 g j 3 e
            | (none, s4) => if matchFull s4 g j then s4.post (.commandCompletion y.id) else s4
    | _, _ => if bad then endCmd s1 x 3 2 0 else if !s1.liveTag x.rtag then endCmd s1 x 2 0 0 else endCmd s1 x 3 8 0

/-- GROUP's own checks. -/
def groupBad (_ : State) (x : Cmd) : Bool := let h := x.words.getD 0 0; x.op != 12 || hNw h != 2 || fld h 18 5 != 0

def execCollGroup (core hatch : Nat) (s : State) : Out :=
  takeBy (.collGroup core hatch) core hatch (fun s => takeCmd s core hatch groupBad
    (fun s x => ({ s with colls := s.colls ++ [x] }).post (.commandCompletion x.id))) s
def execCollAllreduce (core hatch : Nat) (s : State) : Out :=
  takeBy (.collAllreduce core hatch) core hatch (fun s => takeCollective s core hatch) s
def execCollAllgather (core hatch : Nat) (s : State) : Out :=
  takeBy (.collAllgather core hatch) core hatch (fun s => takeCollective s core hatch) s
def execCollRedscat (core hatch : Nat) (s : State) : Out :=
  takeBy (.collRedscat core hatch) core hatch (fun s => takeCollective s core hatch) s
def execCollBcast (core hatch : Nat) (s : State) : Out :=
  takeBy (.collBcast core hatch) core hatch (fun s => takeCollective s core hatch) s

/-! Annulment (R68). -/

/-- Annulment reaches a collective command at the engine: one not yet accepted ends its match for every member. -/
def annulColl (s : State) (x : Cmd) : State :=
  if x.op = 12 then endCmd s x 2 0 0
  else if x.planned then s
  else
    match groupOf s x with
    | some g => killMatch s g x.seq 2 7
    | none => endCmd s x 2 0 0

/-- A collective command is dropped in its Hatch with k others of its rank ahead of it: its index is skipped, and its match ends. -/
def annulQueuedColl (s : State) (x : Cmd) (k : Nat) : State :=
  match groupOf s x with
  | none => endCmd s x 2 0 0
  | some g =>
    match rankOf g x.core with
    | none => endCmd s x 2 0 0
    | some r =>
      let j := indexAhead g r k
      let s1 := modGroup { s with colls := s.colls ++ [{ x with seq := j }] } g.die g.part g.id (fun g => { g with skips := g.skips ++ [(r, j)] })
      killMatch s1 g j 2 7

end Sys2Proof.Machine
end

