-- ==== Sys2Proof/Machine/Cellar.lean ====
section
/-! DEFINITION. The Cellar engines: block commands, fault service, and the drives (R309, R310, R399, R430), with the end of a walk (R40, R397). -/

namespace Sys2Proof.Machine

/-! Block commands (R309, R310). -/

def cellarNs (x : Cmd) : Nat := fld (x.words.getD 0 0) 18 8
def cellarAddr (x : Cmd) : Word := x.words.getD 2 0
def cellarFirst (x : Cmd) : Nat := fld (x.words.getD 3 0) 0 48
def cellarCount (x : Cmd) : Nat := fld (x.words.getD 4 0) 0 32

/-- Their own checks (R296, R309). -/
def cellarBad (_ : State) (x : Cmd) : Bool :=
  let h := x.words.getD 0 0
  (x.op != 16 && x.op != 17) || hNw h != 4 || fld h 26 5 != 0 || fld (x.words.getD 3 0) 48 16 != 0 ||
  fld (x.words.getD 4 0) 32 32 != 0 || cellarCount x = 0 || decide (65536 < cellarCount x)

/-- The pieces of a command: NVMe commands of up to 32 blocks, in ascending order (R310). -/
def cellarPieces (first n : Nat) (a : Word) : List (Nat × Word × Nat) :=
  (List.range ((n + 31) / 32)).map (fun i => (first + 32 * i, a + wd (131072 * i), min 32 (n - 32 * i)))

/-- The namespace as Valsis found it. -/
def namespaceOf (s : State) (port nsid : Nat) : Option Namespace := (s.drive port).spaces.find? (fun n => n.nsid = nsid)

/-- BYTES: the longest prefix of whole pieces that succeeded. -/
def pieceBytes (x : Cmd) : Nat :=
  sumN (((x.pieces.zipIdx).takeWhile (fun p => x.wrote.any (fun w => w.1 = p.2 && w.2 = 0))).map (fun p => p.1.2.2 * 4096))

/-- The command's request has left LIVE: none of a read's data is written and nothing more is submitted (R61, R64). -/
def cellarEnd (s : State) (x : Cmd) : State :=
  if !s.liveTag x.rtag then endCmd s x 2 0 (if x.op = 17 then pieceBytes x else 0)
  else if x.error != 0 then endCmd s x 3 x.error (pieceBytes x)
  else endCmd s x 1 0 (pieceBytes x)

/-- A command fails: nothing more of it is submitted, and it ends once the drive has finished its pieces. -/
def cellarFail (s : State) (x : Cmd) (err : Nat) : State :=
  let y := { x with error := err, left := [] }
  if (outstanding y).isEmpty then cellarEnd s y else modCmd s x.id (fun _ => y)

/-- A service waits for a frame: its page is in the fault buffer with NOFRAME, or held at its core until an entry frees (R399, R401). -/
def waitsFrame (s : State) (v : Service) : Bool :=
  let b := s.faultBuf v.die
  v.frame.isNone && (b.entries ++ b.held).any (fun e => e.covers v.part (v.page * 65536) && e.reason = 3)

/-- Services that only wait for room in their drive's queues. -/
def queuedServices (s : State) (q : Nat) : List Service := s.services.filter (fun v => v.port = q && v.frame.isNone && !waitsFrame s v)

/-- A drive's queues have room again: its services go first (R310, R429). -/
def serveQueued (s : State) (q : Nat) : State := (queuedServices s q).foldl (fun s v => submitService s v.core v) s

/-- The NVMe command of piece k of a block command, with the bytes a WRITE carries. -/
def pieceCommand (s : State) (x : Cmd) (k : Nat) (data : List Byte) : NvmeCmd :=
  let p := x.pieces.getD k (0, 0, 0)
  { id := pieceId x.id k, port := x.port, nsid := fld (s.reg (nsassignAddr x.part (cellarNs x))) 0 32, write := x.op = 17, first := p.1, blocks := p.2.2,
    data := data }

/-- Submit pieces in order while fewer than 16 are with the drive, and its queues have room (R310, R429). A WRITE reads its source now, and takes it to the
drive; a READ's pages must be there. -/
def submitPieces (s : State) (x : Cmd) : Nat → State
  | 0 => modCmd s x.id (fun _ => x)
  | f + 1 =>
    match x.left with
    | [] => if (outstanding x).isEmpty then cellarEnd s x else modCmd s x.id (fun _ => x)
    | k :: r =>
      let held := modCmd s x.id (fun _ => x)
      if decide (16 ≤ (outstanding x).length) || decide (driveSlots ≤ driveLoad held x.port) || !(queuedServices held x.port).isEmpty then held
      else if !(s.drive x.port).ready then cellarFail s x 15
      else
        let p := x.pieces.getD k (0, 0, 0)
        let (l, s1) := spans s x.core x.user (if x.op = 17 then .engineIn else .engineOut) p.2.1 (p.2.2 * 4096)
        let (read, s2) : Except Stop (List Byte) × State :=
          match spanStop l with
          | some e => (.error e, s1)
          | none => if x.op = 17 then sourceBytes s1 { x with since := s1.history.length, snap := s1.mem } [] l else (.ok [], s1)
        match read with
        | .error (.inl e) => cellarFail s2 x e
        | .error (.inr (va, t)) =>
          let (waits, s3) := awaitPage (modCmd s2 x.id (fun _ => x)) x va t
          if waits then s3 else cellarFail s3 x 4
        | .ok bs =>
          submitPieces { s2 with nvme := s2.nvme ++ [pieceCommand s2 x k bs] } { x with left := r, sent := true, times := put k s2.time x.times } f

/-- A block command starts (R296, R299, R309). A namespace that another engine's drive holds counts as not assigned, a DESIGN CHOICE, log 16. -/
def startCellar (s : State) (x : Cmd) : State :=
  let ns := s.reg (nsassignAddr x.part (cellarNs x))
  let port := fld ns 32 3
  let e := (s.hatch x.core x.hatch).arg % 2
  let info := namespaceOf s port (fld ns 0 32)
  let n := cellarCount x
  if leavesSpace s x.core (cellarAddr x) (n * 4096) then endCmd s x 3 3 0
  else if !bit ns 63 || port != dieOf x.core * 2 + e || (match info with | some i => !i.format | none => false) then endCmd s x 3 9 0
  else if (match info with | some i => decide (i.blocks < cellarFirst x + n) | none => false) then endCmd s x 3 10 0
  else if !(s.drive port).ready then endCmd s x 3 15 0
  else
    let y := { x with port := port, pieces := cellarPieces (cellarFirst x) n (cellarAddr x), left := List.range ((n + 31) / 32) }
    submitPieces { s with cellars := s.cellars ++ [y] } y (n + 1)

def execCellarRead (core hatch : Nat) (s : State) : Out :=
  takeBy (.cellarRead core hatch) core hatch (fun s => takeCmd s core hatch cellarBad startCellar) s
def execCellarWrite (core hatch : Nat) (s : State) : Out :=
  takeBy (.cellarWrite core hatch) core hatch (fun s => takeCmd s core hatch cellarBad startCellar) s

/-- The drive has finished piece k of a command. A READ's data is written if the command still stands. -/
def pieceDone (s : State) (x : Cmd) (k status : Nat) (data : List Byte) : State :=
  let p := x.pieces.getD k (0, 0, 0)
  let n := p.2.2 * 4096
  let take := x.op = 16 && status = 0 && x.error = 0 && s.liveTag x.rtag
  let (l, s1) := if take then spans s x.core x.user .engineOut p.2.1 n else ([], s)
  let lost := match spanStop l with | some (.inl e) => some e | some (.inr _) => some 4 | none => none
  let (refused, s2) := if take && lost.isNone then writeSpans s1 x l ((data ++ List.replicate n 0).take n) else (none, s1)
  let lost := lost.or refused
  let err := if status = 0 then lost else some (0x2000 + status % 2048)
  let y := { x with wrote := put k (if err.isSome then status + 1 else 0) x.wrote }
  match err with
  | some e => if y.error = 0 then cellarFail s2 y e else cellarFail s2 y y.error
  | none =>
    if !s.liveTag x.rtag then
      let z := { y with left := [] }
      if (outstanding z).isEmpty then cellarEnd s2 z else modCmd s2 x.id (fun _ => z)
    else if y.error != 0 then cellarFail s2 y y.error
    else submitPieces s2 y (y.left.length + 1)

/-! The end of a walk (R40, R397). -/

/-- Save a fault-held task whose page is in service (R40): its copies suspend, and the slot is free. With no place for it beside the places of a started
preemption (R361), the slot stays held until the page is mapped. -/
def suspendFault (s : State) (g va : Nat) : State :=
  let stay := s.modSlot g (fun t => { t with stays := true })
  if !canSave s g then stay
  else
    let s1 := stopUnit (undoIssue s g) g
    let s2 := s1.modSlot g (fun t => { t with wait := none, state := .ready, vprog := 0 })
    match saveContext (suspendCopies s2 g true) g (some va) none with
    | none => stay
    | some (_, s3) => if keepsRoom s3 (coreOf g) then vacate s3 g else stay

/-- The walk of a fault-held slot's page has ended: mapped, the access is performed again; in Cellar service, the task is suspended, once, and not while it
is being preempted; a fault that firmware must service is reported, if it is not yet, and the slot stays held. -/
def walkEnded (s : State) (g : Nat) : State :=
  let c := coreOf g
  match (s.slot g).wait with
  | some (.fault va) =>
    let again := (dropRecord s c (s.slot g).ctx va).modSlot g Slot.goesOn
    if (tlbFind s c va).isSome then again
    else
      match walk s (s.partOf c) va with
      | .leaf _ _ _ _ _ => again
      | .absent _ _ _ _ =>
        if s.services.any (fun v => v.part = s.partOf c && v.page = va / 65536) then
          (if (s.slot g).stays || isVictim s g then s else suspendFault s g va)
        else again
      | .fault l r => raiseFault s c va (s.slot g).fkind (s.slot g).rtag l r (s.slot g).ctx
  | _ => s

def execWalkComplete (g : Nat) (s : State) : Out := eventOf (decide (g < 32768)) (fun s => walkEnded s g) s

/-- Every slot of a partition held on a page walks again. -/
def rewalk (s : State) (p page : Nat) : State :=
  s.slots.foldl (fun s t =>
    match t.2.wait with
    | some (.fault va) => if s.partOf (coreOf t.1) = p && va / 65536 = page then s.post (.walkComplete t.1) else s
    | _ => s) s

/-! Fault service (R399). -/

/-- READY (R377): word 0 of the message a supervised core sends itself. -/
def readyWord (place rtag : Nat) : Word := wd (2 ^ 63 + at_ (place % 16) 18 + rtag % 2 ^ 18)

/-- The contexts of a partition suspended on a page are eligible again (R40), and may move out of a full Closet (R51); a supervised core tells its kernel
(R377). -/
def returnContexts (s : State) (p page : Nat) : State :=
  s.cores.foldl (fun s k =>
    let c := k.1
    if s.partOf c != p then s
    else
      ((s.core c).saved.filter (fun x => match x.fault with | some va => decide (va / 65536 = page) | none => false)).foldl (fun s x =>
        let s1 := modSaved s c x.num (fun x => { x with fault := none })
        let s2 := if (s.core c).sched then
            sendSelf s1 c (fld (headerAt s c x) 1 4) [readyWord (x.place.getD 0) x.rtag, read64 s.mem ((partsOf s c x).scalar + 0xF8)]
          else s1
        moveOne s2 c) s) s

/-- A core's stores logged for a page are replayed; one whose page still faults reports it anew (R402). -/
def retryLogged (s : State) (c page : Nat) : State :=
  let s1 := replayPage s c page
  match (s1.core c).sideLog.find? (fun e => e.va / 65536 = page) with
  | none => s1
  | some e =>
    let kind := faultKind (e.op.access e.vec)
    match walk s1 (s1.partOf c) e.va with
    | .fault l r => raiseFault s1 c e.va kind e.rtag l r e.ctx
    | .absent en leaf ext _ => startService s1 c e.va e.rtag en leaf ext
    | _ => s1

/-- Every core of a partition replays its entries of a page. -/
def replayAll (s : State) (p page : Nat) : State :=
  s.cores.foldl (fun s k => if s.partOf k.1 = p && pageLogged s k.1 (page * 65536) then retryLogged s k.1 page else s) s

/-- The service is over, its page mapped or its faults to be met anew. -/
def serviceOver (s : State) (v : Service) : State :=
  let s1 := endServices s (fun x => x.id = v.id)
  rewalk (returnContexts (replayAll s1 v.part v.page) v.part v.page) v.part v.page

/-- Step 1 again, from a fresh walk (R399 step 3). -/
def restartService (s : State) (v : Service) : State :=
  match walk s v.part (v.page * 65536) with
  | .absent e leaf ext _ =>
    let w := { v with leafPa := e, leaf := leaf, ext := ext, frame := none, port := fld (leafAssign s v.part leaf) 32 3 }
    if serviceBad s v.part leaf then failPage s v.part v.page .storage
    else submitService { s with services := s.services.map (fun x => if x.id = v.id then w else x) } v.core w
  | _ => serviceOver s v

/-- The frame holds the page's data, its tags empty (R399 step 2); what a running command reads there is no older (R303), and what waited for the page may wait
for it again should it leave. -/
def landPage (s : State) (v : Service) (f : Nat) (data : List Byte) : State :=
  let bs := (data ++ List.replicate 65536 0).take 65536
  let s1 := publishCells s (cellsAt f bs) v.ext none none
  let s2 : State := { s1 with tags := s1.tags.filter (fun a => !(decide (f ≤ a) && decide (a < f + 65536))) }
  let came := fun (x : Cmd) =>
    let x := if x.part = v.part then { x with waits := x.waits.filter (· != v.page) } else x
    if x.ended || (x.op = 20 && x.planned) then x
    else { x with landed := put (f / 65536) s2.history.length x.landed, snap := x.snap.writes (cellsAt f bs) }
  { s2 with
    clusters := s2.clusters.map (fun k => (k.1, { k.2 with copies := k.2.copies.map came }))
    colls := s2.colls.map came, sends := s2.sends.map came, kept := s2.kept.map came
    cellars := s2.cellars.map (fun x => if x.part = v.part then { x with waits := x.waits.filter (· != v.page) } else x)
    inbox := s2.inbox.map (fun w => (w.1, w.2.filter (· != v.page))) }

/-- The leaf of a page now resident in a frame: PFN, RES and A (R399 step 3). -/
def residentLeaf (leaf : Word) (f : Nat) : Word := wd (leaf.toNat - at_ (fld leaf 16 36) 16 + f) ||| 0x8040#64

/-- The drive has read a service's page, or failed it. -/
def serviceDone (s : State) (v : Service) (f status : Nat) (data : List Byte) : State :=
  if status != 0 then failPage (putFrame s v.die v.part f) v.part v.page .storage
  else
    let s1 := landPage s v f data
    if read64 s1.mem v.leafPa = v.leaf then
      serviceOver (publishCells s1 (cellsAt v.leafPa (leBytes (residentLeaf v.leaf f).toNat 8)) 0 none none) v
    else restartService (putFrame s1 v.die v.part f) v

/-- A drive completes a Read or Write (R310, R399), and its queues have room. A completion of nothing outstanding changes nothing. -/
def nvmeDone (s : State) (id status : Nat) (data : List Byte) : State :=
  match s.services.find? (fun v => pieceId v.id 0 = id && v.frame.isSome) with
  | some v => serveQueued (serviceDone s v (v.frame.getD 0) status data) v.port
  | none =>
    match s.cellars.find? (fun x => x.id = id / 4096) with
    | some x =>
      if x.ended then s
      else if (outstanding x).contains (id % 4096) then serveQueued (pieceDone s x (id % 4096) status data) x.port
      else s
    | none => s

def execNvmeCompletion (id status : Nat) (data : List Byte) (s : State) : Out := eventOf true (fun s => nvmeDone s id status data) s

/-! Drives (R430). -/

/-- Valsis resets a controller: its commands fail with LINK, its services as a drive error, and vector 4 is raised. -/
def resetDrive (s : State) (q : Nat) : State :=
  let s1 := raiseVector { s with drives := put q { s.drive q with ready := false } s.drives } 4
  let s2 := (s1.services.filter (fun v => v.port = q && !waitsFrame s1 v)).foldl (fun s v =>
    failPage (match v.frame with | some f => putFrame s v.die v.part f | none => s) v.part v.page .storage) s1
  (s2.cellars.filter (fun x => x.port = q && !x.ended)).foldl (fun s x =>
    cellarEnd s { x with error := if x.error = 0 then 15 else x.error, left := [] }) s2

/-- A command or a service's read has been with the drive for 30 seconds of TIME. -/
def driveLate (s : State) (q : Nat) : Bool :=
  let late := fun (t : Nat) => decide (t + 30000000000 ≤ s.time)
  s.cellars.any (fun x => x.port = q && !x.ended && (outstanding x).any (fun k => late (look 0 k x.times))) ||
    s.services.any (fun v => v.port = q && v.frame.isSome && late v.since)

def execDriveTimeout (port : Nat) (s : State) : Out :=
  eventOf (decide (port < 8)) (fun s => if driveLate s port then resetDrive s port else s) s
def execDriveLinkDown (port : Nat) (s : State) : Out :=
  eventOf (decide (port < 8)) (fun s => if (s.drive port).present then resetDrive s port else s) s
/-- The controller is ready again. -/
def execDriveControllerReady (port : Nat) (s : State) : Out :=
  eventOf (decide (port < 8)) (fun s =>
    if (s.drive port).present then { s with drives := put port { s.drive port with ready := true } s.drives } else s) s

end Sys2Proof.Machine
end

