-- ==== Sys2Proof/Machine/Stairs.lean ====
section
/-! DEFINITION. Stairs: SEND, RESET, BUF and FREE, the records they carry, and the failure of a die-to-die link (R69, R295, R311-R314, R431). -/

namespace Sys2Proof.Machine

/-- A STAIR command's direction (R431). -/
def dirOf (s : State) (x : Cmd) : Nat := stairDir x.core (s.hatch x.core x.hatch)

/-- The signed 32-bit difference a - b (R313). -/
def diff32 (a b : Nat) : Int := (BitVec.ofInt 32 ((a : Int) - (b : Int))).toInt

/-! Fields (R311, R312). -/

def stairAddr (x : Cmd) : Word := x.words.getD 2 0
def sendNumber (x : Cmd) : Nat := fld (x.words.getD 3 0) 0 32
def bufSlots (x : Cmd) : Nat := fld (x.words.getD 3 0) 0 9
def bufFirst (x : Cmd) : Nat := fld (x.words.getD 3 0) 32 32
/-- w2 of RESET and FREE. -/
def stairNumber (x : Cmd) : Nat := fld (x.words.getD 2 0) 0 32

/-- A ring lies in a scratchpad, CSM or die scratchpad window, or in global memory (R312). -/
def ringSpace (a : Word) : Bool :=
  match spaceOf a with
  | .global => true
  | .window w => w = 0 || w = 2 || w = 3
  | _ => false

/-- A command's own checks (R296, R311, R312). A ring elsewhere is a field outside its range, DEDUCED, log 17. -/
def stairBad (s : State) (x : Cmd) : Bool :=
  let h := x.words.getD 0 0
  let receive := (s.hatch x.core x.hatch).arg / 2 % 2 = 1
  let w2 := x.words.getD 2 0
  let w3 := x.words.getD 3 0
  hArg h != 0 ||
  (match x.op with
    | 20 => receive || hNw h != 3 || fld w3 32 32 != 0
    | 21 => receive || hNw h != 2 || fld w2 32 32 != 0
    | 22 => !receive || hNw h != 3 || fld w3 9 23 != 0 || bufSlots x = 0 || decide (256 < bufSlots x) || !ringSpace w2 ||
        !(s.hatch x.core x.hatch).entries.isEmpty
    | 23 => !receive || hNw h != 2 || fld w2 32 32 != 0
    | _ => true)

/-! The sender. -/

/-- A SEND ends: it leaves its direction's queue even while its completion word waits for its page. -/
def endSend (s : State) (x : Cmd) (st err bytes : Nat) : State :=
  endCmd { s with stairs := s.stairs.map (fun d => (d.1, { d.2 with queue := d.2.queue.filter (· != x.id) })) } x st err bytes

/-- A SEND reads its record, once the record's pages are there. -/
def readRecord (s : State) (x : Cmd) : State :=
  let y := { x with since := s.history.length, snap := s.mem }
  let (l, s1) := spans s x.core x.user .engineIn (stairAddr x) 256
  match sourceBytes s1 y [] l with
  | (.error (.inl e), s2) => endSend s2 x 3 e 0
  | (.error (.inr (va, t)), s2) =>
    let (waits, s3) := awaitPage s2 x va t
    if waits then s3 else endSend s3 x 3 4 0
  | (.ok bs, s2) => modCmd s2 x.id (fun z => { z with planned := true, snap := Memory.writes [] (cellsAt 0 bs) })

/-- A SEND joins its direction's queue (R311). -/
def startSend (s : State) (x : Cmd) : State :=
  let d := dirOf s x
  if leavesSpace s x.core (stairAddr x) 256 then endCmd s x 3 3 0
  else if !look false (d / 2) s.dieLinks then endCmd s x 3 15 0
  else
    let s1 := ({ s with sends := s.sends ++ [x] }).modStair d (fun t => { t with queue := t.queue ++ [x.id] })
    readRecord s1 x

/-- The complete SENDs among a Hatch's command words that were pushed before number n fail with RESET and leave it; its other commands stay. -/
def resetFrom (s : State) (c h before : Nat) (rest kept : List HatchEntry) : Nat → State
  | 0 => s
  | f + 1 =>
    match rest with
    | [] => s.setHatch c h { s.hatch c h with cmd := kept }
    | e :: _ =>
      let n := hNw e.value + 1
      let x := cmdOf s c h (rest.take n)
      if hOp e.value = 20 && decide (n ≤ rest.length) && decide (x.pushed < before) then
        resetFrom (endCmd { s with nextId := s.nextId + 1 } x 3 13 0) c h before (rest.drop n) kept f
      else resetFrom s c h before (rest.drop n) (kept ++ rest.take n) f

/-- The SENDs of direction d that stand complete in Hatches and were pushed before the RESET fail with it (R314). -/
def resetQueued (s : State) (d : Nat) (x : Cmd) : State :=
  s.cores.foldl (fun s k =>
    (List.range 16).foldl (fun s h =>
      let q := s.hatch k.1 h
      if q.kind = 5 && q.arg / 2 % 2 = 0 && stairDir k.1 q = d then resetFrom s k.1 h x.pushed q.cmd [] 9 else s) s) s

/-- A RESET fails the SENDs of its direction pushed before it and not yet accepted, and goes to the receiver (R314). -/
def startReset (s : State) (x : Cmd) : State :=
  let d := dirOf s x
  if !look false (d / 2) s.dieLinks then endCmd s x 3 15 0
  else
    let before := s.sends.filter (fun y => (s.stair d).queue.contains y.id && !y.ended && decide (y.pushed < x.pushed))
    let s1 := before.foldl (fun s y => endSend s y 3 13 0) s
    let s2 := resetQueued s1 d x
    ({ s2 with sends := s2.sends ++ [{ x with seq := d }] }).post (.stairResetArrival d x.id)

/-! The receiver. -/

/-- BUF makes the receiver's ring (R312). -/
def startBuf (s : State) (x : Cmd) : State :=
  if leavesSpace s x.core (stairAddr x) (256 * bufSlots x) then endCmd s x 3 3 0
  else
    endCmd (s.modStair (dirOf s x) (fun t =>
      { t with made := true, base := stairAddr x, core := x.core, hatch := x.hatch, user := x.user, n := bufSlots x, e := bufFirst x,
               f := (bufFirst x + 2 ^ 32 - 1) % 2 ^ 32 })) x 1 0 0

/-- The ring of a direction is another partition's: R406 refuses the record, RESET or FREE, and the model's refusal is PERM, with nothing changed, DESIGN CHOICE,
log 17. -/
def foreignRing (s : State) (dir part : Nat) : Bool := (s.stair dir).made && s.partOf (s.stair dir).core != part

/-- FREE advances the freed number (R312). -/
def startFree (s : State) (x : Cmd) : State :=
  if foreignRing s (dirOf s x) x.part then endCmd s x 3 5 0
  else
  endCmd (s.modStair (dirOf s x) (fun t => if 0 < diff32 (stairNumber x) t.f then { t with f := stairNumber x } else t)) x 1 0 0

def execStairSend (core hatch : Nat) (s : State) : Out :=
  takeBy (.stairSend core hatch) core hatch (fun s => takeCmd s core hatch stairBad startSend) s
def execStairReset (core hatch : Nat) (s : State) : Out :=
  takeBy (.stairReset core hatch) core hatch (fun s => takeCmd s core hatch stairBad startReset) s
def execStairBuf (core hatch : Nat) (s : State) : Out :=
  takeBy (.stairBuf core hatch) core hatch (fun s => takeCmd s core hatch stairBad startBuf) s
def execStairFree (core hatch : Nat) (s : State) : Out :=
  takeBy (.stairFree core hatch) core hatch (fun s => takeCmd s core hatch stairBad startFree) s

/-- The receive Hatch of a direction still carries it and has a free entry. -/
def arrivalRoom (s : State) (dir : Nat) : Bool :=
  let t := s.stair dir
  let h := s.hatch t.core t.hatch
  h.kind = 5 && h.arg / 2 % 2 = 1 && stairDir t.core h = dir && hatchRoom s t.core t.hatch

/-- The record at the head of a direction's queue, once it has been read. -/
def headRecord (s : State) (dir : Nat) : Option Cmd :=
  match (s.stair dir).queue with
  | [] => none
  | i :: _ => (s.sends.find? (fun x => x.id = i)).bind (fun x => if x.planned && !x.ended then some x else none)

/-- R313's rows. -/
inductive Verdict where
  | wait | refused | dup | order | dropped | accept
  deriving DecidableEq, Repr

/-- What the receiver says of a record (R313). -/
def verdict (s : State) (dir : Nat) (x : Cmd) : Verdict :=
  let t := s.stair dir
  let d := diff32 (sendNumber x) t.e
  if !t.made then .wait
  else if foreignRing s dir x.part then .refused
  else if d < 0 then .dup
  else if 0 < d then .order
  else if !s.liveTag x.rtag then .dropped
  else if (t.n : Int) < diff32 (sendNumber x) t.f || !arrivalRoom s dir then .wait
  else .accept

/-- The expected number goes one up (R69, R313). -/
def expectNext (s : State) (dir : Nat) : State := s.modStair dir (fun t => { t with e := (t.e + 1) % 2 ^ 32 })

/-- The word that announces a record (R312). -/
def arrivalWord (seq rtag : Nat) : Word := wd (at_ seq 32 + rtag % 2 ^ 18)

/-- Write a record to its slot and announce it. The receiver's pages are checked for the task that made the ring; one that refuses the write fails
the SEND and leaves E, a DESIGN CHOICE, log 17. -/
def acceptRecord (s : State) (dir : Nat) (x : Cmd) : State :=
  let t := s.stair dir
  let n := sendNumber x
  let y : Cmd := { x with core := t.core, user := t.user, part := s.partOf t.core }
  let (l, s1) := spans s t.core t.user .engineOut (t.base + wd (n % t.n * 256)) 256
  match spanStop l with
  | some (.inl e) => endSend s1 x 3 e 0
  | some (.inr (va, tr)) =>
    let (waits, s2) := awaitPage s1 y va tr
    if waits then s2 else endSend s2 x 3 4 0
  | none =>
    match writeSpans s1 y l (x.snap.readN 0 256) with
    | (some e, s2) => endSend s2 x 3 e 0
    | (none, s2) =>
    let s2 := expectNext s2 dir
    let h := s2.hatch t.core t.hatch
    endSend (s2.setHatch t.core t.hatch { h with entries := h.entries ++ [{ value := arrivalWord n x.rtag, rtag := x.rtag }] }) x 1 0 256

/-- The receiver settles the head of a direction's queue (R313). -/
def settleRecord (s : State) (dir : Nat) : State :=
  match headRecord s dir with
  | none => s
  | some x =>
    match verdict s dir x with
    | .wait => s
    | .refused => endSend s x 3 5 0
    | .dup => endSend s x 3 11 0
    | .order => endSend s x 3 12 0
    | .dropped => endSend (expectNext s dir) x 2 0 0
    | .accept => acceptRecord s dir x

def execStairRecordArrival (dir : Nat) (s : State) : Out := eventOf (decide (dir < 8)) (fun s => settleRecord s dir) s

/-- A RESET reaches the receiver: its numbers, and the arrival words after the committed number (R314). -/
def applyReset (s : State) (dir : Nat) (x : Cmd) : State :=
  let c := stairNumber x
  let t := s.stair dir
  if foreignRing s dir x.part then endCmd s x 3 5 0
  else
  let s1 := s.modStair dir (fun t => { t with e := (c + 1) % 2 ^ 32, f := c })
  let s2 :=
    if t.made then
      let h := s1.hatch t.core t.hatch
      if h.kind = 5 && h.arg / 2 % 2 = 1 then
        s1.setHatch t.core t.hatch { h with entries := h.entries.filter (fun e => decide (diff32 (fld e.value 32 32) c ≤ 0)) }
      else s1
    else s1
  endCmd s2 x 1 0 0

/-- `number` names the RESET command under way. -/
def execStairResetArrival (dir number : Nat) (s : State) : Out :=
  eventOf (decide (dir < 8)) (fun s =>
    match s.sends.find? (fun x => x.id = number && x.op = 21 && x.seq = dir && !x.ended) with
    | some x => applyReset s dir x
    | none => s) s

/-- A SEND of an annulled request: the record at the head of its direction's queue, once read, is the receiver's to settle, which drops it and counts it (R69, R313); one
behind it, or not yet read, is queued at the sender and dropped there (R64). -/
def annulSend (s : State) (x : Cmd) : State :=
  match (List.range 8).find? (fun d => (s.stair d).queue.head? = some x.id) with
  | some d => if x.planned && decide (verdict s d x = .dropped) then endSend (expectNext s d) x 2 0 0 else endSend s x 2 0 0
  | none => endSend s x 2 0 0

/-- A die-to-die link fails: UP reads 0, and commands in flight over it fail with LINK (R295, R299). Copies, collectives and memory traffic between dies go on: R15
has traffic of opposite dies pass through either intermediate die, and no rule says what a failed link does to any but Stair commands, DESIGN CHOICE, log 66. -/
def failStair (s : State) (k : Nat) : State :=
  let s1 : State := { s with dieLinks := put k false s.dieLinks }
  (s1.sends.filter (fun x => !x.ended && ((s1.stair (2 * k)).queue.contains x.id || (s1.stair (2 * k + 1)).queue.contains x.id
    || (x.op = 21 && x.seq / 2 = k)))).foldl (fun s x => endSend s x 3 15 0) s1

def execDieToDieLinkFailure (stair : Nat) (s : State) : Out := eventOf (decide (stair < 4)) (fun s => failStair s stair) s

end Sys2Proof.Machine
end

