-- ==== Sys2Proof/Machine/Annul.lean ====
section
/-! DEFINITION. Annulment: the expiry scanner, the sweep of a die by the annul notice, the end of a slot, and the acknowledgement (R60-R70). -/

namespace Sys2Proof.Machine

/-- The expiry scanner finds the instant passed (R60). -/
def expire (s : State) (r : Nat) : State :=
  if (s.req r).state = .live && reached (s.req r).instant s.time then leave s r 0 .annulled else s

def execRequestExpiry (rtag : Nat) (s : State) : Out :=
  eventOf (decide (0 < rtag) && decide (rtag < 2 ^ 18)) (fun s => expire s rtag) s

/-! The sweep of one die (R64). `sel` picks its cores. -/

/-- A dropped command in a Hatch of core c, whole or as far as it has been pushed: its completion says annulled; a collective's match ends with it (R68). `kept` are the commands left
ahead of it. -/
def dropCommand (s : State) (c h : Nat) (l kept : List HatchEntry) : State :=
  let x := cmdOf s c h l
  let s1 : State := { s with nextId := s.nextId + 1 }
  let collective := fun (v : Word) => decide (8 ≤ hOp v) && decide (hOp v ≤ 11)
  if (s.hatch c h).kind = 3 && collective (l.headD { value := 0 }).value then
    annulQueuedColl s1 x (headsOf kept 0).length
  else endCmd s1 x 2 0 0
where
  /-- The collective commands of the same group among kept words. -/
  headsOf (kept : List HatchEntry) : Nat → List HatchEntry
    | skip => match kept with
      | [] => []
      | e :: r =>
        match skip with
        | 0 => if decide (8 ≤ hOp e.value) && decide (hOp e.value ≤ 11) && fld e.value 23 8 = fld (l.headD { value := 0 }).value 23 8
               then e :: headsOf r (hNw e.value) else headsOf r (hNw e.value)
        | n + 1 => headsOf r n

/-- Go through a Hatch's commands, dropping those of a tag and keeping the rest. With `part` a partial one of the tag is dropped too, at once (R297): the Hatch remembers
how many of its words are still to come, and from whom. -/
def dropFrom (s : State) (c h r : Nat) (part : Bool) (rest kept : List HatchEntry) : Nat → State
  | 0 => s
  | f + 1 =>
    match rest with
    | [] => s.setHatch c h { s.hatch c h with cmd := kept }
    | e :: _ =>
      let n := hNw e.value + 1
      if e.rtag = r && (part || decide (n ≤ rest.length)) then
        let s1 := dropCommand s c h (rest.take n) kept
        let s2 := if n ≤ rest.length then s1 else s1.setHatch c h { s1.hatch c h with rest := some (n - rest.length, e.ctx) }
        dropFrom s2 c h r part (rest.drop n) kept f
      else dropFrom s c h r part (rest.drop n) (kept ++ rest.take n) f

/-- The commands of a tag still in Hatches are dropped, annulled. -/
def dropQueued (s : State) (r : Nat) (sel : Nat → Bool) : State :=
  s.cores.foldl (fun s k =>
    if !sel k.1 then s
    else (List.range 16).foldl (fun s h =>
      if (s.hatch k.1 h).isEngine && (s.hatch k.1 h).cmd.any (fun e => e.rtag = r) then
        dropFrom s k.1 h r true (s.hatch k.1 h).cmd [] 9
      else s) s) s

/-- CRs of the tag leave the die's ready queues; those in rings stay. -/
def sweepQueues (s : State) (r d : Nat) : State :=
  { s with levels := s.levels.map (fun v =>
      if qDieOf (v.1 / 4) = d then (v.1, { v.2 with entries := v.2.entries.filter (fun cr => cr.rtag != r) }) else v) }

/-- Deferrals of the tag's slots at slices of die d are freed with nothing performed (R64); the slots wait to be ended. -/
def sweepDeferrals (s : State) (r d : Nat) : State :=
  let mine := s.deferred.filter (fun x => (s.slot x.g).rtag = r && x.slice / 128 = d)
  mine.foldl (fun s x => s.modSlot x.g (fun t => { t with wait := some .turn }))
    { s with deferred := s.deferred.filter (fun x => !((s.slot x.g).rtag = r && x.slice / 128 = d)) }

/-- Saved contexts of the tag are discarded with their places, their partial commands, and the faults held for them. -/
def sweepSaved (s : State) (r : Nat) (sel : Nat → Bool) : State :=
  s.cores.foldl (fun s k =>
    if !sel k.1 then s
    else ((s.core k.1).saved.filter (fun x => x.rtag = r)).foldl (fun s x =>
      dropSaved (untie (dropHeld (dropPartial s k.1 x.num 2 0) k.1 x.num) k.1 x.num) k.1 x.num) s) s

/-- Stores and reductions of the tag leave the side logs, never replayed, and no load waits for their refresh (R196). -/
def sweepLogs (s : State) (r : Nat) (sel : Nat → Bool) : State :=
  { s with cores := s.cores.map (fun k =>
      if sel k.1 then
        (k.1, { k.2 with
          sideLog := k.2.sideLog.filter (fun e => e.rtag != r)
          acqs := k.2.acqs.filter (fun a => !(k.2.sideLog.any (fun e => e.rtag = r && e.id = a.num))) })
      else k) }

/-- The runs of a tag leave an MSGQ Hatch, but for one whose header has been popped (R291). -/
def dropRuns (r : Nat) : List HatchEntry → Bool → List HatchEntry
  | [], _ => []
  | e :: l, gone =>
    let g := if e.start then decide (e.rtag = r) else gone
    if g then dropRuns r l g else e :: dropRuns r l g

/-- Messages of the tag leave the interfaces, the class queues and the MSGQ Hatches of one core. -/
def sweepMessages (s : State) (r c : Nat) : State :=
  let k := s.core c
  let lost := ((k.ni.filter (fun m => m.msg.rtag = r)).map Outgoing.goal).eraseDups
  let s1 := s.setCore c { k with
    ni := k.ni.filter (fun m => m.msg.rtag != r)
    classes := k.classes.map (fun q => (q.1, { q.2 with queue := q.2.queue.filter (fun m => m.rtag != r) }))
    hatches := k.hatches.map (fun h => if h.2.kind = 7 then (h.1, { h.2 with entries := dropRuns r h.2.entries false }) else h) }
  let s2 := lost.foldl (fun s p => offerNext s c p) s1
  let freed := k.classes.any (fun q => q.2.queue.any (fun m => m.rtag = r)) ||
    k.hatches.any (fun h => h.2.kind = 7 && decide ((dropRuns r h.2.entries false).length < h.2.entries.length))
  if freed then fillHatches (announce s2 c) c else s2

/-- A Cellar command of the tag: unsubmitted it is dropped; else the drive finishes what it has. -/
def annulCellar (s : State) (x : Cmd) : State :=
  let y := { x with left := [] }
  if !x.sent then cellarEnd s x
  else if (outstanding y).isEmpty then cellarEnd s y else modCmd s x.id (fun _ => y)

/-- Commands of the tag at the engines. -/
def sweepEngines (s : State) (r : Nat) (sel : Nat → Bool) : State :=
  let mine := fun (x : Cmd) => x.rtag = r && sel x.core && !x.ended
  let s1 := ((s.clusters.flatMap (fun k => k.2.copies)).filter mine).foldl (fun s x => endCmd s x 2 0 (copyBytes x)) s
  let s2 := (s1.colls.filter mine).foldl (fun s x => if (findCmd s x.id).isSome then annulColl s x else s) s1
  let s3 := (s2.cellars.filter mine).foldl annulCellar s2
  (s3.sends.filter (fun x => mine x && x.op = 20)).foldl annulSend s3

/-- Some context, logged store, command or work from a peer that still lives waits on a partition's page. -/
def pageAwaited (s : State) (p page : Nat) : Bool :=
  s.slots.any (fun t => s.partOf (coreOf t.1) = p && s.liveTag t.2.rtag && !(onPage page t.2.faultVas).isEmpty) ||
  s.cores.any (fun k => k.2.part.toNat = p &&
    (k.2.saved.any (fun x => s.liveTag x.rtag && !(onPage page x.faultVas).isEmpty) ||
     k.2.sideLog.any (fun e => s.liveTag e.rtag && decide (e.va / 65536 = page)))) ||
  (allCmds s).any (fun x => x.part = p && (s.liveTag x.rtag || x.ended) && x.waits.contains page) ||
  s.inbox.any (fun w => w.2.contains page)

/-- Services not yet submitted that nothing waits for are dropped. -/
def sweepServices (s : State) : State :=
  endServices s (fun v => v.frame.isNone && !pageAwaited s v.part v.page)

/-- Work from a peer that waits here under proxy r is dropped and counted (R64). -/
def sweepInbox (s : State) (r : Nat) : State :=
  let mine := fun (w : PeerWork) => (s.req r).proxyOf = some (w.dev, w.rtag)
  { s with
    inbox := s.inbox.filter (fun x => !mine x.1)
    dropped := s.dropped + (s.inbox.filter (fun x => mine x.1)).length }

/-- The slots of the die under the tag are to end. -/
def sweepSlots (s : State) (r : Nat) (sel : Nat → Bool) : State :=
  (s.slots.filter (fun t => sel (coreOf t.1) && t.2.occupied && t.2.rtag = r)).foldl (fun s t => s.post (.slotAnnul t.1)) s

/-- The annul notice of request r reaches die d (R61). -/
def notice (s : State) (d r : Nat) : State :=
  let q := s.req r
  if r = 0 || s.liveTag r || q.state = .free || q.noticed.contains d then s
  else
    let sel := fun (c : Nat) => decide (dieOf c = d)
    let s1 := s.setReq r { q with noticed := addNat d q.noticed }
    let s2 := sweepDeferrals (sweepLogs (sweepSaved (sweepQueues s1 r d) r sel) r sel) r d
    let s3 := larderNotice s2 r d
    let s4 := (s3.cores.filter (fun k => sel k.1)).foldl (fun s k => sweepMessages s r k.1) s3
    let s5 := sweepEngines (dropQueued s4 r sel) r sel
    sweepSlots (sweepServices (sweepInbox s5 r)) r sel

def execAnnulNoticeArrival (die rtag : Nat) (s : State) : Out :=
  eventOf (decide (die < 4) && decide (0 < rtag) && decide (rtag < 2 ^ 18)) (fun s => notice s die rtag) s

/-- A slot that is to end ends, once no answer is awaited for what it has performed (R50 step 2, R65). -/
def execSlotAnnul (g : Nat) (s : State) : Out :=
  eventOf (decide (g < 32768)) (fun s => if slotDoomed s g && !endAwaited s g then endSlot s g (!(s.slot g).killed) else s) s

/-- A die acknowledges its part of the sweep; the entry may now return to the pool (R61, R63). -/
def acknowledge (s : State) (r d : Nat) : State :=
  let q := s.req r
  if s.liveTag r || !q.noticed.contains d || !dieClear s r d then s
  else tryFree (s.setReq r { q with swept := addNat d q.swept }) r

def execAnnulAckArrival (rtag die : Nat) (s : State) : Out :=
  eventOf (decide (die < 4) && decide (0 < rtag) && decide (rtag < 2 ^ 18)) (fun s => acknowledge s rtag die) s

end Sys2Proof.Machine
end

