-- ==== Sys2Proof/Machine/Peers.lean ====
section
/-! DEFINITION. Peers and time: work from and to other devices, proxies and their lifetime, link failure, and time synchronisation (R59, R404,
R422-R428). -/

namespace Sys2Proof.Machine

/-! Arriving work (R59, R404, R424). -/

/-- The partition a sender's work is mapped to. -/
def peerPart (s : State) (w : PeerWork) : Option Nat :=
  ((List.range 256).find? (fun k =>
    let v := s.reg (peerinAddr k)
    bit v 63 && fld v 32 16 = w.dev && fld v 16 4 = w.part)).map (fun k => fld (s.reg (peerinAddr k)) 0 4)

/-- The number by which this device routes to a sender: the PEER of its messages. -/
def peerNumber (s : State) (dev : Nat) : Nat :=
  ((List.range 64).find? (fun k => let v := s.reg (peerrouteAddr k); bit v 63 && fld v 32 16 = dev)).getD 0

/-- The entry bound to a pair of device and tag. -/
def proxyFor (s : State) (dev tag : Nat) : Option Nat := (s.reqs.find? (fun q => q.2.proxyOf = some (dev, tag))).map (fun q => q.1)

/-- The work has an answer: a load or atomic, and all an engine sends (R425). -/
def opAnswered (w : PeerWork) : Bool :=
  match w.op with
  | .load _ => true
  | .amo _ _ => true
  | .cas _ => true
  | .store _ => w.slot = 32768
  | .collective _ _ _ _ _ => true
  | _ => false

/-- Bytes the work touches. -/
def opBytes : PeerOp → Nat
  | .load n => n
  | .store n => n
  | .amo _ n => n
  | .cas n => n
  | .red _ n => n
  | .fred b => if b then 2 else 4
  | _ => 0

/-- What the work is, for permissions. -/
def opAccess : PeerOp → Access
  | .load _ => .load
  | .store _ => .store
  | _ => .atomic

/-- Work that is not performed is counted, and answered if it has an answer. -/
def refusePeer (s : State) (w : PeerWork) (a : PeerAnswer) : State :=
  let s1 := countDropped s
  if opAnswered w then { s1 with replies := s1.replies ++ [(w.dev, w.rtag, a)] } else s1

/-- Answer a sender. -/
def answerPeer (s : State) (w : PeerWork) (bs : List Byte) : State := { s with replies := s.replies ++ [(w.dev, w.rtag, .value bs)] }

/-- The request work runs under: the sender's RTAG 0 is this device's; otherwise its proxy, allocated by its first work on the die of its port. -/
def proxyTag (s : State) (w : PeerWork) (p : Nat) : Option (Nat × State) :=
  if w.rtag = 0 then some (0, s)
  else
    match proxyFor s w.dev w.rtag with
    | some r => some (r, s)
    | none => allocate s (w.port / 3) { state := .live, instant := wd w.instant, cls := w.cls, part := p, proxyOf := some (w.dev, w.rtag) }

/-- A byte range of a partition's space as the network interface reaches it: translated, or what stopped it (R404). Access is a user's, a DESIGN
CHOICE, log 18. -/
inductive Reach where
  | at (pa : Nat) (ext : Word)
  | wait (va entry : Nat) (leaf ext : Word)
  | fail (cause : Nat)

/-- Translate one byte's page, setting A, and D for a write. -/
def reach (s : State) (p va : Nat) (k : Access) : Reach × State :=
  match walk s p va with
  | .fault _ _ => (.fail 0x08, s)
  | .absent e leaf ext _ => (if permits leaf k true then .wait va e leaf ext else .fail 0x09, s)
  | .leaf first leaf ext _ lg =>
    let pa := leafPa leaf + va % 2 ^ lg
    if !permits leaf k true || (k == .atomic && leafSm leaf) then (.fail 0x09, s)
    else
      let (granted, s1) := atsTranslate s pa
      let bits : Word := 0x40#64 ||| (if k.writes then 0x80 else 0)
      if granted then (.at pa ext, if leaf &&& bits = bits then s1 else orEntry s1 first bits) else (.fail 0x09, s1)

/-- Perform the operation at an address that does not cross a page. -/
def performPeer (s : State) (w : PeerWork) (pa : Nat) (ext : Word) : State :=
  let n := opBytes w.op
  let old := leNat (s.mem.readN pa n)
  let v := leNat (w.data.take n)
  let write := fun (new : Nat) => publishCells s (cellsAt pa (leBytes new n)) ext none none
  let bad := (List.range n).any (fun i => s.bad.contains (pa + i))
  match w.op with
  | .load _ => if bad then refusePeer s w (.failed 0x0B) else answerPeer (recallLine s (lineNo pa) none) w (s.mem.readN pa n)
  | .store _ => if opAnswered w then answerPeer (write v) w [] else write v
  | .amo op _ => if bad then refusePeer (write (amoFn op n old v)) w (.failed 0x0B) else answerPeer (write (amoFn op n old v)) w (leBytes old n)
  | .cas _ =>
    let new := if old = w.compare.toNat % 2 ^ (8 * n) then v else old
    if bad then refusePeer (write new) w (.failed 0x0B) else answerPeer (write new) w (leBytes old n)
  | .red op _ => write (amoFn op n old v)
  | .fred b => write (fredFn b old v)
  | _ => s

/-- The address names the launch-queue part of the window (R424). -/
def toLaunch (w : PeerWork) : Bool := w.addr / 2 ^ 48 % 256 = 0xFF

/-- A store that crosses a page is performed page by page. -/
def storeParts (w : PeerWork) : List PeerWork :=
  let n := opBytes w.op
  let k := 65536 - w.addr % 65536
  match w.op with
  | .store _ =>
    if k < n && !toLaunch w then [{ w with op := .store k, data := w.data.take k }, { w with op := .store (n - k), addr := w.addr + k, data := w.data.drop k }]
    else [w]
  | _ => [w]

/-- Perform work on memory: a page in Cellar service keeps it waiting, ahead of later work, once. -/
def memoryPeer (s : State) (w : PeerWork) (p tag : Nat) (waits : List Nat) : State :=
  match reach s p w.addr (opAccess w.op) with
  | (.at pa ext, s1) => performPeer s1 w pa ext
  | (.fail c, s1) => refusePeer s1 w (.failed c)
  | (.wait va e leaf ext, s1) =>
    let page := va / 65536
    let serving := fun (s : State) => s.services.any (fun v => v.part = p && v.page = page)
    let s2 := if serving s1 || waits.contains page then s1 else startServiceFor s1 (w.port / 3 * 512) p va tag e leaf ext
    if serving s2 then { s2 with inbox := (w, addNat page waits) :: s2.inbox } else refusePeer s2 w (.failed 0x08)

/-- An access to the launch-queue part of a peer's window: a whole aligned 64-byte write is a record (R424). -/
def launchPeer (s : State) (w : PeerWork) (p : Nat) : State :=
  let d := w.addr / 4096 % 4
  match w.op with
  | .store n =>
    let s1 := launchWrite s d p (decide (n = 64) && decide (w.addr % 64 = 0)) (wordsOf w.data)
    if opAnswered w then answerPeer s1 w [] else s1
  | _ => refusePeer (launchWrite s d p false []) w (.failed 0x09)

/-! Messages between devices (R44, R45): the form of what serves them is the model's, log 46. -/

/-- A message from a peer reaches a core of the partition: taken, dropped, or refused, which the sender is told. A core tells a device whose message it has
refused when a place frees. -/
def messagePeer (s : State) (w : PeerWork) (p tag num core cls : Nat) (m : Msg) : State :=
  let reply := fun (s : State) (a : PeerAnswer) => { s with replies := s.replies ++ [(w.dev, w.rtag, a)] }
  if !(decide (core < 2048) && decide (cls < 8)) || s.partOf core != p then reply (countDropped s) (.accepted num)
  else
    match deliver s core cls { m with rtag := tag, remote := true, peer := peerNumber s w.dev } with
    | some s1 => reply s1 (.accepted num)
    | none => reply (s.modCore core (fun k => { k with turnedAway := addNat w.dev k.turnedAway })) (.refused num)

/-- The message goes to a device. -/
def Outgoing.goesTo (s : State) (dev : Nat) (m : Outgoing) : Bool :=
  match m.peer with
  | some p => fld (s.reg (peerrouteAddr p)) 32 16 = dev
  | none => false

/-- A device's answer to the message `num` of this device's interfaces. -/
def messageAnswered (s : State) (dev num : Nat) (f : State → Nat → Outgoing → State) : State :=
  s.cores.foldl (fun s k =>
    match (s.core k.1).ni.find? (fun m => m.num = num && m.goesTo s dev) with
    | some m => f s k.1 m
    | none => s) s

/-- A core of a device has freed a place: the first refused message to each of its classes is offered again. -/
def peerFreed (s : State) (dev core : Nat) : State :=
  s.cores.foldl (fun s k =>
    (heads k.2.ni []).foldl (fun s m =>
      if m.goesTo s dev && m.dest = core && m.refused then offer (markRefused s k.1 m false) k.1 m else s) s) s

/-! Collectives between devices (R307, R308): likewise, log 46. -/

/-- The member of a rank is at a device. -/
def memberAt (s : State) (g : Group) (rank dev : Nat) : Bool :=
  let w := g.members.getD rank 0
  bit w 14 && fld (s.reg (peerrouteAddr (fld w 15 6))) 32 16 = dev

/-- A group of a partition by its id. -/
def groupHere (s : State) (p id : Nat) : Option Group := s.groups.find? (fun g => g.part = p && g.id = id)

/-- What a peer's engine tells of a member or of a match: a match that has ended there without a result ends here; a contribution is entered, and a match
complete with it goes on. Of a group not yet registered here it waits. -/
def collPeer (s : State) (w : PeerWork) (p id rank seq : Nat) (fields : List Nat) (dead : Bool) : State :=
  match groupHere s p id with
  | none => { s with inbox := s.inbox ++ [(w, [])] }
  | some g =>
    if g.dead.any (fun d => d.1 = seq) || !((List.range g.members.length).any (fun r => memberAt s g r w.dev)) then countDropped s
    else if dead then killHere s g seq (fields.getD 0 3) (fields.getD 1 8)
    else if !memberAt s g rank w.dev then countDropped s
    else
      let s1 := answerPeer (addPart s g { rank := rank, seq := seq, fields := fields, dead := false, data := w.data }) w []
      match matchOf s1 g seq with
      | (_, x) :: _ => if matchFull s1 g seq then s1.post (.commandCompletion x.id) else s1
      | [] => s1

/-! All work. -/

/-- What is neither access nor work of a request: answers between interfaces. -/
def peerControl (s : State) (w : PeerWork) : Option State :=
  match w.op with
  | .accepted num => some (messageAnswered s w.dev num messageTaken)
  | .refused num => some (messageAnswered s w.dev num (fun s c m => markRefused s c m true))
  | .freed core => some (peerFreed s w.dev core)
  | _ => none

/-- Accesses of one sending slot stay in the order they came (R106): earlier ones of it wait here. -/
def streamBusy (l : List (PeerWork × List Nat)) (w : PeerWork) : Bool :=
  l.any (fun x => x.1.dev = w.dev && x.1.slot = w.slot && (match x.1.op with | .collective _ _ _ _ _ => false | _ => true))

/-- Work that its partition and proxy admit is performed. `waits` are the pages it has waited for; the second part of a store that crosses a page waits behind
its first. -/
def performWork (s : State) (w : PeerWork) (p tag : Nat) (waits : List Nat) : State :=
  match w.op with
  | .message num core cls m => messagePeer s w p tag num core cls m
  | .collective id rank seq fields dead => collPeer s w p id rank seq fields dead
  | _ =>
    if toLaunch w then launchPeer s w p
    else
      (storeParts w).foldl (fun s x =>
        if x.addr != w.addr && streamBusy s.inbox x then { s with inbox := s.inbox ++ [(x, waits)] } else memoryPeer s x p tag waits) s

/-- Work from a peer: that of a request whose cancel notice has come first, or whose proxy has left LIVE, is dropped and counted (R64, R426); `busy` that
earlier work of its slot waits. -/
def peerWork (s : State) (w : PeerWork) (waits : List Nat) (busy : Bool) : State :=
  match peerControl s w with
  | some s1 => s1
  | none =>
    match peerPart s w with
    | none => refusePeer s w (.failed 0x09)
    | some p =>
      if s.cancelled.contains (w.dev, w.rtag) then countDropped s
      else
        match proxyTag s w p with
        | none => refusePeer s w .noproxy
        | some (tag, s1) =>
          let access := match w.op with | .message _ _ _ _ => false | .collective _ _ _ _ _ => false | _ => true
          if !s1.liveTag tag then countDropped s1
          else if access && busy then { s1 with inbox := s1.inbox ++ (storeParts w).map (fun x => (x, waits)) }
          else performWork s1 w p tag waits

/-- Work already here can go on: no earlier work of its slot waits, nor a page of its own in service, nor a group. -/
def workReady (s : State) (x : PeerWork × List Nat) : Bool :=
  !(s.services.any (fun v => x.2.contains v.page)) &&
  (match x.1.op with
    | .collective id _ _ _ _ => (match peerPart s x.1 with | some p => (groupHere s p id).isSome | none => true)
    | _ => !streamBusy (s.inbox.takeWhile (fun y => y.1 != x.1)) x.1)

/-- Work already here that waited goes on; other work arrives over its port. None is accepted before READY (R21). -/
def execPeerWorkArrival (work : PeerWork) (s : State) : Out :=
  eventOf (decide (work.port < 12)) (fun s =>
    if !s.ready then s
    else
    match s.inbox.find? (fun x => x.1 = work) with
    | some x => if workReady s x then peerWork { s with inbox := s.inbox.erase x } work x.2 false else s
    | none => peerWork s work [] (streamBusy s.inbox work)) s

/-! A proxy's end (R426). -/

/-- A cancel notice annuls the proxy; one that comes before the request's first work is remembered until the drain marker, so that no later work allocates
a proxy (R426). -/
def execPeerCancelNotice (dev rtag : Nat) (s : State) : Out :=
  eventOf true (fun s =>
    if !s.ready then s
    else
    match proxyFor s dev rtag with
    | some r => if (s.req r).state = .live then leave s r 3 .annulled else s
    | none => if s.cancelled.contains (dev, rtag) then s else { s with cancelled := s.cancelled ++ [(dev, rtag)] }) s

/-- A drain marker has come behind all earlier work. With no proxy there is nothing to wait for. None is accepted before READY (R21). -/
def execDrainMarker (dev rtag : Nat) (s : State) : Out :=
  eventOf true (fun s =>
    if !s.ready then s
    else
    match proxyFor s dev rtag with
    | some r => tryFree (s.setReq r { s.req r with marker := true }) r
    | none => { s with replies := s.replies ++ [(dev, rtag, .drained)], cancelled := s.cancelled.filter (· != (dev, rtag)) }) s

/-- A peer's acknowledgement reaches the sender's entry. -/
def execDrainAck (rtag peer : Nat) (s : State) : Out :=
  eventOf (decide (0 < rtag) && decide (rtag < 2 ^ 18)) (fun s =>
    let q := s.req rtag
    if q.proxies.contains peer then tryFree (s.setReq rtag { q with acked := addNat peer q.acked }) rtag else s) s

/-! Answers (R404, R422, R425). `code` is 0 for a value, 14 for NOPROXY, else the trap cause. -/

/-- The operation is only a part of its instruction: a word it reads. -/
def PeerWait.isPart : PeerWait → Bool
  | .word _ => true
  | _ => false

/-- The answer to a slot that is to end is discarded (R64): a performed operation's instruction is over. -/
def discardAnswer (s : State) (g code : Nat) (op : PeerWait) : State :=
  if code = 0 && !op.isPart then passOver s g else s.modSlot g (fun t => { t with wait := none, state := .ready })

/-- The values a load's destination fields take. -/
def loadValues (rd : List (Nat × Nat)) (bytes : Nat) (signed : Bool) (data : BitVec 128) : List (Nat × Word × Bool) :=
  rd.map (fun p => (p.1, extend (leBytes (data.toNat / 2 ^ (8 * p.2)) (min bytes 8)) signed, false))

def execLoadComplete (g : Nat) (data : BitVec 128) (code : Nat) (s : State) : Out :=
  eventOf (decide (g < 32768)) (fun s =>
    match (s.slot g).wait with
    | some (.peer (.load rd a n sg) false) =>
      if slotDoomed s g then discardAnswer s g code (.load rd a n sg)
      else if code = 0 then writeBack s g (loadValues rd n sg data)
      else peerFailed s g (.load rd a n sg) a code
    | some (.peer (.word a) false) =>
      if slotDoomed s g then discardAnswer s g code (.word a)
      else if code = 0 then s.modSlot g (fun t => { t with read := t.read ++ [data.setWidth 64] }.goesOn)
      else peerFailed s g (.word a) a code
    | _ => s) s

/-- The answer to an atomic: its .acq refreshes, and the core's later loads go on (R196). -/
def execAtomicComplete (g : Nat) (data : Word) (code : Nat) (s : State) : Out :=
  eventOf (decide (g < 32768)) (fun s =>
    match (s.slot g).wait with
    | some (.peer (.atomic rd a n ord) false) =>
      if slotDoomed s g then discardAnswer s g code (.atomic rd a n ord)
      else if code = 0 then
        let s1 := { acquire (s.actFor g) ord with curCore := s.curCore, curSlot := s.curSlot }
        writeBack s1 g [(rd, wd (data.toNat % 2 ^ (8 * n)), false)]
      else peerFailed s g (.atomic rd a n ord) a code
    | _ => s) s

/-- 4,096 cycles after a NOPROXY answer the operation is sent again, as its instruction issues it. -/
def execNoproxyResend (g : Nat) (s : State) : Out :=
  eventOf (decide (g < 32768)) (fun s =>
    match (s.slot g).wait with
    | some (.peer _ true) =>
      if (s.slot g).since + nsOf 4096 ≤ s.time then s.modSlot g Slot.goesOn else s
    | _ => s) s

/-! Links (R422). -/

/-- Port of a peer-window address's route. -/
def portOf (s : State) (a : Word) : Nat := fld (s.reg (peerrouteAddr (fld a 56 6))) 0 4

/-- An address's work crosses a port. -/
def crosses (s : State) (port : Nat) (a : Word) : Bool := (match spaceOf a with | .peer _ => portOf s a = port | _ => false)

/-- The address a slot's operation at a peer went to. -/
def PeerWait.addr : PeerWait → Word
  | .load _ a _ _ => a
  | .atomic _ a _ _ => a
  | .word a => a

/-- An engine command reads or writes over a port: a copy by its pieces or its list, a collective by its members, the others by their addresses. -/
def cmdCrosses (s : State) (port : Nat) (x : Cmd) : Bool :=
  !x.ended && !x.suspended &&
  (match x.op with
    | 12 => crosses s port (collSrc x)
    | 16 => crosses s port (cellarAddr x)
    | 17 => crosses s port (cellarAddr x)
    | 20 => !x.planned && crosses s port (stairAddr x)
    | 21 => false
    | n =>
      if 8 ≤ n ∧ n ≤ 11 then
        (match groupOf s x with
          | some g => (remotePeers g.members).any (fun p => fld (s.reg (peerrouteAddr p)) 0 4 = port)
          | none => false) || crosses s port (collSrc x) || crosses s port (collDst x)
      else
        x.plan.any (fun p => decide (p.2.2 != 0) && (crosses s port p.1 || crosses s port p.2.1)) ||
          (!x.planned && hasList x.op && crosses s port (listAddr x.op x.words)))

/-- An engine command fails with LINK. -/
def linkFails (s : State) (x : Cmd) : State :=
  match x.op with
  | 12 => endCmd s x 3 15 0
  | 16 => cellarFail s x 15
  | 17 => cellarFail s x 15
  | 20 => endSend s x 3 15 0
  | n =>
    if 8 ≤ n ∧ n ≤ 11 then (match groupOf s x with | some g => killMatch s g x.seq 3 15 | none => endCmd s x 3 15 0)
    else endCmd s x 3 15 (copyBytes x)

/-- Stores, reductions and messages of a core over a port are lost and counted; a refresh owed to one of them is done. -/
def losePort (s : State) (c port : Nat) : State :=
  let gone := (s.core c).peerOut.filter (fun e => e.2 = port)
  let over1 := fun (m : Outgoing) => (match m.peer with | some p => fld (s.reg (peerrouteAddr p)) 0 4 = port | none => false)
  let lost := (s.core c).ni.filter over1
  let s1 := gone.foldl (fun s e => acquired s c e.1) s
  { s1.modCore c (fun k => { k with peerOut := k.peerOut.filter (fun e => e.2 != port), ni := k.ni.filter (fun m => !over1 m) }) with
    dropped := s1.dropped + gone.length + lost.length }

/-- A port declares link failure: remote loads and atomics in flight over it trap MEMERR, but in slots that are to end (R65), engine commands fail with LINK, and remote stores, reductions and
messages are lost and counted. -/
def failPort (s : State) (port : Nat) : State :=
  let s1 := raiseVector { s with ports := put port false s.ports } 3
  let s2 := s1.slots.foldl (fun s t =>
    match t.2.wait with
    | some (.peer op false) =>
      if !crosses s port op.addr then s
      else if slotDoomed s t.1 then discardAnswer s t.1 0x0B op
      else peerFailed s t.1 op op.addr 0x0B
    | _ => s) s1
  let s3 := ((allCmds s2).filter (cmdCrosses s2 port)).foldl (fun s x => match findCmd s x.id with | some y => if y.ended then s else linkFails s y | none => s) s2
  s3.cores.foldl (fun s k => losePort s k.1 port) s3

def execLinkFailure (port : Nat) (s : State) : Out := eventOf (decide (port < 12)) (fun s => failPort s port) s

/-! Time (R428). -/

/-- A measurement against the time master: TSLOST after ten bad ones in a row or a failed route, clear after ten good ones. -/
def measure (s : State) (offset : Int) (route : Bool) : State :=
  let good := route && decide (-20 ≤ offset) && decide (offset ≤ 20)
  let s1 := { s with slew := offset, goodRuns := if good then s.goodRuns + 1 else 0, badRuns := if good then 0 else s.badRuns + 1 }
  let lost := if !route || decide (10 ≤ s1.badRuns) then true else if 10 ≤ s1.goodRuns then false else s.tslost
  let s2 := { s1 with tslost := lost }
  if lost = s.tslost then s2 else raiseVector s2 1

def execTimeSync (offset : Int) (route : Bool) (s : State) : Out := eventOf true (fun s => measure s offset route) s

end Sys2Proof.Machine
end

