-- ==== Sys2Proof/Machine/Registers.lean ====
section
/-! DEFINITION. Firmware's registers (R366, R367, R383, R387, R394, R409-R411, R423, R424, R431), the fault buffer's interface (R400-R403), dirty-log
harvests (R395, R396), and moving a cluster between partitions (R405-R408). -/

namespace Sys2Proof.Machine

/-! Dirty logs (R395, R396). -/

/-- A core's log is merged, and the logged stores that waited for room in it are replayed (R398). -/
def mergeLog (s : State) (c : Nat) : State := replayPages (mergeDirty s c) c

def execDirtyLogMerge (core : Nat) (s : State) : Out := eventOf (decide (core < 2048)) (fun s => mergeLog s core) s

/-- GO merges every log of the cluster; it reads 1 until the last OR is performed. -/
def startHarvest (s : State) (cl : Nat) : State :=
  (((clusterCores cl).foldl mergeLog s).modCluster cl (fun k => { k with harvest := true })).post (.harvestComplete cl)

def execDharvestGo (cluster : Nat) (s : State) : Out := eventOf (decide (cluster < 64)) (fun s => startHarvest s cluster) s

def execHarvestComplete (cluster : Nat) (s : State) : Out :=
  eventOf (decide (cluster < 64)) (fun s => s.modCluster cluster (fun k => { k with harvest := false })) s

/-! The fault buffer (R400-R403). -/

/-- An entry's 16 bytes (R400). -/
def faultWord (e : FaultEntry) : BitVec 128 :=
  BitVec.ofNat 128 (e.index % 1024 * 2 ^ 118 + e.level % 4 * 2 ^ 114 + e.reason % 4 * 2 ^ 112 + e.rtag % 2 ^ 18 * 2 ^ 94 + e.core % 2048 * 2 ^ 83
    + e.kind % 8 * 2 ^ 80 + e.asid % 65536 * 2 ^ 60 + e.part % 16 * 2 ^ 56 + e.va % 2 ^ 56)

/-- What a read finds when every entry has been returned. -/
def noFault : BitVec 128 := BitVec.ofNat 128 (3 * 2 ^ 116)

/-- A 16-byte read of FBHEAD: the oldest entry not yet returned, now returned. -/
def readHead (s : State) (d : Nat) : State :=
  let b := s.faultBuf d
  match b.entries.find? (fun e => !e.shown) with
  | some e =>
    { s.setFaultBuf d { b with entries := b.entries.map (fun x => if x.index = e.index then { x with shown := true } else x) } with
      fbhead := faultWord e }
  | none => { s with fbhead := noFault }

def execFbheadRead (die : Nat) (s : State) : Out := eventOf (decide (die < 4)) (fun s => readHead s die) s

/-- An entry frees, and the fault held longest takes an entry, or shares one (R401). -/
def freeFault (s : State) (d : Nat) (e : FaultEntry) : State :=
  let b := s.faultBuf d
  let es := b.entries.filter (fun x => x.index != e.index)
  match b.held with
  | [] => s.setFaultBuf d { b with entries := es }
  | h :: r =>
    if es.any (fun x => x.part = h.part && x.va / 65536 = h.va / 65536) then s.setFaultBuf d { b with entries := es, held := r }
    else s.setFaultBuf d { b with entries := es ++ [{ h with index := freeIndex es 1024 0 }], held := r }

/-- The accesses held on a page are performed again, and walk again (R402). -/
def retryHeld (s : State) (p page : Nat) : State :=
  { s with slots := s.slots.map (fun t =>
      if s.partOf (coreOf t.1) = p && !(onPage page t.2.faultVas).isEmpty then (t.1, t.2.goesOn) else t) }

/-- RETRY. -/
def retryFault (s : State) (d : Nat) (e : FaultEntry) : State :=
  let page := e.va / 65536
  let s1 := freeFault s d e
  match s1.services.find? (fun v => v.part = e.part && v.page = page && v.frame.isNone) with
  | some v => restartService s1 v
  | none => retryHeld (replayAll s1 e.part page) e.part page

/-- FAIL, with its cause: what shares the entry fails, which is of the entry's die; a NOFRAME entry's service ends, for all that wait for it (R399, R402). A
service already with its drive goes on. -/
def failFault (s : State) (d : Nat) (e : FaultEntry) (c : Cause) : State :=
  let page := e.va / 65536
  let s1 := freeFault s d e
  if s1.services.any (fun v => v.part = e.part && v.page = page && v.frame.isNone) then failPage s1 e.part page c
  else failPageOn s1 (fun k => dieOf k = d) e.part page c

/-- A response to an entry in use; others are ignored (R402). -/
def respond (s : State) (d index : Nat) (f : State → FaultEntry → State) : State :=
  match (s.faultBuf d).entries.find? (fun e => e.index = index) with
  | some e => f s e
  | none => s

def execFbrespRetry (die index : Nat) (s : State) : Out :=
  eventOf (decide (die < 4)) (fun s => respond s die index (fun s e => retryFault s die e)) s
def execFbrespFailXlate (die index : Nat) (s : State) : Out :=
  eventOf (decide (die < 4)) (fun s => respond s die index (fun s e => failFault s die e .xlate)) s
def execFbrespFailPerm (die index : Nat) (s : State) : Out :=
  eventOf (decide (die < 4)) (fun s => respond s die index (fun s e => failFault s die e .perm)) s

/-! Draining a cluster (R408). -/

/-- CRs of a queue's level, then of its ring, move to the die queue's tail while it has room; a ring's CR whose request has left LIVE is discarded (R64). -/
def moveCrs (s : State) (q l : Nat) : Nat → State
  | 0 => s
  | f + 1 =>
    let v := s.level q l
    match v.entries, v.ring with
    | cr :: r, _ =>
      match enqueue (s.setLevel q l { v with entries := r }) q cr with
      | some s1 => moveCrs s1 q l f
      | none => s
    | [], i :: r =>
      let cr := ringCr s q l i
      let s1 := parkedDown (s.setLevel q l { v with ring := r }) cr.rtag
      if !s.liveTag cr.rtag then moveCrs s1 q l f
      else
        match enqueue s1 q cr with
        | some s2 => moveCrs s2 q l f
        | none => s
    | [], [] => s

/-- Step 1 for every queue of the cluster. -/
def drainQueues (s : State) (cl : Nat) : State :=
  (qCluster cl :: clusterCores cl).foldl (fun s q =>
    (List.range 4).foldl (fun s l => moveCrs s q l ((s.level q l).entries.length + (s.level q l).ring.length)) s) s

/-- The cluster's queues are empty. -/
def queuesClear (s : State) (cl : Nat) : Bool :=
  (qCluster cl :: clusterCores cl).all (fun q => (List.range 4).all (fun l => (s.level q l).entries.isEmpty && (s.level q l).ring.isEmpty))

/-- Step 2: each core preempts an occupied slot that can be saved, one at a time. -/
def drainSlots (s : State) (cl : Nat) : State :=
  (clusterCores cl).foldl (fun s c =>
    if (s.core c).preempt.isSome then s
    else
      match (slotsOf c).find? (fun g => (s.slot g).occupied && canSave s g) with
      | some g => startPreempt s g none false
      | none => s) s

/-- Step 3: running copies are suspended. -/
def drainCopies (s : State) (cl : Nat) : State :=
  ((s.cluster cl).copies.filter (fun x => !x.suspended && !x.ended)).foldl (fun s x => suspendCopy s x false) s

/-- Step 4: contexts that wait for nothing are written to the drain area, back to back. -/
def drainContexts (s : State) (cl : Nat) : State :=
  (clusterCores cl).foldl (fun s c =>
    ((s.core c).saved.filter (fun x => !unserviced (s.core c) x)).foldl (fun s x =>
      let bs := imageBytes s c x
      let a := (s.reg (drainareaAddr (cl / 16))).toNat + (s.cluster cl).drained
      let s1 := dropSaved (untie (publishCells s (cellsAt a bs) 0 none none) c x.num) c x.num
      s1.modCluster cl (fun k => { k with drained := k.drained + bs.length })) s) s

/-- The first four steps are done. -/
def drainDone (s : State) (cl : Nat) : Bool :=
  queuesClear s cl &&
  (clusterCores cl).all (fun c => (slotsOf c).all (fun g => !(s.slot g).occupied) && (s.core c).preempt.isNone && (s.core c).saved.isEmpty &&
    (s.core c).sideLog.isEmpty) &&
  (s.cluster cl).copies.all (fun x => x.suspended && !x.owes)

/-- A discarded command writes BADCMD at its completion address, if that was pushed; nothing enters a DONE Hatch. -/
def discardCommands (s : State) (c h : Nat) (l : List HatchEntry) : Nat → State
  | 0 => s
  | f + 1 =>
    match l with
    | [] => s
    | e :: _ =>
      let n := hNw e.value + 1
      let x := { cmdOf s c h (l.take n) with done := none }
      let s1 : State := { s with nextId := s.nextId + 1 }
      discardCommands (if l.length = 1 then s1 else endCmd s1 x 3 2 0) c h (l.drop n) f

/-- Steps 5 and 6 on one core: its Hatches are unbound and empty, its classes OFF and empty. -/
def unbindCore (s : State) (c : Nat) : State :=
  let s1 := (List.range 16).foldl (fun s h =>
    let q := s.hatch c h
    if q.isEngine then discardCommands s c h q.cmd 9 else s) s
  let k := s1.core c
  let lost := sumN (k.classes.map (fun q => q.2.queue.length))
  let s2 := announce { s1.setCore c { k with hatches := [], classes := k.classes.map (fun q => (q.1, { trp := q.2.trp })) } with
    dropped := s1.dropped + lost } c
  let free := fun (l : List Cmd) => l.map (fun x => if x.core = c then { x with done := none } else x)
  { s2 with
    clusters := s2.clusters.map (fun k => (k.1, { k.2 with copies := free k.2.copies }))
    cellars := free s2.cellars, colls := free s2.colls, sends := free s2.sends, kept := free s2.kept }

/-- A core still has Hatch bindings or message classes that steps 5 and 6 clear. -/
def stillBound (k : Core) : Bool := !k.hatches.isEmpty || k.classes.any (fun q => q.2 != { trp := q.2.trp })

/-- No command of the cluster's cores is with an engine or owes its completion word, but for suspended copies, which ASSIGN drops or keeps. R408 names only the
copies: that the drain waits for the others, so that none of them acts in the cluster's next partition (R406), is a DESIGN CHOICE, log 19. -/
def enginesClear (s : State) (cl : Nat) : Bool := (allCmds s).all (fun x => clusterOf x.core != cl || (x.suspended && !x.owes))

/-- A draining cluster goes as far as it can; with all done, the completion words of step 5 among it, it is IDLE. -/
def drainStep (s : State) (cl : Nat) : State :=
  if (s.cluster cl).state != 1 then s
  else
    let s1 := drainContexts (drainCopies (drainSlots (drainQueues s cl) cl) cl) cl
    if drainDone s1 cl then
      let s2 := ((clusterCores cl).filter (fun c => stillBound (s1.core c))).foldl unbindCore s1
      if enginesClear s2 cl then s2.modCluster cl (fun k => { k with state := 2 }) else s2
    else s1

/-- Every draining cluster goes on. -/
def drainAll (s : State) : State :=
  s.clusters.foldl (fun s k => if k.2.state = 1 then drainStep s k.1 else s) s

/-- DRAIN, accepted in RUN. -/
def startDrain (s : State) (cl : Nat) : State :=
  if (s.cluster cl).state = 0 then drainStep (s.modCluster cl (fun k => { k with state := 1, drained := 0 })) cl else s

def execClustctlDrain (cluster : Nat) (s : State) : Out := eventOf (decide (cluster < 64)) (fun s => startDrain s cluster) s

/-! Assignment (R407, R408). -/

/-- A core's memory, barriers and accumulators become zero for its new partition, and the scoreboard entries of the copies that go are freed (R92). What it has not published is published first, as R98 permits at any
time, DEDUCED, log 19. -/
def wipeCore (s : State) (c : Nat) : State :=
  let s1 := flushCore s c
  let s2 := zeroRange (zeroRange (zeroRange s1 (locScratch c 0) (2 ^ 18)) (locCloset c 0) (2 ^ 16)) (locLane (c * 16) 0 0) (16 * 128 * 512)
  (emptyL1 s2 c).modCore c (fun k => { k with barriers := [], acc0 := {}, acc1 := {}, coherent := [], tlb := [], board := [] })

/-- The ASID of a partition: that of its cores; with none, its number, a DESIGN CHOICE, log 19. -/
def asidOf (s : State) (p : Nat) : BitVec 16 :=
  match s.cores.find? (fun k => k.2.part.toNat = p && k.2.asid != 0) with
  | some k => k.2.asid
  | none => BitVec.ofNat 16 p

/-- ASSIGN. -/
def assign (s : State) (cl p : Nat) : State :=
  let old := s.partOf (coreAt cl 0)
  let s1 :=
    if old = p then s
    else
      ((clusterCores cl).foldl wipeCore s).modCluster cl (fun k => { k with copies := k.copies.filter (fun x => x.part = p), tlb := [] })
  let a := asidOf s p
  ((clusterCores cl).foldl (fun s c => s.modCore c (fun k => { k with part := BitVec.ofNat 4 p, asid := if old = p && k.asid != 0 then k.asid else a })) s1).modCluster
    cl (fun k => { k with state := 0, drained := 0 })

def execClustctlAssign (cluster part : Nat) (s : State) : Out :=
  eventOf (decide (cluster < 64) && decide (part < 16)) (fun s =>
    if (s.cluster cluster).state = 2 then noteConfig (assign s cluster part) (clustctlAddr cluster) (wd (512 + part)) else s) s

/-! Frame pools, walkers, tile caps (R387, R394, R412). -/

/-- FFPOOL: the ring is placed, and is empty. -/
def setFfpool (s : State) (d p : Nat) (v : Word) : State :=
  ((s.setReg (ffpoolAddr d p) (wd (at_ (fld v 52 12) 52 + at_ (fld v 13 39) 13))).setReg (ffheadAddr d p) 0).setReg (fftailAddr d p) 0

def execFfpoolWrite (die part : Nat) (value : Word) (s : State) : Out :=
  eventOf (decide (die < 4) && decide (part < 16)) (fun s => noteConfig (setFfpool s die part value) (ffpoolAddr die part) value) s

/-- FFTAIL: ignored if it names no index of the ring, or would fill it. -/
def setFftail (s : State) (d p : Nat) (v : Word) : State :=
  let n := poolSize s d p
  let t := fld v 0 12
  let held := (poolTail s d p + n - poolHead s d p) % n
  let added := (t + n - poolTail s d p) % n
  if n ≤ t || n ≤ held + added then s else s.setReg (fftailAddr d p) (wd t)

def execFftailWrite (die part : Nat) (value : Word) (s : State) : Out :=
  eventOf (decide (die < 4) && decide (part < 16)) (fun s => noteConfig (setFftail s die part value) (fftailAddr die part) value) s

/-- WALKSHARE: ignored if the cluster's sum would exceed 16. -/
def setWalkshare (s : State) (cl p : Nat) (v : Word) : State :=
  let others := sumN (((List.range 16).filter (· != p)).map (fun q => fld (s.reg (walkshareAddr cl q)) 0 5))
  if 16 < others + fld v 0 5 then s else s.setReg (walkshareAddr cl p) (wd (fld v 0 5))

def execWalkshareWrite (cluster part : Nat) (value : Word) (s : State) : Out :=
  eventOf (decide (cluster < 64) && decide (part < 16)) (fun s => noteConfig (setWalkshare s cluster part value) (walkshareAddr cluster part) value) s

/-- TILECAP changes the tile's target. -/
def setTilecap (s : State) (t : Nat) (v : Word) : State := retarget (s.setReg (tilecapAddr t) (wd (fld v 0 4))) t

def execTilecapWrite (tile : Nat) (value : Word) (s : State) : Out := eventOf (decide (tile < 512)) (fun s => noteConfig (setTilecap s tile value) (tilecapAddr tile) value) s

/-! Registers with no behaviour of their own (R366). -/

/-- A register's place in the configuration space, or none for an address that names nothing or is not aligned (R367). -/
inductive Register where
  | dqctl (d p : Nat)
  | lqstat (d p : Nat)
  | rtfree (d : Nat)
  | drainarea (d : Nat)
  | stairctl (d : Nat)
  | ffpool (d p : Nat)
  | ffhead (d p : Nat)
  | fftail (d p : Nat)
  | fbresp (d : Nat)
  | clustctl (cl : Nat)
  | dharvest (cl : Nat)
  | walkshare (cl p : Nat)
  | tilecap (t : Nat)
  | ringd (q l : Nat)
  | nsmap
  | ptbase
  | pquota (p : Nat)
  | plarder
  | pwrlim
  | peerroute
  | peerin
  | nsassign
  | none
  deriving DecidableEq, Repr

/-- The register at an offset of die d's block (R367). -/
def registerAt (d off : Nat) : Register :=
  let i := fun (base : Nat) => (off - base) / 8
  if off % 8 != 0 then .none
  else if off < 0x80 then .dqctl d (i 0)
  else if off < 0x100 then .lqstat d (i 0x80)
  else if off = 0x100 then .rtfree d
  else if off = 0x108 then .drainarea d
  else if off = 0x110 then .stairctl d
  else if off < 0x200 then .none
  else if off < 0x280 then .ffpool d (i 0x200)
  else if off < 0x300 then .ffhead d (i 0x280)
  else if off < 0x380 then .fftail d (i 0x300)
  else if off = 0x410 then .fbresp d
  else if off < 0x1000 then .none
  else if off < 0x2000 then
    let cl := d * 16 + (off - 0x1000) / 256
    let o := off % 256
    if o = 0 then .clustctl cl else if o = 8 then .dharvest cl else if 0x80 ≤ o then .walkshare cl ((o - 0x80) / 8) else .none
  else if off < 0x2400 then .tilecap (d * 128 + i 0x2000)
  else if off < 0x10000 then .none
  else if off < 0x14000 then .ringd (d * 512 + (off - 0x10000) / 32) (i 0x10000 % 4)
  else if off < 0x14200 then .ringd (qCluster (d * 16 + (off - 0x14000) / 32)) (i 0x14000 % 4)
  else if off < 0x14400 then .ringd (qDie d ((off - 0x14200) / 32)) (i 0x14200 % 4)
  else if off < 0x20000 then .none
  else if off < 0x30000 then (if off % 128 < 64 then .nsmap else .none)
  else if off < 0x30020 then .nsmap
  else if 0x30100 ≤ off ∧ off < 0x30130 then .nsmap
  else if d != 0 || off < 0x40000 then .none
  else if off < 0x40080 then .ptbase
  else if off < 0x40100 then .pquota (i 0x40080)
  else if off < 0x40180 then .plarder
  else if off = 0x40180 then .pwrlim
  else if off < 0x41000 then .none
  else if off < 0x41200 then .peerroute
  else if off < 0x41A00 then .peerin
  else if off < 0x42000 then .none
  else if off < 0x4A000 then .nsassign
  else .none

/-- Die and offset of a bus address. -/
def blockOf (addr : Nat) : Option (Nat × Nat) :=
  if 0x40000000 ≤ addr ∧ addr < 0x44000000 then some ((addr - 0x40000000) / 0x01000000, (addr - 0x40000000) % 0x01000000) else .none

/-- The register at a bus address. -/
def registerOf (addr : Nat) : Register := match blockOf addr with | some (d, off) => registerAt d off | none => .none

/-- What a write leaves in a register without behaviour: its reserved and read-only bits stay zero; a PLARDER with an N it does not take is ignored; a
PWRLIM above 2,400 reads as 2,400. -/
def plainValue (r : Register) (v : Word) : Option Word :=
  match r with
  | .drainarea _ => some (v &&& 0x000FFFFFFFFFF000#64)
  | .stairctl _ => some (v &&& 3#64)
  | .nsmap => some (v &&& 0xEFEFEFEFEFEFEFEF#64)
  | .ptbase => some (v &&& 0x000FFFFFFFFFE001#64)
  | .pquota _ => some (v &&& 0x3FFFF#64)
  | .plarder =>
    let n := fld v 0 5
    if n = 1 ∨ n = 2 ∨ 25 ≤ n then none else some (v &&& 0x1FFFFFFFFFFF001F#64)
  | .pwrlim => some (wd (min (fld v 0 12) 2400))
  | .peerroute => some (v &&& 0x8000FFFF0000000F#64)
  | .peerin => some (v &&& 0x8000FFFF000F000F#64)
  | .nsassign => some (v &&& 0x80000007FFFFFFFF#64)
  | _ => none

/-- A write of a register without behaviour; LQSTAT's counts take what is written (R369). -/
def setPlain (s : State) (addr : Nat) (v : Word) : State :=
  match registerOf addr with
  | .lqstat d p => s.setLaunchQ d p { s.launchQ d p with disc := fld v 32 16, fulls := fld v 16 16 }
  | r =>
    match plainValue r v with
    | some w => s.setReg addr w
    | none => s

def execRegisterWrite (addr : Nat) (value : Word) (s : State) : Out := eventOf true (fun s => noteConfig (setPlain s addr value) addr value) s

/-! The configuration space as a whole: writes and reads of any register (R367). -/

/-- FBRESP: a stray bit, an unused INDEX or ACTION 3 is ignored (R402). -/
def setFbresp (s : State) (d : Nat) (v : Word) : State :=
  if v &&& 0x303FF#64 != v then s
  else
    match fld v 16 2 with
    | 0 => respond s d (fld v 0 10) (fun s e => retryFault s d e)
    | 1 => respond s d (fld v 0 10) (fun s e => failFault s d e .xlate)
    | 2 => respond s d (fld v 0 10) (fun s e => failFault s d e .perm)
    | _ => s

/-- CLUSTCTL (R407): DRAIN in RUN, ASSIGN in IDLE; any other command is ignored. -/
def setClustctl (s : State) (cl : Nat) (v : Word) : State :=
  match fld v 8 2 with
  | 1 => startDrain s cl
  | 2 => if (s.cluster cl).state = 2 then assign s cl (fld v 0 4) else s
  | _ => s

/-- LQSTAT (R369). -/
def lqstatWord (q : LaunchQueue) : Word := wd (at_ q.disc 32 + at_ q.fulls 16 + q.records.length)

/-- An aligned 8-byte write of a register. -/
def busWrite (s : State) (addr : Nat) (v : Word) : State :=
  match registerOf addr with
  | .dqctl d p => setDqctl s d p v
  | .rtfree d => setRtfree s d v
  | .ffpool d p => setFfpool s d p v
  | .fftail d p => setFftail s d p v
  | .fbresp d => setFbresp s d v
  | .clustctl cl => setClustctl s cl v
  | .dharvest cl => if bit v 0 then startHarvest s cl else s
  | .walkshare cl p => setWalkshare s cl p v
  | .tilecap t => setTilecap s t v
  | .ringd q l => setRingd s q l v
  | _ => setPlain s addr v

/-- What an aligned 8-byte read of a register returns. -/
def busRead (s : State) (addr : Nat) : Word :=
  match registerOf addr with
  | .lqstat d p => lqstatWord (s.launchQ d p)
  | .rtfree d => wd (at_ (look 0 d s.rtfree) 62)
  | .stairctl d => s.reg addr ||| wd (at_ (b2n (look false d s.dieLinks)) 2)
  | .clustctl cl => wd (at_ (s.cluster cl).state 6 + s.partOf (coreAt cl 0))
  | .dharvest cl => wd (b2n (s.cluster cl).harvest)
  | .pquota p => s.reg addr ||| wd (at_ (usedBy s p) 32)
  | .fbresp _ => 0
  | .none => 0
  | _ => s.reg addr

end Sys2Proof.Machine
end

