-- ==== Sys2Proof/Machine/Power.lean ====
section
/-! DEFINITION. Tile operating points, the power ceiling, and what the host and the management port read (R412-R420). -/

namespace Sys2Proof.Machine

/-! Operating points (R413). -/

/-- A voltage step is complete: the controller steps again, or settles the clock. -/
def voltageStep (s : State) (t : Nat) : State :=
  match (s.tile t).moving with
  | some (up, done) =>
    if done ≤ s.time then
      retarget (s.modTile t (fun k => { k with voltage := if up then k.voltage + 1 else k.voltage - 1, moving := none })) t
    else s
  | none => s

def execDvfsStep (tile : Nat) (s : State) : Out := eventOf (decide (tile < 512)) (fun s => voltageStep s tile) s

/-! The ceiling (R415-R417). -/

/-- Slots a removal may take from a core, in its order: descending, without slot 0 and pinned slots (R417). -/
def removable (s : State) (c : Nat) : List Nat := ((List.range 15).map (fun i => 15 - i)).filter (fun k => !pinned s (c * 16 + k))

/-- Slots of a core now out of rotation. -/
def removedSlots (s : State) (c : Nat) : List Nat := (removable s c).take (s.core c).removed

/-- Tile of the greatest reading. -/
def hottestTile (r : List Nat) : Nat :=
  ((List.range 512).foldl (fun (b : Nat × Nat) t => if b.2 < r.getD t 0 then (t, r.getD t 0) else b) (0, r.getD 0 0)).1

/-- Power of a cluster: its eight tiles (R14). -/
def clusterPower (r : List Nat) (cl : Nat) : Nat := sumN (((clusterCores cl).map tileOf).eraseDups.map (fun t => r.getD t 0))

/-- Cluster that draws most. -/
def hottestCluster (r : List Nat) : Nat :=
  ((List.range 64).foldl (fun (b : Nat × Nat) k => if b.2 < clusterPower r k then (k, clusterPower r k) else b) (0, clusterPower r 0)).1

/-- Lower a cluster's MEMCAP by half, from 255 if uncapped. -/
def lowerCap (s : State) (cl : Nat) : State :=
  let cap := (s.cluster cl).memcap
  { s.modCluster cl (fun k => { k with memcap := max 1 ((if cap = 0 then 255 else cap) / 2) }) with actions := s.actions ++ [.cap cl] }

/-- The cores of a tile with a slot left to remove. -/
def removalCores (s : State) (t : Nat) : List Nat := (tileCores t).filter (fun c => decide ((s.core c).removed < (removable s c).length))

/-- Remove one more slot on every core of the tile that has one. -/
def removeSlots (s : State) (t : Nat) : State :=
  { (removalCores s t).foldl (fun s c => s.modCore c (fun k => { k with removed := k.removed + 1 })) s with
    actions := s.actions ++ [.removal (removalCores s t)] }

/-- The first action that still has room. -/
def powerAction (s : State) (r : List Nat) : State :=
  if (s.cluster (hottestCluster r)).memcap != 1 then lowerCap s (hottestCluster r)
  else if !(removalCores s (hottestTile r)).isEmpty then removeSlots s (hottestTile r)
  else s

/-- Undo the most recent action: removals first, then the last lowering of a cap, which doubles it, to 255 at most, and a cap at 255 becomes 0. Since a cap was
rounded down, a cluster's last lowering is undone only when its cap is 0 (DEDUCED, log 22). -/
def undoAction (s : State) : State :=
  let removals := s.actions.filterMap (fun a => match a with | .removal l => some l | .cap _ => none)
  let caps := s.actions.filterMap (fun a => match a with | .cap c => some c | .removal _ => none)
  match removals.getLast?, caps.getLast? with
  | some l, _ =>
    { l.foldl (fun s c => s.modCore c (fun k => { k with removed := k.removed - 1 })) s with
      actions := caps.map .cap ++ removals.dropLast.map .removal }
  | none, some c =>
    let cap := (s.cluster c).memcap
    let new := if cap = 255 then 0 else min 255 (2 * cap)
    let left := if new = 0 then caps.filter (· != c) else if caps.dropLast.contains c then caps.dropLast else caps
    { s.modCluster c (fun k => { k with memcap := new }) with actions := left.map .cap }
  | none, none => s

/-- PWRLIM in milliwatts. -/
def powerLimit (s : State) : Nat := 1000 * (s.reg pwrlimAddr).toNat

/-- Power stayed below 95 % of PWRLIM for the whole period. -/
def belowLimit (s : State) (r : PowerReading) : Bool := decide (100 * max r.peak r.total < 95 * powerLimit s)

/-- One period of the controller. Ten periods in a row above PWRLIM raise vector 5 (R442). -/
def powerPeriod (s : State) (r : PowerReading) : State :=
  let ended := decide (powerLimit s < r.total)
  let s1 : State := { s with
    power := r.total
    overTime := if ended then s.overTime + 1 else 0
    tiles := (List.range (min 512 r.tiles.length)).foldl (fun m t => put t { look {} t m with power := r.tiles.getD t 0 } m) s.tiles }
  let s2 := if s1.overTime = 10 then raiseVector s1 5 else s1
  if ended then powerAction s2 r.tiles else if belowLimit s r then undoAction s2 else s2

def execPowerPeriod (reading : PowerReading) (s : State) : Out := eventOf true (fun s => powerPeriod s reading) s

/-! What outside readers see (R418, R420, R421). -/

/-- DEVSTATUS. -/
def devstatusWord (s : State) : Word := wd (at_ s.stage 8 + at_ (b2n s.tslost) 2 + at_ (b2n s.failed) 1 + b2n s.ready)

/-- MODPWR. -/
def modpwrWord (s : State) : Word := wd (at_ (s.reg pwrlimAddr).toNat 16 + s.power / 1000 % 4096)

/-- A host read of 8 bytes of BAR0; nothing answers before stage 1 (R443). -/
def bar0Read (s : State) (off : Nat) : Word :=
  if s.stage = 0 then 0
  else if off = 0 then devstatusWord s
  else if off = 8 then wd s.time
  else if off = 16 then modpwrWord s
  else if 0x10000 ≤ off ∧ off < 0x12000 then
    let t := (off - 0x10000) / 16
    let k := s.tile t
    if off % 16 = 0 then wd (at_ k.level 32 + k.power % 2 ^ 32)
    else if off % 16 = 8 then
      wd (sumN ((tileCores t).zipIdx.map (fun x => at_ (removedSlots s x.1).length (4 * x.2))))
    else 0
  else 0

/-- A host read of 8 bytes of BAR2. -/
def bar2Read (s : State) (off : Nat) : Word :=
  let w := off / 4096
  if decide (w < 64) && off % 4096 = 0x800 then lqstatWord (s.launchQ (w % 4) (w / 4)) else 0

/-! The host's memory (R419). -/

/-- A place lies in a host page. -/
def Place.inHost (p : Place) (page : Nat) : Bool :=
  match p with
  | .global _ pa _ _ => decide (2 ^ 51 ≤ pa) && pa % 2 ^ 51 / 4096 = page
  | _ => false

/-- An access that has been translated and is not yet performed uses a host page: a held one (R93), or the record reads of a selection at its unit (R280). -/
def pageUsed (s : State) (page : Nat) : Bool :=
  s.slots.any (fun t => (t.2.checked.getD []).any (·.inHost page)) ||
  s.clusters.any (fun k => k.2.keys.any (fun o =>
    match o.2 with
    | .select _ _ _ _ _ recs => recs.any (fun r => r.2.any (·.2.inHost page))
    | .draw _ _ _ _ => false))

/-- The invalidations whose accesses have all been performed are complete. -/
def finishAts (s : State) : State :=
  if s.atsWaits.isEmpty then s
  else { s with
    atsWaits := s.atsWaits.filter (pageUsed s)
    atsDone := s.atsDone ++ s.atsWaits.filter (fun p => !pageUsed s p) }

/-- An ATS invalidation drops the cached page, and completes once every access that used it has been performed. What the host answers when the page is next
translated is its own (log 12). -/
def invalidate (s : State) (page : Nat) : State :=
  finishAts { s with atc := s.atc.filter (· != page), atsWaits := s.atsWaits ++ [page] }

def execAtsInvalidation (page : Nat) (s : State) : Out := eventOf true (fun s => invalidate s page) s

/-- The lines of n bytes from a location. -/
def linesOf (a n : Nat) : List Nat := if n = 0 then [] else (List.range (lineNo (a + n - 1) - lineNo a + 1)).map (fun i => lineNo a + i)

/-- A byte as the host reads it: of its own memory where a device store has not reached it, what stood there before (R112). -/
def hostByte (s : State) (a : Nat) : Byte :=
  match s.hostLag.find? (fun x => x.1 = a) with
  | some x => x.2.1
  | none => s.mem.read a

/-- A host access through the HDM decoder, or to the host's own memory, is performed at the line's home slice: a published write, or a read of what
is current, which the host is given (R96, R419). The address is the physical address it decodes to; one beyond the decoder's capacity is none of its
accesses. -/
def hostAccess (s : State) (write : Bool) (addr : Nat) (data : List Byte) : State :=
  if !(decide (addr + data.length ≤ s.hdm) || (decide (2 ^ 51 ≤ addr) && decide (addr + data.length ≤ 2 ^ 52))) then s
  else if write then publishCells s (cellsAt addr data) 0 none none
  else
    let s1 := (linesOf addr data.length).foldl (fun s l => recallLine s l none) s
    { s1 with hostData := s1.hostData ++ [(List.range data.length).map (fun i => hostByte s1 (addr + i))] }

def execHostMemAccess (write : Bool) (addr : Nat) (data : List Byte) (s : State) : Out :=
  eventOf true (fun s => hostAccess s write addr data) s

end Sys2Proof.Machine
end

