-- ==== Sys2Proof/Machine/Slh.lean ====
section
/-! DEFINITION. SLH-DSA-SHA2-192s (FIPS 205): verification of firmware (R437) and signatures of the device's identity key (R439). n = 24, h = 63, d = 7,
h' = 9, a = 14, k = 17, w = 16, m = 39. -/

namespace Sys2Proof.Machine.Slh

/-- A big-endian number of n bytes. -/
def beBytes (v n : Nat) : List Byte := (leBytes v n).reverse
def beNat (b : List Byte) : Nat := leNat b.reverse

/-- The i-th 24-byte string of a list of them. -/
def node (l : List Byte) (i : Nat) : List Byte := (l.drop (24 * i)).take 24

/-- An address: layer, tree, type, and the three words whose meaning the type sets. -/
structure Adrs where
  layer : Nat := 0
  tree  : Nat := 0
  kind  : Nat := 0
  pair  : Nat := 0
  x     : Nat := 0
  y     : Nat := 0

/-- Its 22 compressed bytes. -/
def Adrs.bytes (a : Adrs) : List Byte :=
  beBytes a.layer 1 ++ beBytes a.tree 8 ++ beBytes a.kind 1 ++ beBytes a.pair 4 ++ beBytes a.x 4 ++ beBytes a.y 4

/-! The hash functions of the SHA2 parameter sets of categories 3 and 5. -/

/-- F, which PRF shares. -/
def f (seed : List Byte) (a : Adrs) (m : List Byte) : List Byte := (sha256 (seed ++ List.replicate 40 0 ++ a.bytes ++ m)).take 24
/-- H and T_l. -/
def h (seed : List Byte) (a : Adrs) (m : List Byte) : List Byte := (sha512 (seed ++ List.replicate 104 0 ++ a.bytes ++ m)).take 24
/-- H_msg: 39 bytes of MGF1-SHA-512. -/
def hMsg (r seed root m : List Byte) : List Byte :=
  (sha512 (r ++ seed ++ sha512 (r ++ seed ++ root ++ m) ++ List.replicate 4 0)).take 39

/-- base_2b: the first n digits of b bits. -/
def digits (m : List Byte) (b n : Nat) : List Nat :=
  let k := (n * b + 7) / 8
  let v := beNat (m.take k)
  (List.range n).map (fun i => v / 2 ^ (8 * k - b * (i + 1)) % 2 ^ b)

/-- From a node of index i at height j up an authentication path. -/
def climb (seed : List Byte) (adr : Nat → Nat → Adrs) : List (List Byte) → Nat → Nat → List Byte → List Byte
  | [], _, _, x => x
  | a :: r, j, i, x =>
    climb seed adr r (j + 1) (i / 2) (h seed (adr (j + 1) (i / 2)) (if i % 2 = 0 then x ++ a else a ++ x))

/-! WOTS+. -/

/-- `n` steps of a chain from step i. -/
def chain (seed : List Byte) (a : Adrs) : Nat → Nat → List Byte → List Byte
  | 0, _, x => x
  | n + 1, i, x => chain seed a n (i + 1) (f seed { a with y := i } x)

/-- The 48 digits of a message, and the three of their checksum. -/
def wotsDigits (m : List Byte) : List Nat :=
  let l := digits m 4 48
  l ++ digits (beBytes (l.foldl (fun c d => c + (15 - d)) 0 * 16) 2) 4 3

/-- The chain address of a key pair. -/
def wotsAdrs (layer tree pair i : Nat) : Adrs := { layer := layer, tree := tree, kind := 0, pair := pair, x := i }

/-- The public key from its 51 chain ends. -/
def wotsKey (seed : List Byte) (layer tree pair : Nat) (ends : List (List Byte)) : List Byte :=
  h seed { layer := layer, tree := tree, kind := 1, pair := pair } ends.flatten

/-- The public key that a signature of a message gives. -/
def wotsFromSig (seed : List Byte) (layer tree pair : Nat) (sig m : List Byte) : List Byte :=
  wotsKey seed layer tree pair ((wotsDigits m).zipIdx.map (fun d => chain seed (wotsAdrs layer tree pair d.2) (15 - d.1) d.1 (node sig d.2)))

/-! The hypertree. -/

/-- The address of a node of a layer's tree. -/
def treeAdrs (layer tree j i : Nat) : Adrs := { layer := layer, tree := tree, kind := 2, x := j, y := i }

/-- The root that one layer's signature of a message by leaf `pair` gives. -/
def xmssRoot (seed : List Byte) (layer tree pair : Nat) (sig m : List Byte) : List Byte :=
  climb seed (treeAdrs layer tree) ((List.range 9).map (fun j => node sig (51 + j))) 0 pair (wotsFromSig seed layer tree pair sig m)

/-- The root that the hypertree signature gives: from `n` layers on, layer by layer. -/
def treeRoot (seed : List Byte) : Nat → Nat → Nat → Nat → List Byte → List Byte → List Byte
  | 0, _, _, _, _, m => m
  | n + 1, layer, tree, pair, sig, m =>
    treeRoot seed n (layer + 1) (tree / 512) (tree % 512) (sig.drop (24 * 60)) (xmssRoot seed layer tree pair sig m)

/-! FORS. -/

/-- The address of a node of the FORS forest of a key pair. -/
def forsAdrs (tree pair j i : Nat) : Adrs := { tree := tree, kind := 3, pair := pair, x := j, y := i }

/-- The public key of the 17 roots. -/
def forsKey (seed : List Byte) (tree pair : Nat) (roots : List (List Byte)) : List Byte :=
  h seed { tree := tree, kind := 4, pair := pair } roots.flatten

/-- The public key that a FORS signature of a digest gives. -/
def forsFromSig (seed : List Byte) (tree pair : Nat) (sig md : List Byte) : List Byte :=
  forsKey seed tree pair ((digits md 14 17).zipIdx.map (fun d =>
    let i := d.2 * 16384 + d.1
    let part := sig.drop (24 * 15 * d.2)
    climb seed (forsAdrs tree pair) ((List.range 14).map (fun j => node part (1 + j))) 0 i (f seed (forsAdrs tree pair 0 i) (node part 0))))

/-! Verifying and signing. -/

/-- The digest's parts: FORS message, tree and leaf. -/
def parts (d : List Byte) : List Byte × Nat × Nat := (d.take 30, beNat ((d.drop 30).take 7) % 2 ^ 54, beNat ((d.drop 37).take 2) % 512)

/-- The message as signed, under the empty context (log 10). -/
def framed (m : List Byte) : List Byte := [0, 0] ++ m

/-- The signature verifies under a public key (48 bytes: seed and root). -/
def verify (key m sig : List Byte) : Bool :=
  let seed := key.take 24
  let root := key.drop 24
  let (md, tree, leaf) := parts (hMsg (node sig 0) seed root (framed m))
  let pk := forsFromSig seed tree leaf (sig.drop 24) md
  key.length = 48 && sig.length = 16224 && treeRoot seed 7 0 tree leaf (sig.drop (24 * 256)) pk == root

/-- A private key. -/
structure Key where
  sk   : List Byte
  prf  : List Byte
  seed : List Byte

/-- The public key of a WOTS+ key pair. -/
def wotsPublic (k : Key) (layer tree pair : Nat) : List Byte :=
  wotsKey k.seed layer tree pair ((List.range 51).map (fun i =>
    chain k.seed (wotsAdrs layer tree pair i) 15 0 (f k.seed { wotsAdrs layer tree pair i with kind := 5 } k.sk)))

/-- A node of a layer's tree at a height. -/
def xmssNode (k : Key) (layer tree : Nat) : Nat → Nat → List Byte
  | 0, i => wotsPublic k layer tree i
  | j + 1, i => h k.seed (treeAdrs layer tree (j + 1) i) (xmssNode k layer tree j (2 * i) ++ xmssNode k layer tree j (2 * i + 1))

/-- The other child of a node's parent, at height j above leaf i. -/
def sibling (i j : Nat) : Nat := let n := i / 2 ^ j; if n % 2 = 0 then n + 1 else n - 1

/-- One layer's signature of a message: 51 chains and the path. -/
def xmssSign (k : Key) (layer tree pair : Nat) (m : List Byte) : List Byte :=
  (wotsDigits m).zipIdx.flatMap (fun d =>
    chain k.seed (wotsAdrs layer tree pair d.2) d.1 0 (f k.seed { wotsAdrs layer tree pair d.2 with kind := 5 } k.sk)) ++
  (List.range 9).flatMap (fun j => xmssNode k layer tree j (sibling pair j))

/-- The signatures of `n` layers. -/
def treeSign (k : Key) : Nat → Nat → Nat → Nat → List Byte → List Byte
  | 0, _, _, _, _ => []
  | n + 1, layer, tree, pair, m =>
    let sig := xmssSign k layer tree pair m
    sig ++ treeSign k n (layer + 1) (tree / 512) (tree % 512) (xmssRoot k.seed layer tree pair sig m)

/-- A FORS secret value. -/
def forsSecret (k : Key) (tree pair i : Nat) : List Byte := f k.seed { forsAdrs tree pair 0 i with kind := 6 } k.sk

/-- A node of the FORS forest at a height. -/
def forsNode (k : Key) (tree pair : Nat) : Nat → Nat → List Byte
  | 0, i => f k.seed (forsAdrs tree pair 0 i) (forsSecret k tree pair i)
  | j + 1, i => h k.seed (forsAdrs tree pair (j + 1) i) (forsNode k tree pair j (2 * i) ++ forsNode k tree pair j (2 * i + 1))

/-- The FORS signature of a digest. -/
def forsSign (k : Key) (tree pair : Nat) (md : List Byte) : List Byte :=
  (digits md 14 17).zipIdx.flatMap (fun d =>
    let i := d.2 * 16384 + d.1
    forsSecret k tree pair i ++ (List.range 14).flatMap (fun j => forsNode k tree pair j (sibling i j)))

/-- The root of the top tree. -/
def Key.root (k : Key) : List Byte := xmssNode k 6 0 9 0
/-- The public half. -/
def Key.pub (k : Key) : List Byte := k.seed ++ k.root

/-- The signature of a message with the randomizer's 24 bytes `rand`. -/
def sign (k : Key) (rand m : List Byte) : List Byte :=
  let r := (hmac512 k.prf (rand ++ framed m)).take 24
  let (md, tree, leaf) := parts (hMsg r k.seed k.root (framed m))
  let fs := forsSign k tree leaf md
  r ++ fs ++ treeSign k 7 0 tree leaf (forsFromSig k.seed tree leaf fs md)

end Sys2Proof.Machine.Slh
end

