-- ==== Sys2Proof/Machine/Bringup.lean ====
section
/-! DEFINITION. Bring-up, firmware verification and measurement, and attestation (R435-R443). -/

namespace Sys2Proof.Machine

/-! Stages (R435). -/

/-- A stage is entered: with `ok` false it fails, FAIL is set, and the sequence stops. -/
def enter (s : State) (stage : Nat) (ok : Bool) : State :=
  let s1 := { s with stage := stage, failed := !ok }
  if ok then s1 else raiseVector s1 0

/-- An event of bring-up acts when the stage before it has been passed. -/
def after (s : State) (stage : Nat) (f : State → State) : State := if s.stage = stage && !s.failed then f s else s

/-- Record a measurement; once recorded it stays (R438). -/
def record (s : State) (i : Nat) (m : List Byte) : State :=
  if s.measured.any (fun x => x.1 = i) then s else { s with measured := put i (sha256 m) s.measured }

/-- Reset returns the device to stage 0; the flash and the fuses stay, and the host's memory as the host sees it. -/
def resetDevice (s : State) : State :=
  { State.reset with
    primary := s.primary, backup := s.backup, keyDigest := s.keyDigest, rollback := s.rollback, free := s.free, schedule := s.schedule,
    mem := Memory.writes (s.mem.filter (fun c => decide (2 ^ 51 ≤ c.1) && decide (c.1 < 2 ^ 52))) (s.hostLag.map (fun x => (x.1, x.2.1))) }

def execDeviceReset (s : State) : Out := eventOf true resetDevice s

/-- The ROM checks and measures itself. -/
def execRomSelfCheck (ok : Bool) (s : State) : Out :=
  eventOf true (fun s => after s 0 (fun s => enter (record s 1 Config.romImage) 1 ok)) s

/-- Header and body of an image, as bytes (R437; the order is a DESIGN CHOICE, log 10). -/
def imageText (i : Image) : List Byte := [BitVec.ofNat 8 i.svn] ++ i.publicKey ++ i.body

/-- The ROM accepts an image (R437). -/
def accepts (s : State) (i : Image) : Bool :=
  decide (i.svn < 64) && decide (i.publicKey.length = 48) && decide (i.signature.length = 16224) &&
  decide (sha256 i.publicKey = s.keyDigest) && Slh.verify i.publicKey (imageText i) i.signature && decide (s.rollback ≤ i.svn)

/-- The first image accepted, and whether it is the backup. -/
def chosen (s : State) : Option (Bool × Image) :=
  match s.primary.filter (accepts s) with
  | some i => some (false, i)
  | none => (s.backup.filter (accepts s)).map (fun i => (true, i))

/-- The fuse configuration without the device secret: the vendor key digest, the rollback counter and the other fuses (the order is a DESIGN CHOICE, log 10). -/
def fuseBytes (s : State) : List Byte := s.keyDigest ++ [BitVec.ofNat 8 s.rollback] ++ Config.fuseImage

/-- The ROM verifies and measures the firmware (R437, R438). -/
def verify (s : State) : State :=
  match chosen s with
  | none => enter s 2 false
  | some (b, i) =>
    let s1 := record s 2 (imageText i ++ i.signature)
    let s2 := record s1 3 [BitVec.ofNat 8 (b2n b), BitVec.ofNat 8 i.svn]
    enter { record s2 4 (fuseBytes s2) with usedBackup := b } 2 true

def execFirmwareVerify (s : State) : Out := eventOf true (fun s => after s 1 verify) s

/-- Calibration: links, ports and drives that train are up (R436). -/
def calibrate (s : State) (c : Calibration) : State :=
  let up := fun (l : List Bool) (n : Nat) => (List.range n).map (fun i => (i, l.getD i false))
  let s1 : State := { s with
    dieLinks := up c.links 4
    ports := up c.ports 12
    drives := (List.range 8).map (fun q =>
      let d := c.drives.getD q false
      (q, { present := d, ready := d, spaces := c.spaces.filter (fun n => n.port = q) : Drive })) }
  enter s1 3 (c.hbm && (List.range 4).all (fun i => c.links.getD i false))

def execCalibration (found : Calibration) (s : State) : Out := eventOf true (fun s => after s 2 (fun s => calibrate s found)) s

/-- A die's pool when every entry has just been freed: index 0 is never an entry on die 0 (R63). -/
def freePool (d : Nat) : FreePool := { fresh := if d = 0 then 1 else 0 }

/-- Memory initialisation (R440). -/
def initMemory (s : State) (ok : List Bool) : State :=
  let s1 : State := { s with
    mem := s.mem.filter (fun c => decide (2 ^ 51 ≤ c.1) && decide (c.1 < 2 ^ 52))
    tags := [], bad := [], history := [], reqs := [], pools := (List.range 4).map (fun d => (d, freePool d)), levels := [], larders := [], deferred := []
    launch := s.launch.map (fun q => (q.1, { q.2 with records := [] }))
    cores := s.cores.map (fun k => (k.1, { k.2 with
      hatches := [], barriers := [], lines := [], l1 := [], coherent := [], saved := [], ni := [], refresh := 0, seen := [], reverted := []
      classes := k.2.classes.map (fun q => (q.1, { q.2 with queue := [] })) }))
    slots := s.slots.map (fun t => (t.1, { t.2 with monitors := [], written := 0 })) }
  enter s1 4 ((List.range 8).all (fun i => ok.getD i false))

def execMemoryInit (ok : List Bool) (s : State) : Out := eventOf true (fun s => after s 3 (fun s => initMemory s ok)) s

/-- Per-core state as firmware sets it (R441 step 3), by CSR number. -/
def configureCore (s : State) (c n : Nat) (v : Word) : State :=
  let core := fun (f : Core → Core) => s.modCore c f
  match n with
  | 0x006 => core (fun k => writeFeatmask k v)
  | 0x007 => core (fun k => { k with asid := BitVec.ofNat 16 (fld v 4 16) })
  | 0x008 => core (fun k => { k with sched := bit v 9 })
  | 0x028 => setLmsplit s c v
  | 0x029 => setLmshare s c v
  | 0x02A => setLmgroup s (tileOf c) v
  | 0x02B => setDsplit s (dieOf c) v
  | 0x040 => core (fun k => { k with stvec := even v })
  | 0x048 => core (fun k => { k with ptempl0 := v &&& lprotMask })
  | 0x049 => core (fun k => { k with ptempl1 := v &&& lprotMask })
  | 0x04A => core (fun k => { k with ptempl2 := v &&& lprotMask })
  | 0x04B => core (fun k => { k with ptempl3 := v &&& lprotMask })
  | 0x04C => core (fun k => { k with clspill := v &&& clspillMask })
  | _ => s

/-- One setting of firmware: a register of the configuration space by its bus address; per-core state at 2^32 + 2,048 core + CSR number; the HDM
decoder's capacity at 2^33 (how firmware reaches the last two the manual leaves open: a DESIGN CHOICE, log 20). -/
def firmwareWrite (s : State) (w : Nat × Word) : State :=
  if w.1 < 2 ^ 32 then busWrite s w.1 w.2
  else if w.1 < 2 ^ 32 + 2048 * 2048 then configureCore s ((w.1 - 2 ^ 32) / 2048) (w.1 % 2048) w.2
  else if w.1 = 2 ^ 33 then { s with hdm := w.2.toNat }
  else s

/-- Firmware configuration (R441): TIME from the host, then its settings in order. -/
def configure (s : State) (ok : Bool) (ptm : Word) (writes : List (Nat × Word)) : State :=
  let s1 : State := { s with stage := 5, time := ptm.toNat, configured := writes }
  enter (writes.foldl firmwareWrite s1) 5 ok

def execFirmwareConfig (ok : Bool) (ptm : Word) (writes : List (Nat × Word)) (s : State) : Out :=
  eventOf true (fun s => after s 4 (fun s => configure s ok ptm writes)) s

/-- The configuration as bytes for measurement 5 (the order within a setting is a DESIGN CHOICE, log 10). -/
def configBytes (l : List (Nat × Word)) : List Byte := l.flatMap (fun w => leBytes w.1 8 ++ leBytes w.2.toNat 8)

/-- READY is set (R441): measurement 5 is recorded, and vector 0 raised. -/
def setReady (s : State) : State :=
  raiseVector { enter (record s 5 (configBytes s.configured)) 6 true with ready := true } 0

def execSetReady (s : State) : Out := eventOf true (fun s => after s 5 setReady) s

/-! Management (R437). -/

/-- Firmware runs. -/
def firmwareRuns (s : State) : Bool := decide (3 ≤ s.stage) || (s.stage = 2 && !s.failed)

/-- A delivered image goes to the slot not in use, for the next reset. -/
def deliverImage (s : State) (i : Image) : State :=
  if !firmwareRuns s then s else if s.usedBackup then { s with primary := some i } else { s with backup := some i }

def execFirmwareDelivery (image : Image) (s : State) : Out := eventOf true (fun s => deliverImage s image) s

/-- The fused counter only rises. -/
def execRollbackRaise (counter : Nat) (s : State) : Out :=
  eventOf true (fun s => if firmwareRuns s && decide (counter < 64) then { s with rollback := max s.rollback counter } else s) s

/-! Attestation (R439). -/

/-- A response leaves the management port. -/
def answerSpdm (s : State) (m : List Byte) : State := { s with spdm := s.spdm ++ [m] }

/-- ERROR with code Busy (SPDM 1.3; PRESUMED, log 10). -/
def spdmBusy : List Byte := [0x13, 0x7F, 0x03, 0x00]

/-- ERROR with codes InvalidRequest and UnexpectedRequest (SPDM 1.3; PRESUMED, log 10). -/
def spdmInvalid : List Byte := [0x13, 0x7F, 0x01, 0x00]
def spdmUnexpected : List Byte := [0x13, 0x7F, 0x04, 0x00]

/-- Every request before stage 3 is answered Busy (R439), and one out of SPDM's order - version, capabilities, algorithms, then the rest (PRESUMED, log 10) -
UnexpectedRequest; `need` is how far the requester must have come. -/
def spdm (s : State) (need : Nat) (f : State → State) : State :=
  if s.stage < 3 then answerSpdm s spdmBusy else if s.spdmStage < need then answerSpdm s spdmUnexpected else f s

/-- ERROR with code UnsupportedRequest and the request's code (SPDM 1.3; PRESUMED, log 10). -/
def spdmUnsupported (code : Nat) : List Byte := [0x13, 0x7F, 0x07, BitVec.ofNat 8 code]

/-- A request of none of the six kinds, by its code: R439 has no part of it supported, and Busy answers it too before stage 3. The opcode table has no row for
it. -/
def execSpdmRequest (code : Nat) (s : State) : Out :=
  eventOf true (fun s => spdm s 0 (fun s => answerSpdm s (spdmUnsupported code))) s

/-- The requester has come so far. -/
def reachSpdm (s : State) (n : Nat) : State := { s with spdmStage := n }

def execGetVersion (s : State) : Out :=
  eventOf true (fun s => spdm s 0 (fun s => reachSpdm (answerSpdm s (Config.spdmPayload 0 ++ [0x13])) 1)) s

/-- CAPABILITIES (SPDM 1.3's layout; PRESUMED, log 10): of its flags only certificates and measurements with signature are set, as R439 supports them; the
timing exponent and the transfer sizes are free. -/
def capabilities : List Byte := [0x13, 0x61, 0, 0, 0] ++ Config.spdmPayload 1 ++ [0, 0, 0x12, 0, 0, 0] ++ Config.spdmPayload 5

def execGetCapabilities (s : State) : Out := eventOf true (fun s => spdm s 1 (fun s => reachSpdm (answerSpdm s capabilities) 2)) s
/-- The algorithms settled: SHA-256 and SLH-DSA-SHA2-192s, each if the requester offers it; they stand until the next NEGOTIATE_ALGORITHMS or reset. -/
def execNegotiateAlgorithms (sha256 slhDsa : Bool) (s : State) : Out :=
  eventOf true (fun s => spdm s 2 (fun s =>
    { reachSpdm (answerSpdm s (Config.spdmPayload 2 ++ [BitVec.ofNat 8 (b2n sha256), BitVec.ofNat 8 (b2n slhDsa)])) 3 with
      spdmHash := sha256, spdmSlh := slhDsa })) s

/-- DIGESTS, with the chain's SHA-256 if that hash is settled. -/
def execGetDigests (s : State) : Out :=
  eventOf true (fun s => spdm s 3 (fun s =>
    answerSpdm s (if s.spdmHash then Config.spdmPayload 3 ++ sha256 Config.certificateChain else spdmInvalid))) s
def execGetCertificate (offset length : Nat) (s : State) : Out :=
  eventOf true (fun s => spdm s 3 (fun s => answerSpdm s (Config.spdmPayload 4 ++ (Config.certificateChain.drop offset).take length))) s

/-- The measurement blocks asked for: one index, or all for 255; the number recorded for 0. -/
def blocks (s : State) (i : Nat) : List Byte :=
  if i = 0 then [BitVec.ofNat 8 s.measured.length]
  else (s.measured.filter (fun m => i = 255 || m.1 = i)).flatMap (fun m => BitVec.ofNat 8 m.1 :: m.2)

/-- The 24 bytes of a constant of the device's signatures (FIPS 205's n). -/
def slhBytes (w : BitVec 192) : List Byte := leBytes w.toNat 24

/-- The device identity key. -/
def identityKey : Slh.Key := { sk := slhBytes Config.identitySecret, prf := slhBytes Config.identityPrf, seed := slhBytes Config.identitySeed }

/-- GET_MEASUREMENTS: the blocks, the requester's nonce, and a signature over both, with randomizer `k`, if asked for. -/
def measurements (s : State) (k i : Nat) (signed : Bool) (nonce : List Byte) : List Byte :=
  let m := blocks s i ++ nonce
  if signed then m ++ Slh.sign identityKey (slhBytes (Config.slhRandom k)) m else m

/-- A signature needs its algorithm settled. -/
def execGetMeasurements (index : Nat) (signed : Bool) (nonce : List Byte) (s : State) : Out :=
  eventOf true (fun s => spdm s 3 (fun s =>
    if signed && !s.spdmSlh then answerSpdm s spdmInvalid
    else
      let (k, s1) := s.fresh
      answerSpdm s1 (Config.spdmPayload 6 ++ measurements s1 k index signed nonce))) s

end Sys2Proof.Machine
end

