-- ==== Sys2Proof/Machine/Completion.lean ====
section
/-! DEFINITION. How an engine command goes on and ends (R298), and what an instruction fetch meets (R139, R397, R444). -/

namespace Sys2Proof.Machine

/-! Commands. -/

/-- A page the command waits for is still in Cellar service. -/
def blocked (s : State) (x : Cmd) : Bool := s.services.any (fun v => v.part = x.part && x.waits.contains v.page)

/-- The command at an engine, or kept for its completion word, goes as far as it can, and ends if it can. -/
def goOn (s : State) (x : Cmd) : State :=
  if x.ended then (if decide (8 ≤ x.op) && decide (x.op ≤ 11) then collOver s x else endOver s x)
  else if x.owes then oweWord s x
  else
    match x.op with
    | 12 => runGroup s x
    | 16 => submitPieces s x (x.left.length + 1)
    | 17 => submitPieces s x (x.left.length + 1)
    | 20 => if x.planned then s else readRecord s x
    | 21 => s
    | n => if 8 ≤ n ∧ n ≤ 11 then runCollective s x else copyComplete s x

def execCommandCompletion (id : Nat) (s : State) : Out :=
  eventOf true (fun s => match findCmd s id with | some x => goOn s x | none => s) s

/-- The drive of a block command takes another piece of it now. -/
def pieceRoom (s : State) (x : Cmd) : Bool :=
  !x.left.isEmpty && decide ((outstanding x).length < 16) && x.error = 0 && decide (driveLoad s x.port < driveSlots) && (queuedServices s x.port).isEmpty

/-- A copy that has no plan yet waits for a scoreboard entry (R92). -/
def boardWaits (s : State) (x : Cmd) : Bool :=
  hasList x.op && (x.op = 3 || boardWindow (x.words.getD 3 0)) && !x.planned && !((s.core x.core).board.any (fun b => b.id = x.id)) && decide (16 ≤ (s.core x.core).board.length)

/-- A matched collective can go on: it is to be accepted, or every source is there or can be read here. -/
def matchReady (s : State) (g : Group) (x : Cmd) : Bool :=
  matchFull s g x.seq && (matchOf s g x.seq).all (fun y => !blocked s y.2) &&
  (!x.planned || (readRanks g x).all (fun r => (memberCore g r).isSome || (rankSource s g x.seq r).isSome))

/-- The command can go on by itself now: it waits for no page in service, no member, no drive, no scoreboard entry, and is not held by its cluster's cap. -/
def canGoOn (s : State) (x : Cmd) : Bool :=
  !blocked s x &&
  (x.ended || x.owes ||
    (match x.op with
      | 12 => true
      | 16 => pieceRoom s x
      | 17 => pieceRoom s x
      | 20 => !x.planned
      | 21 => false
      | n =>
        if 8 ≤ n ∧ n ≤ 11 then
          (match groupOf s x with
            | some g => matchReady s g x
            | none => true)
        else !x.suspended && !capHeld s x && !boardWaits s x))

/-! Fetch. -/

/-- What a halfword's fetch gives. -/
inductive Fetched where
  | half (h : BitVec 16)
  | trap (c : Cause)
  | held (t : Trans)
  | behind
  deriving DecidableEq, Repr

/-- Fetch the halfword at an address for slot g. It is read as published: the manual gives the instruction cache no contents of its own, a DESIGN
CHOICE, log 23. -/
def fetchHalf (s : State) (g : Nat) (a : Word) : Fetched × State :=
  match spaceOf a with
  | .none => (.trap .noncanon, s)
  | .peer _ => (.trap .attrmix, s)
  | .window _ => (.trap .attrmix, s)
  | .global =>
    let c := coreOf g
    let s0 := if pageLogged s c (fld a 0 56) then replayPage s c (fld a 0 56 / 65536) else s
    match translate s0 c (fld a 0 56) .fetch (!(s.slot g).mode) with
    | (.ok pa _ _, s1) =>
      let (granted, s2) := atsTranslate (dropRecord s1 c (s1.slot g).ctx (fld a 0 56)) pa
      if !granted then (.trap .perm, s2)
      else if pageLogged s2 c (fld a 0 56) then (.behind, s2)
      else if s2.bad.contains pa || s2.bad.contains (pa + 1) then (.trap .memerr, s2)
      else (.half (half (s2.mem.read pa) (s2.mem.read (pa + 1))), s2)
    | (.perm, s1) => (.trap .perm, dropRecord s1 c (s1.slot g).ctx (fld a 0 56))
    | (t, s1) => (.held t, s1)

/-- Fetch a halfword of the executing slot, or end the turn with the trap or the fault hold it meets; while its cluster's requests are at their cap it waits
to send its walk (R416), and while stores of its page wait for the dirty log it waits behind them (R398). -/
def fetchNeed (s : State) (a : Word) : Res (BitVec 16) :=
  if capReached s (clusterOf s.curCore) && walks s s.curCore [{ a := a, n := 2 }] then waitHere s .fetch
  else
  match fetchHalf s s.me a with
  | (.half h, s1) => .go h s1
  | (.trap c, s1) => trapRes s1 c a
  | (.behind, s1) => waitHere s1 .fetch
  | (.held t, s1) =>
    let va := fld a 0 56
    let s2 := (waitSlot s1 s1.me (.fault va)).modMe (fun t => { t with fkind := faultKind .fetch, checked := none, stays := false, also := [], inst := none, read := [] })
    let s2 := reportFault s2 s1.curCore va s1.mine.rtag (faultKind .fetch) s1.mine.ctx t
    .stop (match t, s2.mine.wait with
      | .absent _ _ _, some _ => s2.post (.walkComplete s2.me)
      | _, _ => s2)

/-- The halfwords of the instruction at the PC (R139): the second is read only for a 32-bit instruction. -/
def fetch (s : State) : Res (BitVec 16 × BitVec 16) :=
  (fetchNeed s s.mine.pc).bnd fun lo s1 =>
    if lo.extractLsb' 0 1 = 0#1 then .go (lo, 0) s1
    else (fetchNeed s1 (s1.mine.pc + 2)).bnd fun hi s2 => .go (lo, hi) s2

/-- The encoding as TRAPVAL holds it (R140). -/
def fetchedWord (h : BitVec 16 × BitVec 16) : Word :=
  if h.1.extractLsb' 0 1 = 0#1 then h.1.setWidth 64 else (h.2 ++ h.1).setWidth 64

/-- An encoding that is no instruction traps ILLEGAL_OP (R140 check 2). -/
def execIllegalOp (g : Nat) (encoding : Word) (s : State) : Out :=
  eventOf (decide (g < 32768)) (fun s =>
    if (s.slot g).occupied && (decodeHalves (encoding.setWidth 16) ((encoding >>> 16).setWidth 16)).isNone then
      trapAt s g .illegalOp (s.slot g).pc encoding
    else s) s

/-- A fetch that cannot be performed traps, or holds the slot (R139, R397). One that can be performed is no such event. -/
def execFetchFault (g : Nat) (s : State) : Out :=
  eventOf (decide (g < 32768)) (fun s =>
    if !(s.slot g).occupied then s
    else
      match fetch (s.actFor g) with
      | .stop s1 => { s1 with curCore := s.curCore, curSlot := s.curSlot }
      | .go _ _ => s) s

/-! Instructions of one encoding that a register's value tells apart (R359, R363). -/

/-- The values an instruction's sources hold or would pop. -/
def peek (s : State) (srcs : List RegField) : List Word :=
  let s1 := if s.mine.held.isEmpty then takeHatches s { srcs := srcs } else s
  (sourceValues s1.mine srcs s1.mine.held).map (fun v => v.1)

/-- The instruction as the registers it names make it. -/
def resolve (s : State) (i : Instr) : Instr :=
  match i with
  | .slotctlQuery rd rs1 rs2 =>
    (match fld ((peek s [rs1, rs2]).getD 0 0) 4 3 with
      | 1 => .slotctlStart rd rs1 rs2
      | 2 => .slotctlPreempt rd rs1 rs2
      | 3 => .slotctlResume rd rs1 rs2
      | 4 => .slotctlKill rd rs1 rs2
      | 5 => .slotctlCopystop rd rs1 rs2
      | 6 => .slotctlRelease rd rs1 rs2
      | _ => .slotctlQuery rd rs1 rs2)
  | .cflushLine rs1 rs2 =>
    (match fld ((peek s [rs1, rs2]).getD 1 0) 0 2 with
      | 1 => .cflushWriteback rs1 rs2
      | 2 => .cflushAll rs1 rs2
      | _ => .cflushLine rs1 rs2)
  | i => i

end Sys2Proof.Machine
end

