-- ==== Sys2Proof/Machine/Dispatch.lean ====
section
/-! DEFINITION. The meaning of each row of the opcode table: one arm per constructor, each a direct call. -/

namespace Sys2Proof.Machine

def exec (i : Instr) (s : State) : Host.Outcome State Fault Refusal :=
  match i with
  | .add rd rs1 rs2 => Sys2Proof.Machine.execAdd rd rs1 rs2 s
  | .sub rd rs1 rs2 => Sys2Proof.Machine.execSub rd rs1 rs2 s
  | .and rd rs1 rs2 => Sys2Proof.Machine.execAnd rd rs1 rs2 s
  | .andn rd rs1 rs2 => Sys2Proof.Machine.execAndn rd rs1 rs2 s
  | .or rd rs1 rs2 => Sys2Proof.Machine.execOr rd rs1 rs2 s
  | .xor rd rs1 rs2 => Sys2Proof.Machine.execXor rd rs1 rs2 s
  | .sll rd rs1 rs2 => Sys2Proof.Machine.execSll rd rs1 rs2 s
  | .srl rd rs1 rs2 => Sys2Proof.Machine.execSrl rd rs1 rs2 s
  | .sra rd rs1 rs2 => Sys2Proof.Machine.execSra rd rs1 rs2 s
  | .rot rd rs1 rs2 => Sys2Proof.Machine.execRot rd rs1 rs2 s
  | .mul rd rs1 rs2 => Sys2Proof.Machine.execMul rd rs1 rs2 s
  | .mulh rd rs1 rs2 => Sys2Proof.Machine.execMulh rd rs1 rs2 s
  | .mulhn rd rs1 rs2 => Sys2Proof.Machine.execMulhn rd rs1 rs2 s
  | .div rd rs1 rs2 => Sys2Proof.Machine.execDiv rd rs1 rs2 s
  | .divn rd rs1 rs2 => Sys2Proof.Machine.execDivn rd rs1 rs2 s
  | .rem rd rs1 rs2 => Sys2Proof.Machine.execRem rd rs1 rs2 s
  | .remn rd rs1 rs2 => Sys2Proof.Machine.execRemn rd rs1 rs2 s
  | .min rd rs1 rs2 => Sys2Proof.Machine.execMin rd rs1 rs2 s
  | .max rd rs1 rs2 => Sys2Proof.Machine.execMax rd rs1 rs2 s
  | .minn rd rs1 rs2 => Sys2Proof.Machine.execMinn rd rs1 rs2 s
  | .maxn rd rs1 rs2 => Sys2Proof.Machine.execMaxn rd rs1 rs2 s
  | .clz rd rs1 => Sys2Proof.Machine.execClz rd rs1 s
  | .ctz rd rs1 => Sys2Proof.Machine.execCtz rd rs1 s
  | .popc rd rs1 => Sys2Proof.Machine.execPopc rd rs1 s
  | .brev rd rs1 => Sys2Proof.Machine.execBrev rd rs1 s
  | .bswap rd rs1 => Sys2Proof.Machine.execBswap rd rs1 s
  | .csel rd rs1 rs2 ps => Sys2Proof.Machine.execCsel rd rs1 rs2 ps s
  | .addi rd rs1 imm => Sys2Proof.Machine.execAddi rd rs1 imm s
  | .andi rd rs1 imm => Sys2Proof.Machine.execAndi rd rs1 imm s
  | .ori rd rs1 imm => Sys2Proof.Machine.execOri rd rs1 imm s
  | .xori rd rs1 imm => Sys2Proof.Machine.execXori rd rs1 imm s
  | .slli rd rs1 sh => Sys2Proof.Machine.execSlli rd rs1 sh s
  | .srli rd rs1 sh => Sys2Proof.Machine.execSrli rd rs1 sh s
  | .srai rd rs1 sh => Sys2Proof.Machine.execSrai rd rs1 sh s
  | .roti rd rs1 sh => Sys2Proof.Machine.execRoti rd rs1 sh s
  | .extS rd rs1 pos width => Sys2Proof.Machine.execExtS rd rs1 pos width s
  | .extn rd rs1 pos width => Sys2Proof.Machine.execExtn rd rs1 pos width s
  | .insF rd rs1 pos width => Sys2Proof.Machine.execInsF rd rs1 pos width s
  | .lih rd imm => Sys2Proof.Machine.execLih rd imm s
  | .addpc rd imm => Sys2Proof.Machine.execAddpc rd imm s
  | .cmp pd rs1 rs2 cc => Sys2Proof.Machine.execCmp pd rs1 rs2 cc s
  | .cmpi pd cc rs1 imm => Sys2Proof.Machine.execCmpi pd cc rs1 imm s
  | .pand pd ps1 ps2 => Sys2Proof.Machine.execPand pd ps1 ps2 s
  | .por pd ps1 ps2 => Sys2Proof.Machine.execPor pd ps1 ps2 s
  | .pxor pd ps1 ps2 => Sys2Proof.Machine.execPxor pd ps1 ps2 s
  | .pandn pd ps1 ps2 => Sys2Proof.Machine.execPandn pd ps1 ps2 s
  | .pset pd rs1 => Sys2Proof.Machine.execPset pd rs1 s
  | .pget rd => Sys2Proof.Machine.execPget rd s
  | .bp ps off => Sys2Proof.Machine.execBp ps off s
  | .bnp ps off => Sys2Proof.Machine.execBnp ps off s
  | .cbz rs1 off => Sys2Proof.Machine.execCbz rs1 off s
  | .cbnz rs1 off => Sys2Proof.Machine.execCbnz rs1 off s
  | .jal rd imm => Sys2Proof.Machine.execJal rd imm s
  | .jalr rd rs1 imm => Sys2Proof.Machine.execJalr rd rs1 imm s
  | .ldS8 rd rs1 imm => Sys2Proof.Machine.execLdS8 rd rs1 imm s
  | .ldN8 rd rs1 imm => Sys2Proof.Machine.execLdN8 rd rs1 imm s
  | .ldS16 rd rs1 imm => Sys2Proof.Machine.execLdS16 rd rs1 imm s
  | .ldN16 rd rs1 imm => Sys2Proof.Machine.execLdN16 rd rs1 imm s
  | .ldS32 rd rs1 imm => Sys2Proof.Machine.execLdS32 rd rs1 imm s
  | .ldN32 rd rs1 imm => Sys2Proof.Machine.execLdN32 rd rs1 imm s
  | .ldD64 rd rs1 imm => Sys2Proof.Machine.execLdD64 rd rs1 imm s
  | .stN8 imm rs1 rs2 => Sys2Proof.Machine.execStN8 imm rs1 rs2 s
  | .stN16 imm rs1 rs2 => Sys2Proof.Machine.execStN16 imm rs1 rs2 s
  | .stN32 imm rs1 rs2 => Sys2Proof.Machine.execStN32 imm rs1 rs2 s
  | .stD64 imm rs1 rs2 => Sys2Proof.Machine.execStD64 imm rs1 rs2 s
  | .ldx rd rs1 imm => Sys2Proof.Machine.execLdx rd rs1 imm s
  | .stx imm rs1 rs2 => Sys2Proof.Machine.execStx imm rs1 rs2 s
  | .pref rs1 imm => Sys2Proof.Machine.execPref rs1 imm s
  | .amo32 rd rs1 rs2 ord op => Sys2Proof.Machine.execAmo32 rd rs1 rs2 ord op s
  | .amo64 rd rs1 rs2 ord op => Sys2Proof.Machine.execAmo64 rd rs1 rs2 ord op s
  | .cas rd rs1 rs2 ord size => Sys2Proof.Machine.execCas rd rs1 rs2 ord size s
  | .red32 rs1 rs2 ord op => Sys2Proof.Machine.execRed32 rs1 rs2 ord op s
  | .red64 rs1 rs2 ord op => Sys2Proof.Machine.execRed64 rs1 rs2 ord op s
  | .fred rs1 rs2 ord ty => Sys2Proof.Machine.execFred rs1 rs2 ord ty s
  | .ldfull rd rs1 => Sys2Proof.Machine.execLdfull rd rs1 s
  | .ldtake rd rs1 => Sys2Proof.Machine.execLdtake rd rs1 s
  | .stfill rs1 rs2 => Sys2Proof.Machine.execStfill rs1 rs2 s
  | .stforce rs1 rs2 => Sys2Proof.Machine.execStforce rs1 rs2 s
  | .tagrd rd rs1 => Sys2Proof.Machine.execTagrd rd rs1 s
  | .twBackoffExpiry g => Sys2Proof.Machine.execTwBackoffExpiry g s
  | .taggedOpComplete g => Sys2Proof.Machine.execTaggedOpComplete g s
  | .waitLimitExpiry g => Sys2Proof.Machine.execWaitLimitExpiry g s
  | .withdrawalAnswer g => Sys2Proof.Machine.execWithdrawalAnswer g s
  | .phase scope half => Sys2Proof.Machine.execPhase scope half s
  | .publishComplete g => Sys2Proof.Machine.execPublishComplete g s
  | .monarm rd rs1 => Sys2Proof.Machine.execMonarm rd rs1 s
  | .monwait rd rs1 => Sys2Proof.Machine.execMonwait rd rs1 s
  | .monclr rs1 => Sys2Proof.Machine.execMonclr rs1 s
  | .monitorWake g entry => Sys2Proof.Machine.execMonitorWake g entry s
  | .monwaitTimeout g => Sys2Proof.Machine.execMonwaitTimeout g s
  | .barcfg rs1 rs2 ctx => Sys2Proof.Machine.execBarcfg rs1 rs2 ctx s
  | .bararr ctx => Sys2Proof.Machine.execBararr ctx s
  | .barwait ctx => Sys2Proof.Machine.execBarwait ctx s
  | .bardrop ctx => Sys2Proof.Machine.execBardrop ctx s
  | .barrierSignal core ctx fromNorth desc => Sys2Proof.Machine.execBarrierSignal core ctx fromNorth desc s
  | .barrierRelease core ctx desc => Sys2Proof.Machine.execBarrierRelease core ctx desc s
  | .spawn rd rs1 rs2 => Sys2Proof.Machine.execSpawn rd rs1 rs2 s
  | .spawnW rd rs1 rs2 => Sys2Proof.Machine.execSpawnW rd rs1 rs2 s
  | .doneTask => Sys2Proof.Machine.execDoneTask s
  | .yield => Sys2Proof.Machine.execYield s
  | .suspend rs1 => Sys2Proof.Machine.execSuspend rs1 s
  | .wake rd rs1 rs2 => Sys2Proof.Machine.execWake rd rs1 rs2 s
  | .rfork rd rs1 rs2 => Sys2Proof.Machine.execRfork rd rs1 rs2 s
  | .rforkSh rd rs2 => Sys2Proof.Machine.execRforkSh rd rs2 s
  | .rhold rd rs1 => Sys2Proof.Machine.execRhold rd rs1 s
  | .rdrop rd rs1 => Sys2Proof.Machine.execRdrop rd rs1 s
  | .rcancel rd rs1 => Sys2Proof.Machine.execRcancel rd rs1 s
  | .rretire rd rs1 => Sys2Proof.Machine.execRretire rd rs1 s
  | .rstat rd rs1 rs2 => Sys2Proof.Machine.execRstat rd rs1 rs2 s
  | .msend rs1 rs2 words => Sys2Proof.Machine.execMsend rs1 rs2 words s
  | .mrecv rd rs1 => Sys2Proof.Machine.execMrecv rd rs1 s
  | .mbind rd rs1 rs2 => Sys2Proof.Machine.execMbind rd rs1 rs2 s
  | .claim rd rs1 => Sys2Proof.Machine.execClaim rd rs1 s
  | .fulfil rd rs1 rs2 => Sys2Proof.Machine.execFulfil rd rs1 rs2 s
  | .abandon rd rs1 => Sys2Proof.Machine.execAbandon rd rs1 s
  | .lpin rd rs1 => Sys2Proof.Machine.execLpin rd rs1 s
  | .lunpin rd rs1 => Sys2Proof.Machine.execLunpin rd rs1 s
  | .linval rd rs1 => Sys2Proof.Machine.execLinval rd rs1 s
  | .larderDeferredEnqueue part => Sys2Proof.Machine.execLarderDeferredEnqueue part s
  | .hbind rd rs1 rs2 => Sys2Proof.Machine.execHbind rd rs1 rs2 s
  | .hstat rd rs1 => Sys2Proof.Machine.execHstat rd rs1 s
  | .vclaim rd rs1 => Sys2Proof.Machine.execVclaim rd rs1 s
  | .vyield => Sys2Proof.Machine.execVyield s
  | .vadd vd vs1 vs2 mk et => Sys2Proof.Machine.execVadd vd vs1 vs2 mk et s
  | .vsub vd vs1 vs2 mk et => Sys2Proof.Machine.execVsub vd vs1 vs2 mk et s
  | .vmul vd vs1 vs2 mk et => Sys2Proof.Machine.execVmul vd vs1 vs2 mk et s
  | .vmin vd vs1 vs2 mk et => Sys2Proof.Machine.execVmin vd vs1 vs2 mk et s
  | .vmax vd vs1 vs2 mk et => Sys2Proof.Machine.execVmax vd vs1 vs2 mk et s
  | .vabs vd vs2 mk et => Sys2Proof.Machine.execVabs vd vs2 mk et s
  | .vneg vd vs2 mk et => Sys2Proof.Machine.execVneg vd vs2 mk et s
  | .vand vd vs1 vs2 mk et => Sys2Proof.Machine.execVand vd vs1 vs2 mk et s
  | .vor vd vs1 vs2 mk et => Sys2Proof.Machine.execVor vd vs1 vs2 mk et s
  | .vxor vd vs1 vs2 mk et => Sys2Proof.Machine.execVxor vd vs1 vs2 mk et s
  | .vnot vd vs2 mk et => Sys2Proof.Machine.execVnot vd vs2 mk et s
  | .vshl vd vs1 vs2 mk et => Sys2Proof.Machine.execVshl vd vs1 vs2 mk et s
  | .vshr vd vs1 vs2 mk et => Sys2Proof.Machine.execVshr vd vs1 vs2 mk et s
  | .vsra vd vs1 vs2 mk et => Sys2Proof.Machine.execVsra vd vs1 vs2 mk et s
  | .vsel vd vs1 vs2 mk et => Sys2Proof.Machine.execVsel vd vs1 vs2 mk et s
  | .vmov vd vs2 mk et => Sys2Proof.Machine.execVmov vd vs2 mk et s
  | .vfadd vd vs1 vs2 mk et rm => Sys2Proof.Machine.execVfadd vd vs1 vs2 mk et rm s
  | .vfsub vd vs1 vs2 mk et rm => Sys2Proof.Machine.execVfsub vd vs1 vs2 mk et rm s
  | .vfmul vd vs1 vs2 mk et rm => Sys2Proof.Machine.execVfmul vd vs1 vs2 mk et rm s
  | .vfma vd vs1 vs2 mk et rm => Sys2Proof.Machine.execVfma vd vs1 vs2 mk et rm s
  | .vfms vd vs1 vs2 mk et rm => Sys2Proof.Machine.execVfms vd vs1 vs2 mk et rm s
  | .vcvt vd src vs2 mk et rm => Sys2Proof.Machine.execVcvt vd src vs2 mk et rm s
  | .vsqrt vd vs2 mk rm => Sys2Proof.Machine.execVsqrt vd vs2 mk rm s
  | .vrcp vd vs2 mk rm => Sys2Proof.Machine.execVrcp vd vs2 mk rm s
  | .vrsq vd vs2 mk rm => Sys2Proof.Machine.execVrsq vd vs2 mk rm s
  | .vexp2 vd vs2 mk rm => Sys2Proof.Machine.execVexp2 vd vs2 mk rm s
  | .vlog2 vd vs2 mk rm => Sys2Proof.Machine.execVlog2 vd vs2 mk rm s
  | .vcmp vd vs1 vs2 mk et cc => Sys2Proof.Machine.execVcmp vd vs1 vs2 mk et cc s
  | .vsplat vd vs1 mk et => Sys2Proof.Machine.execVsplat vd vs1 mk et s
  | .vextr vd vs1 vs2 mk et => Sys2Proof.Machine.execVextr vd vs1 vs2 mk et s
  | .viota vd mk et => Sys2Proof.Machine.execViota vd mk et s
  | .vred vd op vs2 mk et => Sys2Proof.Machine.execVred vd op vs2 mk et s
  | .vscan vd op vs2 mk et => Sys2Proof.Machine.execVscan vd op vs2 mk et s
  | .vperm vd vs1 vs2 mk => Sys2Proof.Machine.execVperm vd vs1 vs2 mk s
  | .vslide vd vs1 vs2 mk => Sys2Proof.Machine.execVslide vd vs1 vs2 mk s
  | .mand vd vs1 vs2 => Sys2Proof.Machine.execMand vd vs1 vs2 s
  | .mor vd vs1 vs2 => Sys2Proof.Machine.execMor vd vs1 vs2 s
  | .mnot vd vs2 => Sys2Proof.Machine.execMnot vd vs2 s
  | .mpop vd vs2 => Sys2Proof.Machine.execMpop vd vs2 s
  | .mfirst vd vs2 => Sys2Proof.Machine.execMfirst vd vs2 s
  | .vld vd rs1 sz mk => Sys2Proof.Machine.execVld vd rs1 sz mk s
  | .vst vd rs1 sz mk => Sys2Proof.Machine.execVst vd rs1 sz mk s
  | .vlds vd rs1 xs sz mk => Sys2Proof.Machine.execVlds vd rs1 xs sz mk s
  | .vsts vd rs1 xs sz mk => Sys2Proof.Machine.execVsts vd rs1 xs sz mk s
  | .vgath vd rs1 vs2 sz mk => Sys2Proof.Machine.execVgath vd rs1 vs2 sz mk s
  | .vscat vd rs1 vs2 sz mk => Sys2Proof.Machine.execVscat vd rs1 vs2 sz mk s
  | .vldl vd rs1 sz mk => Sys2Proof.Machine.execVldl vd rs1 sz mk s
  | .vstl vd rs1 sz mk => Sys2Proof.Machine.execVstl vd rs1 sz mk s
  | .vadd16 vd vs2 => Sys2Proof.Machine.execVadd16 vd vs2 s
  | .vsub16 vd vs2 => Sys2Proof.Machine.execVsub16 vd vs2 s
  | .vmul16 vd vs2 => Sys2Proof.Machine.execVmul16 vd vs2 s
  | .vmin16 vd vs2 => Sys2Proof.Machine.execVmin16 vd vs2 s
  | .vmax16 vd vs2 => Sys2Proof.Machine.execVmax16 vd vs2 s
  | .vabs16 vd vs2 => Sys2Proof.Machine.execVabs16 vd vs2 s
  | .vneg16 vd vs2 => Sys2Proof.Machine.execVneg16 vd vs2 s
  | .vand16 vd vs2 => Sys2Proof.Machine.execVand16 vd vs2 s
  | .vor16 vd vs2 => Sys2Proof.Machine.execVor16 vd vs2 s
  | .vxor16 vd vs2 => Sys2Proof.Machine.execVxor16 vd vs2 s
  | .vnot16 vd vs2 => Sys2Proof.Machine.execVnot16 vd vs2 s
  | .vshl16 vd vs2 => Sys2Proof.Machine.execVshl16 vd vs2 s
  | .vshr16 vd vs2 => Sys2Proof.Machine.execVshr16 vd vs2 s
  | .vsra16 vd vs2 => Sys2Proof.Machine.execVsra16 vd vs2 s
  | .vmov16 vd vs2 => Sys2Proof.Machine.execVmov16 vd vs2 s
  | .vrcp16 vd vs2 => Sys2Proof.Machine.execVrcp16 vd vs2 s
  | .mcfgShape rs1 => Sys2Proof.Machine.execMcfgShape rs1 s
  | .mcfgFmt rs1 => Sys2Proof.Machine.execMcfgFmt rs1 s
  | .mcfgA rs1 rs2 => Sys2Proof.Machine.execMcfgA rs1 rs2 s
  | .mcfgB rs1 rs2 => Sys2Proof.Machine.execMcfgB rs1 rs2 s
  | .mma => Sys2Proof.Machine.execMma s
  | .mmaZ => Sys2Proof.Machine.execMmaZ s
  | .mzero rs1 => Sys2Proof.Machine.execMzero rs1 s
  | .mload rs1 rs2 => Sys2Proof.Machine.execMload rs1 rs2 s
  | .mstore rd rs1 rs2 rm => Sys2Proof.Machine.execMstore rd rs1 rs2 rm s
  | .mscale rs1 rs2 => Sys2Proof.Machine.execMscale rs1 rs2 s
  | .mcell rs1 => Sys2Proof.Machine.execMcell rs1 s
  | .ksel rd rs1 rs2 => Sys2Proof.Machine.execKsel rd rs1 rs2 s
  | .kgather rs1 => Sys2Proof.Machine.execKgather rs1 s
  | .ksreset rs1 => Sys2Proof.Machine.execKsreset rs1 s
  | .drawG rd rs1 => Sys2Proof.Machine.execDrawG rd rs1 s
  | .drawS rd rs1 => Sys2Proof.Machine.execDrawS rd rs1 s
  | .drawV rd rs1 rs2 => Sys2Proof.Machine.execDrawV rd rs1 rs2 s
  | .matrixOpComplete g => Sys2Proof.Machine.execMatrixOpComplete g s
  | .csrr rd csr => Sys2Proof.Machine.execCsrr rd csr s
  | .csrw rd rs1 csr => Sys2Proof.Machine.execCsrw rd rs1 csr s
  | .csrset rd rs1 csr => Sys2Proof.Machine.execCsrset rd rs1 csr s
  | .csrclr rd rs1 csr => Sys2Proof.Machine.execCsrclr rd rs1 csr s
  | .nop => Sys2Proof.Machine.execNop s
  | .tret => Sys2Proof.Machine.execTret s
  | .brk => Sys2Proof.Machine.execBrk s
  | .eret => Sys2Proof.Machine.execEret s
  | .rqenq rd rs1 rs2 => Sys2Proof.Machine.execRqenq rd rs1 rs2 s
  | .rqdeq rd rs1 rs2 => Sys2Proof.Machine.execRqdeq rd rs1 rs2 s
  | .slotctlQuery rd rs1 rs2 => Sys2Proof.Machine.execSlotctlQuery rd rs1 rs2 s
  | .slotctlStart rd rs1 rs2 => Sys2Proof.Machine.execSlotctlStart rd rs1 rs2 s
  | .slotctlPreempt rd rs1 rs2 => Sys2Proof.Machine.execSlotctlPreempt rd rs1 rs2 s
  | .slotctlResume rd rs1 rs2 => Sys2Proof.Machine.execSlotctlResume rd rs1 rs2 s
  | .slotctlKill rd rs1 rs2 => Sys2Proof.Machine.execSlotctlKill rd rs1 rs2 s
  | .slotctlCopystop rd rs1 rs2 => Sys2Proof.Machine.execSlotctlCopystop rd rs1 rs2 s
  | .slotctlRelease rd rs1 rs2 => Sys2Proof.Machine.execSlotctlRelease rd rs1 rs2 s
  | .closave rd rs1 rs2 => Sys2Proof.Machine.execClosave rd rs1 rs2 s
  | .clorest rd rs1 => Sys2Proof.Machine.execClorest rd rs1 s
  | .tlbinv rs1 rs2 => Sys2Proof.Machine.execTlbinv rs1 rs2 s
  | .cflushLine rs1 rs2 => Sys2Proof.Machine.execCflushLine rs1 rs2 s
  | .cflushWriteback rs1 rs2 => Sys2Proof.Machine.execCflushWriteback rs1 rs2 s
  | .cflushAll rs1 rs2 => Sys2Proof.Machine.execCflushAll rs1 rs2 s
  | .halt => Sys2Proof.Machine.execHalt s
  | .trapImm imm => Sys2Proof.Machine.execTrapImm imm s
  | .takeAsyncTrap g => Sys2Proof.Machine.execTakeAsyncTrap g s
  | .budgetExpiry g => Sys2Proof.Machine.execBudgetExpiry g s
  | .timercmpExpiry core => Sys2Proof.Machine.execTimercmpExpiry core s
  | .loadComplete g data code => Sys2Proof.Machine.execLoadComplete g data code s
  | .atomicComplete g data code => Sys2Proof.Machine.execAtomicComplete g data code s
  | .dispatch core => Sys2Proof.Machine.execDispatch core s
  | .resumeContext core => Sys2Proof.Machine.execResumeContext core s
  | .timerPreemption core => Sys2Proof.Machine.execTimerPreemption core s
  | .demandPreemption core => Sys2Proof.Machine.execDemandPreemption core s
  | .ringMove queue level => Sys2Proof.Machine.execRingMove queue level s
  | .launchQueueWrite die part offset data => Sys2Proof.Machine.execLaunchQueueWrite die part offset data s
  | .launchAccept die part => Sys2Proof.Machine.execLaunchAccept die part s
  | .requestExpiry rtag => Sys2Proof.Machine.execRequestExpiry rtag s
  | .annulNoticeArrival die rtag => Sys2Proof.Machine.execAnnulNoticeArrival die rtag s
  | .slotAnnul g => Sys2Proof.Machine.execSlotAnnul g s
  | .annulAckArrival rtag die => Sys2Proof.Machine.execAnnulAckArrival rtag die s
  | .peerWorkArrival work => Sys2Proof.Machine.execPeerWorkArrival work s
  | .peerCancelNotice dev rtag => Sys2Proof.Machine.execPeerCancelNotice dev rtag s
  | .drainMarker dev rtag => Sys2Proof.Machine.execDrainMarker dev rtag s
  | .drainAck rtag peer => Sys2Proof.Machine.execDrainAck rtag peer s
  | .noproxyResend g => Sys2Proof.Machine.execNoproxyResend g s
  | .messageArrival core cls msg => Sys2Proof.Machine.execMessageArrival core cls msg s
  | .freeSlotNotice core => Sys2Proof.Machine.execFreeSlotNotice core s
  | .copyLinear core hatch => Sys2Proof.Machine.execCopyLinear core hatch s
  | .copyStrided core hatch => Sys2Proof.Machine.execCopyStrided core hatch s
  | .copyGather core hatch => Sys2Proof.Machine.execCopyGather core hatch s
  | .copyScatter core hatch => Sys2Proof.Machine.execCopyScatter core hatch s
  | .copyResume core hatch => Sys2Proof.Machine.execCopyResume core hatch s
  | .collGroup core hatch => Sys2Proof.Machine.execCollGroup core hatch s
  | .collAllreduce core hatch => Sys2Proof.Machine.execCollAllreduce core hatch s
  | .collAllgather core hatch => Sys2Proof.Machine.execCollAllgather core hatch s
  | .collRedscat core hatch => Sys2Proof.Machine.execCollRedscat core hatch s
  | .collBcast core hatch => Sys2Proof.Machine.execCollBcast core hatch s
  | .cellarRead core hatch => Sys2Proof.Machine.execCellarRead core hatch s
  | .cellarWrite core hatch => Sys2Proof.Machine.execCellarWrite core hatch s
  | .stairSend core hatch => Sys2Proof.Machine.execStairSend core hatch s
  | .stairReset core hatch => Sys2Proof.Machine.execStairReset core hatch s
  | .stairBuf core hatch => Sys2Proof.Machine.execStairBuf core hatch s
  | .stairFree core hatch => Sys2Proof.Machine.execStairFree core hatch s
  | .stairRecordArrival dir => Sys2Proof.Machine.execStairRecordArrival dir s
  | .stairResetArrival dir number => Sys2Proof.Machine.execStairResetArrival dir number s
  | .commandCompletion id => Sys2Proof.Machine.execCommandCompletion id s
  | .nvmeCompletion id status data => Sys2Proof.Machine.execNvmeCompletion id status data s
  | .walkComplete g => Sys2Proof.Machine.execWalkComplete g s
  | .dirtyLogMerge core => Sys2Proof.Machine.execDirtyLogMerge core s
  | .dharvestGo cluster => Sys2Proof.Machine.execDharvestGo cluster s
  | .fbheadRead die => Sys2Proof.Machine.execFbheadRead die s
  | .fbrespRetry die index => Sys2Proof.Machine.execFbrespRetry die index s
  | .fbrespFailXlate die index => Sys2Proof.Machine.execFbrespFailXlate die index s
  | .fbrespFailPerm die index => Sys2Proof.Machine.execFbrespFailPerm die index s
  | .clustctlDrain cluster => Sys2Proof.Machine.execClustctlDrain cluster s
  | .clustctlAssign cluster part => Sys2Proof.Machine.execClustctlAssign cluster part s
  | .rtfreeWrite die value => Sys2Proof.Machine.execRtfreeWrite die value s
  | .dqctlWrite die part value => Sys2Proof.Machine.execDqctlWrite die part value s
  | .ringdWrite queue level value => Sys2Proof.Machine.execRingdWrite queue level value s
  | .ffpoolWrite die part value => Sys2Proof.Machine.execFfpoolWrite die part value s
  | .fftailWrite die part value => Sys2Proof.Machine.execFftailWrite die part value s
  | .walkshareWrite cluster part value => Sys2Proof.Machine.execWalkshareWrite cluster part value s
  | .tilecapWrite tile value => Sys2Proof.Machine.execTilecapWrite tile value s
  | .statusSchedWrite g value => Sys2Proof.Machine.execStatusSchedWrite g value s
  | .timercmpWrite core value => Sys2Proof.Machine.execTimercmpWrite core value s
  | .lmsplitWrite core value => Sys2Proof.Machine.execLmsplitWrite core value s
  | .lmshareWrite core value => Sys2Proof.Machine.execLmshareWrite core value s
  | .lmgroupWrite tile value => Sys2Proof.Machine.execLmgroupWrite tile value s
  | .dsplitWrite die value => Sys2Proof.Machine.execDsplitWrite die value s
  | .vgrantWrite g value => Sys2Proof.Machine.execVgrantWrite g value s
  | .freqreqWrite core value => Sys2Proof.Machine.execFreqreqWrite core value s
  | .featmaskWrite core value => Sys2Proof.Machine.execFeatmaskWrite core value s
  | .budgetleftWrite g value => Sys2Proof.Machine.execBudgetleftWrite g value s
  | .registerWrite addr value => Sys2Proof.Machine.execRegisterWrite addr value s
  | .dvfsStep tile => Sys2Proof.Machine.execDvfsStep tile s
  | .powerPeriod reading => Sys2Proof.Machine.execPowerPeriod reading s
  | .timeSync offset route => Sys2Proof.Machine.execTimeSync offset route s
  | .linkFailure port => Sys2Proof.Machine.execLinkFailure port s
  | .atsInvalidation page => Sys2Proof.Machine.execAtsInvalidation page s
  | .hostMemAccess write addr data => Sys2Proof.Machine.execHostMemAccess write addr data s
  | .driveTimeout port => Sys2Proof.Machine.execDriveTimeout port s
  | .driveLinkDown port => Sys2Proof.Machine.execDriveLinkDown port s
  | .deviceReset => Sys2Proof.Machine.execDeviceReset s
  | .romSelfCheck ok => Sys2Proof.Machine.execRomSelfCheck ok s
  | .firmwareVerify => Sys2Proof.Machine.execFirmwareVerify s
  | .calibration found => Sys2Proof.Machine.execCalibration found s
  | .memoryInit ok => Sys2Proof.Machine.execMemoryInit ok s
  | .firmwareConfig ok ptm writes => Sys2Proof.Machine.execFirmwareConfig ok ptm writes s
  | .setReady => Sys2Proof.Machine.execSetReady s
  | .firmwareDelivery image => Sys2Proof.Machine.execFirmwareDelivery image s
  | .rollbackRaise counter => Sys2Proof.Machine.execRollbackRaise counter s
  | .getVersion => Sys2Proof.Machine.execGetVersion s
  | .getCapabilities => Sys2Proof.Machine.execGetCapabilities s
  | .negotiateAlgorithms sha256 slhDsa => Sys2Proof.Machine.execNegotiateAlgorithms sha256 slhDsa s
  | .getDigests => Sys2Proof.Machine.execGetDigests s
  | .getCertificate offset length => Sys2Proof.Machine.execGetCertificate offset length s
  | .getMeasurements index signed nonce => Sys2Proof.Machine.execGetMeasurements index signed nonce s
  | .illegalOp g encoding => Sys2Proof.Machine.execIllegalOp g encoding s
  | .fetchFault g => Sys2Proof.Machine.execFetchFault g s
  | .preemptionComplete core => Sys2Proof.Machine.execPreemptionComplete core s
  | .dieToDieLinkFailure stair => Sys2Proof.Machine.execDieToDieLinkFailure stair s
  | .driveControllerReady port => Sys2Proof.Machine.execDriveControllerReady port s
  | .harvestComplete cluster => Sys2Proof.Machine.execHarvestComplete cluster s

end Sys2Proof.Machine
end

