-- ==== Sys2Proof/Machine/Events.lean ====
section
/-! DEFINITION. What each event does: the meaning of the opcode-table row of its name, and of an SPDM request that has no row. -/

namespace Sys2Proof.Machine

/-- An event happens. -/
def runEvent (e : Event) (s : State) : Out :=
  match e with
  | .twBackoffExpiry g => execTwBackoffExpiry g s
  | .taggedOpComplete g => execTaggedOpComplete g s
  | .waitLimitExpiry g => execWaitLimitExpiry g s
  | .withdrawalAnswer g => execWithdrawalAnswer g s
  | .publishComplete g => execPublishComplete g s
  | .monitorWake g entry => execMonitorWake g entry s
  | .monwaitTimeout g => execMonwaitTimeout g s
  | .barrierSignal core ctx fromNorth desc => execBarrierSignal core ctx fromNorth desc s
  | .barrierRelease core ctx desc => execBarrierRelease core ctx desc s
  | .larderDeferredEnqueue part => execLarderDeferredEnqueue part s
  | .matrixOpComplete g => execMatrixOpComplete g s
  | .takeAsyncTrap g => execTakeAsyncTrap g s
  | .budgetExpiry g => execBudgetExpiry g s
  | .timercmpExpiry core => execTimercmpExpiry core s
  | .loadComplete g data code => execLoadComplete g data code s
  | .atomicComplete g data code => execAtomicComplete g data code s
  | .dispatch core => execDispatch core s
  | .resumeContext core => execResumeContext core s
  | .timerPreemption core => execTimerPreemption core s
  | .demandPreemption core => execDemandPreemption core s
  | .ringMove queue level => execRingMove queue level s
  | .launchQueueWrite die part offset data => execLaunchQueueWrite die part offset data s
  | .launchAccept die part => execLaunchAccept die part s
  | .requestExpiry rtag => execRequestExpiry rtag s
  | .annulNoticeArrival die rtag => execAnnulNoticeArrival die rtag s
  | .slotAnnul g => execSlotAnnul g s
  | .annulAckArrival rtag die => execAnnulAckArrival rtag die s
  | .peerWorkArrival work => execPeerWorkArrival work s
  | .peerCancelNotice dev rtag => execPeerCancelNotice dev rtag s
  | .drainMarker dev rtag => execDrainMarker dev rtag s
  | .drainAck rtag peer => execDrainAck rtag peer s
  | .noproxyResend g => execNoproxyResend g s
  | .messageArrival core cls msg => execMessageArrival core cls msg s
  | .freeSlotNotice core => execFreeSlotNotice core s
  | .copyLinear core hatch => execCopyLinear core hatch s
  | .copyStrided core hatch => execCopyStrided core hatch s
  | .copyGather core hatch => execCopyGather core hatch s
  | .copyScatter core hatch => execCopyScatter core hatch s
  | .copyResume core hatch => execCopyResume core hatch s
  | .collGroup core hatch => execCollGroup core hatch s
  | .collAllreduce core hatch => execCollAllreduce core hatch s
  | .collAllgather core hatch => execCollAllgather core hatch s
  | .collRedscat core hatch => execCollRedscat core hatch s
  | .collBcast core hatch => execCollBcast core hatch s
  | .cellarRead core hatch => execCellarRead core hatch s
  | .cellarWrite core hatch => execCellarWrite core hatch s
  | .stairSend core hatch => execStairSend core hatch s
  | .stairReset core hatch => execStairReset core hatch s
  | .stairBuf core hatch => execStairBuf core hatch s
  | .stairFree core hatch => execStairFree core hatch s
  | .stairRecordArrival dir => execStairRecordArrival dir s
  | .stairResetArrival dir number => execStairResetArrival dir number s
  | .commandCompletion id => execCommandCompletion id s
  | .nvmeCompletion id status data => execNvmeCompletion id status data s
  | .walkComplete g => execWalkComplete g s
  | .dirtyLogMerge core => execDirtyLogMerge core s
  | .dharvestGo cluster => execDharvestGo cluster s
  | .fbheadRead die => execFbheadRead die s
  | .fbrespRetry die index => execFbrespRetry die index s
  | .fbrespFailXlate die index => execFbrespFailXlate die index s
  | .fbrespFailPerm die index => execFbrespFailPerm die index s
  | .clustctlDrain cluster => execClustctlDrain cluster s
  | .clustctlAssign cluster part => execClustctlAssign cluster part s
  | .rtfreeWrite die value => execRtfreeWrite die value s
  | .dqctlWrite die part value => execDqctlWrite die part value s
  | .ringdWrite queue level value => execRingdWrite queue level value s
  | .ffpoolWrite die part value => execFfpoolWrite die part value s
  | .fftailWrite die part value => execFftailWrite die part value s
  | .walkshareWrite cluster part value => execWalkshareWrite cluster part value s
  | .tilecapWrite tile value => execTilecapWrite tile value s
  | .statusSchedWrite g value => execStatusSchedWrite g value s
  | .timercmpWrite core value => execTimercmpWrite core value s
  | .lmsplitWrite core value => execLmsplitWrite core value s
  | .lmshareWrite core value => execLmshareWrite core value s
  | .lmgroupWrite tile value => execLmgroupWrite tile value s
  | .dsplitWrite die value => execDsplitWrite die value s
  | .vgrantWrite g value => execVgrantWrite g value s
  | .freqreqWrite core value => execFreqreqWrite core value s
  | .featmaskWrite core value => execFeatmaskWrite core value s
  | .budgetleftWrite g value => execBudgetleftWrite g value s
  | .registerWrite addr value => execRegisterWrite addr value s
  | .dvfsStep tile => execDvfsStep tile s
  | .powerPeriod reading => execPowerPeriod reading s
  | .timeSync offset route => execTimeSync offset route s
  | .linkFailure port => execLinkFailure port s
  | .atsInvalidation page => execAtsInvalidation page s
  | .hostMemAccess write addr data => execHostMemAccess write addr data s
  | .driveTimeout port => execDriveTimeout port s
  | .driveLinkDown port => execDriveLinkDown port s
  | .deviceReset => execDeviceReset s
  | .romSelfCheck ok => execRomSelfCheck ok s
  | .firmwareVerify => execFirmwareVerify s
  | .calibration found => execCalibration found s
  | .memoryInit ok => execMemoryInit ok s
  | .firmwareConfig ok ptm writes => execFirmwareConfig ok ptm writes s
  | .setReady => execSetReady s
  | .firmwareDelivery image => execFirmwareDelivery image s
  | .rollbackRaise counter => execRollbackRaise counter s
  | .getVersion => execGetVersion s
  | .getCapabilities => execGetCapabilities s
  | .negotiateAlgorithms sha256 slhDsa => execNegotiateAlgorithms sha256 slhDsa s
  | .getDigests => execGetDigests s
  | .getCertificate offset length => execGetCertificate offset length s
  | .getMeasurements index signed nonce => execGetMeasurements index signed nonce s
  | .spdmRequest code => execSpdmRequest code s
  | .illegalOp g encoding => execIllegalOp g encoding s
  | .fetchFault g => execFetchFault g s
  | .preemptionComplete core => execPreemptionComplete core s
  | .dieToDieLinkFailure stair => execDieToDieLinkFailure stair s
  | .driveControllerReady port => execDriveControllerReady port s
  | .harvestComplete cluster => execHarvestComplete cluster s

end Sys2Proof.Machine
end

