-- ==== Sys2Proof/Machine/Due.lean ====
section
/-! DEFINITION. What is due, which slot issues next, and what passes at every step: the parts of the step (R42, R43, R55, R98, R381). The manual's
latencies are nominal, so an event happens as soon as its condition holds and the order among those due is the model's, a DESIGN CHOICE, log 4. -/

namespace Sys2Proof.Machine

/-! Events that a state calls for. -/

/-- The walk of a fault-held slot can end now. -/
def walkDue (s : State) (g va : Nat) : Bool :=
  let p := s.partOf (coreOf g)
  (tlbFind s (coreOf g) va).isSome ||
  (match walk s p va with
    | .leaf _ _ _ _ _ => true
    | .absent _ _ _ _ => !(s.services.any (fun v => v.part = p && v.page = va / 65536)) || (!(s.slot g).stays && !isVictim s g)
    | .fault _ _ => false)

/-- The wait has reached WAITLIM (R192). -/
def limitReached (s : State) (t : Slot) : Bool := t.waitlim != 0 && decide (t.waitlim.toNat ≤ s.waited t)

/-- The link an operation in flight would be answered over has failed: it ends as one in flight at the failure (R422). -/
def linkLost (s : State) (op : PeerWait) : Bool := portDown s (portOf s op.addr)

/-- An operation of slot g over a link that is down ends with MEMERR. -/
def lostAnswer (g : Nat) : PeerWait → Event
  | .load _ _ _ _ => .loadComplete g 0 0x0B
  | .atomic _ _ _ _ => .atomicComplete g 0 0x0B
  | .word _ => .loadComplete g 0 0x0B

/-- What is due for a slot. -/
def slotDue (s : State) (g : Nat) (t : Slot) : Option Event :=
  if !t.occupied then none
  else if slotDoomed s g && !endAwaited s g then some (.slotAnnul g)
  else if t.inForce && t.budget = 0 then some (.budgetExpiry g)
  else
    match t.wait with
    | some (.tagged _ d _ r) =>
      if limitReached s t then some (.waitLimitExpiry g)
      else if !d && decide (r ≤ s.time) && !isVictim s g && !resendCapped s g then some (.twBackoffExpiry g)
      else none
    | some (.tagAnswer _ _ _) => some (.taggedOpComplete g)
    | some (.withdrawn _ _) => some (.withdrawalAnswer g)
    | some (.barrier _) => if t.state = .waiting && limitReached s t then some (.waitLimitExpiry g) else none
    | some (.monitor _ limit) => if t.state = .waiting && decide (limit ≤ s.waited t) then some (.monwaitTimeout g) else none
    | some (.fault va) => if walkDue s g va then some (.walkComplete g) else none
    | some (.peer op false) => if linkLost s op then some (lostAnswer g op) else none
    | some (.peer _ true) => if t.since + nsOf 4096 ≤ s.time then some (.noproxyResend g) else none
    | _ => if (governedHeld t).isSome && limitReached s t then some (.waitLimitExpiry g) else none

/-- The command an engine can take from a core's Hatches. -/
def takeDue (s : State) (c : Nat) (k : Core) : Option Event :=
  k.hatches.findSome? (fun h => if (takeable s c h.1).isSome then some (takeEvent h.2 c h.1) else none)

/-- What is due for a core. -/
def coreDue (s : State) (c : Nat) (k : Core) : Option Event :=
  if 16 ≤ k.dirtyLog.length then some (.dirtyLogMerge c)
  else if k.sched && !k.timer && reached k.timercmp s.time then some (.timercmpExpiry c)
  else
    (k.preempt.bind (fun p => if preemptionReady s p then some (.preemptionComplete c) else none)).or <|
    (k.unitBusy.bind (fun u => if unitClear s u.1 u.2 then some (.matrixOpComplete u.1) else none)).or (takeDue s c k)

/-- A preemption the hardware of a core starts. -/
def preemptDue (s : State) (c : Nat) : Option Event :=
  if !mayPreempt s c then none
  else if (demandVictim s c).isSome then some (.demandPreemption c)
  else if (timerVictim s c).isSome then some (.timerPreemption c)
  else none

/-- Cores that have a free slot and work for it. -/
def dispatchable (s : State) : List Nat :=
  if s.levels.all (fun v => v.2.entries.isEmpty) && s.cores.all (fun k => k.2.saved.isEmpty) then []
  else (List.range 2048).filter (fun c => hardwareCore s c && !(freeSlots s c false).isEmpty && (nextWork s c).isSome)

/-- The dispatch that is due; which core takes the work, when several may, is free (R36). -/
def dispatchDue (s : State) : Option (Event × State) :=
  match dispatchable s with
  | [] => none
  | c :: r =>
    let (n, s1) := s.fresh
    let d := (c :: r).getD (Config.pick n % (r.length + 1)) c
    some (if resumeNext s d then .resumeContext d else .dispatch d, s1)

/-- What is due for a request entry (R60, R61). -/
def reqDue (s : State) (r : Nat) (q : Req) : Option Event :=
  if q.state = .live then (if reached q.instant s.time then some (.requestExpiry r) else none)
  else if q.state = .free then none
  else ((List.range 4).find? (fun d => q.noticed.contains d && !q.swept.contains d && dieClear s r d)).map (fun d => .annulAckArrival r d)

/-- What is due for a command at an engine, or kept for its completion word. -/
def commandDue (s : State) : Option Event := ((allCmds s).find? (canGoOn s)).map (fun x => .commandCompletion x.id)

/-- A key-selection unit can perform the operation in service (R260). -/
def keysDue (s : State) : Option Event := s.clusters.findSome? (fun k => (keyDue s k.1).map (fun u => .matrixOpComplete u.1))

/-- A drive has left a command outstanding too long (R430). -/
def drivesDue (s : State) : Option Event := ((List.range 8).find? (driveLate s)).map .driveTimeout

/-- A Stair's head record can be settled. -/
def stairDue (s : State) : Option Event :=
  ((List.range 8).find? (fun d =>
    match headRecord s d with
    | some x => verdict s d x != .wait && !blocked s x
    | none => false)).map .stairRecordArrival

/-- Peer work that waited here and can go on. -/
def inboxDue (s : State) : Option Event := (s.inbox.find? (workReady s)).map (fun w => .peerWorkArrival w.1)

/-- The first event the state calls for, with the state it happens in. -/
def due (s : State) : Option (Event × State) :=
  let fixed : Option Event :=
    (s.reqs.findSome? (fun q => reqDue s q.1 q.2)).or <|
    (s.slots.findSome? (fun t => slotDue s t.1 t.2)).or <|
    (s.cores.findSome? (fun k => coreDue s k.1 k.2)).or <|
    (s.levels.findSome? (fun v =>
      if !v.2.ring.isEmpty && decide (v.2.entries.length < qCapacity (v.1 / 4)) then some (.ringMove (v.1 / 4) (v.1 % 4)) else none)).or <|
    (s.launch.findSome? (fun q => match q.2.records with
      | w :: _ => if recordWaits s (q.1 / 16) (q.1 % 16) w then none else some (.launchAccept (q.1 / 16) (q.1 % 16))
      | [] => none)).or <|
    (s.larders.findSome? (fun l => if stalledReady s l.1 then some (.larderDeferredEnqueue l.1) else none)).or <|
    (stairDue s).or <|
    (keysDue s).or <|
    (drivesDue s).or <|
    (commandDue s).or <|
    (inboxDue s).or <|
    (s.tiles.findSome? (fun t => match t.2.moving with | some m => if m.2 ≤ s.time then some (.dvfsStep t.1) else none | none => none)).or <|
    (s.cores.findSome? (fun k => preemptDue s k.1))
  match fixed with
  | some e => some (e, s)
  | none => dispatchDue s

/-! Slots (R42, R43). -/

/-- A wait that the slot's next turn tries again: nothing but its own instruction ends it. -/
def retries : Option Wait → Bool
  | none => true
  | some (.tagged _ _ _ _) => false
  | some (.tagAnswer _ _ _) => false
  | some (.withdrawn _ _) => false
  | some .matrix => false
  | some .keyUnit => false
  | some (.peer _ _) => false
  | some (.fault _) => false
  | some (.preempting _) => false
  | some _ => true

/-- The slot's issued instruction must be finished before the slot can be saved or end (R50 step 2): it awaits an answer, holds a checked access, is part-way
through a vector access, or has values to write. -/
def finishing (s : State) (g : Nat) : Bool := replyAwaited s g || !saveReady s g

/-- The slot can take a turn: ready, or waiting for what its turn will find; one that is being preempted or is to end only to finish what it has issued, and
one out of rotation only to go on with the instruction it has issued (R417). -/
def runnable (s : State) (g : Nat) : Bool :=
  let t := s.slot g
  (t.state = .ready || (t.state = .waiting && retries t.wait)) &&
  (!isVictim s g || finishing s g) && (!slotDoomed s g || endAwaited s g) &&
  (!(removedSlots s (coreOf g)).contains (g % 16) || issuedWait t.wait)

/-- The first number after `last`, cyclically. -/
def cyclic (last : Nat) (l : List Nat) : Option Nat := (l.find? (fun n => decide (last < n))).or l.head?

/-- The slot that takes the next turn: cores in turn, on each the first after the slot chosen last (R42). A task just dispatched waits for the turns that the read of
its CR and its first fetch take, while another slot of its core can issue (R37). -/
def nextSlot (s : State) : Option Nat :=
  let l := (s.slots.map (fun t => t.1)).filter (runnable s)
  (cyclic s.curCore ((l.map coreOf).eraseDups)).bind (fun c =>
    let here := l.filter (fun g => coreOf g = c)
    let begun := here.filter (fun g => decide ((s.slot g).first ≤ (s.core c).turns))
    (cyclic (s.core c).lastSlot ((if begun.isEmpty then here else begun).map (fun g => g % 16))).map (fun k => c * 16 + k))

/-! What passes at every step. -/

/-- Budgets are charged for the time that has passed (R381). -/
def chargeBudgets (s : State) (before : Nat) : State :=
  let n := cyclesOf s.time - cyclesOf before
  { s with slots := s.slots.map (fun t =>
      if t.2.inForce && t.2.occupied then (t.1, { t.2 with budget := BitVec.ofNat 32 (t.2.budget.toNat - n) }) else t) }

/-- Time passes (R427): how much is free, log 4. -/
def passTime (s : State) : State :=
  let (n, s1) := s.fresh
  chargeBudgets { s1 with time := s1.time + Config.elapsed n } s.time

/-- A running copy writes some of its granules, at the engine's choice (R302). -/
def copySome (s : State) : State :=
  match (s.clusters.flatMap (fun k => k.2.copies)).find? (fun x => x.planned && !x.ended && !x.suspended) with
  | none => s
  | some x =>
    let (n, s1) := s.fresh
    copyProgress s1 x.id (Config.pick n % (x.left.length + 1))

/-- Entries whose last condition has come return to the pool (R63). -/
def freeEntries (s : State) : State :=
  s.reqs.foldl (fun s q => if q.2.state = .annulled || q.2.state = .retired then tryFree s q.1 else s) s

/-- Commands that stand whole in a Hatch under a tag that is not LIVE are ended as annulled work (R58). -/
def sweepHatches (s : State) : State :=
  s.cores.foldl (fun s k =>
    k.2.hatches.foldl (fun s h =>
      if !h.2.isEngine then s
      else
        (((headersOf h.2.cmd 0).filter (fun e => !s.liveTag e.rtag)).map (fun e => e.rtag)).eraseDups.foldl (fun s r =>
          dropFrom s k.1 h.1 r false (s.hatch k.1 h.1).cmd [] 9) s) s) s

/-- After every turn and event: message runs enter their Hatches, commands of annulled work leave theirs, copies and drains go on, entries free, host
invalidations complete, time passes. -/
def tick (s : State) : State :=
  passTime (finishAts (freeEntries (drainAll (copySome (sweepHatches (fillHatches s s.curCore))))))

end Sys2Proof.Machine
end

