-- ==== Sys2Proof/Machine/Turn.lean ====
section
/-! DEFINITION. A slot's turn, and what a step performs: an event, or the next slot's turn (R42, R139, R140). -/

namespace Sys2Proof.Machine

/-- An outcome with its next state changed. -/
def onNext (o : Out) (f : State → State) : Out :=
  match o with
  | .next s => .next (f s)
  | .fault r => .fault r
  | .refused r => .refused r

/-- A slot that waits in an instruction it has issued goes on with it, whatever its memory, registers or checks would say by then (R93). -/
def noteIssued (i : Instr) (g : Nat) (s : State) : State :=
  if issuedWait (s.slot g).wait then { s.modSlot g (fun t => { t with inst := some (i, s.nextId) }) with nextId := s.nextId + 1 } else s

/-- The instruction that slot g has issued goes on; or the one at its PC is fetched, decoded and performed (R139, R140). -/
def performNext (s : State) (g : Nat) : Out :=
  match (s.slot g).issued with
  | some x => exec x.1 s
  | none =>
    match fetch s with
    | .stop s1 => .next s1
    | .go h s1 =>
      match decodeHalves h.1 h.2 with
      | none => execIllegalOp g (fetchedWord h) s1
      | some i => onNext (exec (resolve s1 i) s1) (noteIssued (resolve s1 i) g)

/-- The state in which slot g takes its turn: it is the slot its core has chosen last (R42), and parts of barrier phases that need no arrival have gone on (R207). -/
def turnState (s : State) (g : Nat) : State :=
  barriersGo ((s.actFor g).modCore (coreOf g) (fun k => { k with lastSlot := g % 16, turns := k.turns + 1 }))

/-- Slot g's turn (R42): values that have returned and wait for a scoreboard entry are written (R295); else a pending asynchronous trap comes first (R350), then
a failure its logged stores met, at a boundary (R398), then its next instruction. -/
def turn (s : State) (g : Nat) : Out :=
  let s1 := turnState s g
  match (s1.slot g).wait with
  | some (.late vs) => .next (writeBack s1 g vs)
  | w =>
    if (asyncCause s1 g).isSome then .next (takeAsync s1 g)
    else if (s1.slot g).logFailed.isSome && !issuedWait w then .next (takeFailure s1 g)
    else performNext s1 g

/-- The oldest event due, then what the state calls for, then the next slot's turn; before READY only the first (R21, R435). -/
def proceed (s : State) : Out :=
  match s.pending with
  | e :: r => runEvent e { s with pending := r }
  | [] =>
    if !s.ready then .next s
    else
      match due s with
      | some (e, s1) => runEvent e s1
      | none =>
        match nextSlot s with
        | some g => turn s g
        | none => .next (barriersGo s)

end Sys2Proof.Machine
end

