-- ==== Sys2Proof/Machine/Step.lean ====
section
/-! DEFINITION. One step of the device, and the state in which a given word is what the next step performs. -/

namespace Sys2Proof.Machine

/-- One step. The schedule may name the slot whose turn comes next. -/
def step (s : State) : Host.Outcome State Fault Refusal :=
  match s.schedule with
  | some g :: r =>
    let s1 := { s with schedule := r }
    if s1.ready && runnable s1 g then onNext (turn s1 g) tick else .next (tick s1)
  | none :: r => onNext (proceed { s with schedule := r }) tick
  | [] => onNext (proceed s) tick

/-- The state with an instruction where the next step fetches: slot 0 of core 0 holds a task at address 0, whose page its TLB maps, and takes the next
turn. -/
def State.withFetchWord (s : State) (_nbits w : Nat) : State :=
  let page : TlbEntry := { asid := (s.core 0).asid.toNat, base := 0, log2 := 16, pa := 0, leaf := 0x7F#64 }
  let s1 := (s.modCore 0 (fun k => { k with tlb := page :: k.tlb, preempt := none, removed := 0, sideLog := [] })).modSlot 0 (fun t =>
    { t with state := .ready, wait := none, pc := 0, ie := false, budgetPending := false, logFailed := none })
  { s1 with
    ready := true, stage := 6, schedule := [some 0], bad := s.bad.filter (fun a => decide (4 ≤ a))
    mem := s1.mem.writes (cellsAt 0 (bytesOf w 4)) }

end Sys2Proof.Machine
end

