-- ==== Sys2Proof/Safety.lean ====
section
/-! DEFINITION. The words statements are written in: what an instruction needs to issue, that it has issued, that its result can be written, that an access
passes its checks, and what a safe state and a safe run are. -/

namespace Sys2Proof.Machine

/-- What an encoded instruction needs to issue from a slot (R137-R140): its feature level, mode, lanes, legality under VTYPE, and its scalar fields in
order; none for an event. -/
def needs (i : Instr) (t : Slot) : Option Issue :=
  match i with
  | .add rd rs1 rs2 => some { srcs := [rs1, rs2], dst := some rd }
  | .sub rd rs1 rs2 => some { srcs := [rs1, rs2], dst := some rd }
  | .and rd rs1 rs2 => some { srcs := [rs1, rs2], dst := some rd }
  | .andn rd rs1 rs2 => some { srcs := [rs1, rs2], dst := some rd }
  | .or rd rs1 rs2 => some { srcs := [rs1, rs2], dst := some rd }
  | .xor rd rs1 rs2 => some { srcs := [rs1, rs2], dst := some rd }
  | .sll rd rs1 rs2 => some { srcs := [rs1, rs2], dst := some rd }
  | .srl rd rs1 rs2 => some { srcs := [rs1, rs2], dst := some rd }
  | .sra rd rs1 rs2 => some { srcs := [rs1, rs2], dst := some rd }
  | .rot rd rs1 rs2 => some { srcs := [rs1, rs2], dst := some rd }
  | .mul rd rs1 rs2 => some { srcs := [rs1, rs2], dst := some rd }
  | .mulh rd rs1 rs2 => some { srcs := [rs1, rs2], dst := some rd }
  | .mulhn rd rs1 rs2 => some { srcs := [rs1, rs2], dst := some rd }
  | .div rd rs1 rs2 => some { srcs := [rs1, rs2], dst := some rd }
  | .divn rd rs1 rs2 => some { srcs := [rs1, rs2], dst := some rd }
  | .rem rd rs1 rs2 => some { srcs := [rs1, rs2], dst := some rd }
  | .remn rd rs1 rs2 => some { srcs := [rs1, rs2], dst := some rd }
  | .min rd rs1 rs2 => some { srcs := [rs1, rs2], dst := some rd }
  | .max rd rs1 rs2 => some { srcs := [rs1, rs2], dst := some rd }
  | .minn rd rs1 rs2 => some { srcs := [rs1, rs2], dst := some rd }
  | .maxn rd rs1 rs2 => some { srcs := [rs1, rs2], dst := some rd }
  | .clz rd rs1 => some { srcs := [rs1], dst := some rd }
  | .ctz rd rs1 => some { srcs := [rs1], dst := some rd }
  | .popc rd rs1 => some { srcs := [rs1], dst := some rd }
  | .brev rd rs1 => some { srcs := [rs1], dst := some rd }
  | .bswap rd rs1 => some { srcs := [rs1], dst := some rd }
  | .csel rd rs1 rs2 _ => some { srcs := [rs1, rs2], dst := some rd }
  | .addi rd rs1 _ => some { srcs := [rs1], dst := some rd }
  | .andi rd rs1 _ => some { srcs := [rs1], dst := some rd }
  | .ori rd rs1 _ => some { srcs := [rs1], dst := some rd }
  | .xori rd rs1 _ => some { srcs := [rs1], dst := some rd }
  | .slli rd rs1 _ => some { srcs := [rs1], dst := some rd }
  | .srli rd rs1 _ => some { srcs := [rs1], dst := some rd }
  | .srai rd rs1 _ => some { srcs := [rs1], dst := some rd }
  | .roti rd rs1 _ => some { srcs := [rs1], dst := some rd }
  | .extS rd rs1 _ _ => some { srcs := [rs1], dst := some rd }
  | .extn rd rs1 _ _ => some { srcs := [rs1], dst := some rd }
  | .insF rd rs1 _ _ => some { srcs := [rs1, rd] }
  | .lih rd _ => some { dst := some rd }
  | .addpc rd _ => some { dst := some rd }
  | .cmp _ rs1 rs2 _ => some { srcs := [rs1, rs2] }
  | .cmpi _ _ rs1 _ => some { srcs := [rs1] }
  | .pand _ _ _ => some {}
  | .por _ _ _ => some {}
  | .pxor _ _ _ => some {}
  | .pandn _ _ _ => some {}
  | .pset _ rs1 => some { srcs := [rs1] }
  | .pget rd => some { dst := some rd }
  | .bp _ _ => some {}
  | .bnp _ _ => some {}
  | .cbz rs1 _ => some { srcs := [rs1] }
  | .cbnz rs1 _ => some { srcs := [rs1] }
  | .jal rd _ => some { dst := some rd }
  | .jalr rd rs1 _ => some { srcs := [rs1], dst := some rd }
  | .ldS8 rd rs1 _ => some { srcs := [rs1], dst := some rd }
  | .ldN8 rd rs1 _ => some { srcs := [rs1], dst := some rd }
  | .ldS16 rd rs1 _ => some { srcs := [rs1], dst := some rd }
  | .ldN16 rd rs1 _ => some { srcs := [rs1], dst := some rd }
  | .ldS32 rd rs1 _ => some { srcs := [rs1], dst := some rd }
  | .ldN32 rd rs1 _ => some { srcs := [rs1], dst := some rd }
  | .ldD64 rd rs1 _ => some { srcs := [rs1], dst := some rd }
  | .stN8 _ rs1 rs2 => some { srcs := [rs1, rs2] }
  | .stN16 _ rs1 rs2 => some { srcs := [rs1, rs2] }
  | .stN32 _ rs1 rs2 => some { srcs := [rs1, rs2] }
  | .stD64 _ rs1 rs2 => some { srcs := [rs1, rs2] }
  | .ldx _ rs1 _ => some { srcs := [rs1] }
  | .stx _ rs1 rs2 => some { srcs := [rs1, rs2, if pairOk rs2 then rs2 + 1 else rs2] }
  | .pref rs1 _ => some { srcs := [rs1] }
  | .amo32 rd rs1 rs2 _ _ => some { srcs := [rs1, rs2], dst := some rd }
  | .amo64 rd rs1 rs2 _ _ => some { srcs := [rs1, rs2], dst := some rd }
  | .cas rd rs1 rs2 _ _ => some { srcs := [rs1, rs2, rd] }
  | .red32 rs1 rs2 _ _ => some { srcs := [rs1, rs2] }
  | .red64 rs1 rs2 _ _ => some { srcs := [rs1, rs2] }
  | .fred rs1 rs2 _ _ => some { srcs := [rs1, rs2] }
  | .ldfull rd rs1 => some { srcs := [rs1], dst := some rd }
  | .ldtake rd rs1 => some { srcs := [rs1], dst := some rd }
  | .stfill rs1 rs2 => some { srcs := [rs1, rs2] }
  | .stforce rs1 rs2 => some { srcs := [rs1, rs2] }
  | .tagrd rd rs1 => some { srcs := [rs1], dst := some rd }
  | .twBackoffExpiry _ => none
  | .taggedOpComplete _ => none
  | .waitLimitExpiry _ => none
  | .withdrawalAnswer _ => none
  | .phase _ _ => some {}
  | .publishComplete _ => none
  | .monarm rd rs1 => some { srcs := [rs1], dst := some rd }
  | .monwait rd rs1 => some { srcs := [rs1], dst := some rd }
  | .monclr rs1 => some { srcs := [rs1] }
  | .monitorWake _ _ => none
  | .monwaitTimeout _ => none
  | .barcfg rs1 rs2 _ => some { srcs := [rs1, rs2] }
  | .bararr _ => some {}
  | .barwait _ => some {}
  | .bardrop _ => some {}
  | .barrierSignal _ _ _ _ => none
  | .barrierRelease _ _ _ => none
  | .spawn rd rs1 rs2 => some { srcs := [rs1, rs2], dst := some rd }
  | .spawnW rd rs1 rs2 => some { srcs := [rs1, rs2], dst := some rd }
  | .doneTask => some {}
  | .yield => some {}
  | .suspend rs1 => some { srcs := [rs1] }
  | .wake rd rs1 rs2 => some { srcs := [rs1, rs2], dst := some rd }
  | .rfork rd rs1 rs2 => some { srcs := [rs1, rs2], dst := some rd }
  | .rforkSh rd rs2 => some { srcs := [rs2], dst := some rd }
  | .rhold rd rs1 => some { srcs := [rs1], dst := some rd }
  | .rdrop rd rs1 => some { srcs := [rs1], dst := some rd }
  | .rcancel rd rs1 => some { srcs := [rs1], dst := some rd }
  | .rretire rd rs1 => some { srcs := [rs1], dst := some rd }
  | .rstat rd rs1 rs2 => some { srcs := [rs1, rs2], dst := some rd }
  | .msend rs1 rs2 words => some { srcs := rs1 :: regRun rs2 (words.toNat + 1) }
  | .mrecv _ rs1 => some { srcs := [rs1] }
  | .mbind rd rs1 rs2 => some { srcs := [rs1, rs2], dst := some rd }
  | .claim _ rs1 => some { level := 3, srcs := pairSrcs rs1 }
  | .fulfil rd rs1 rs2 => some { level := 3, srcs := pairSrcs rs1 ++ [rs2], dst := some rd }
  | .abandon rd rs1 => some { level := 3, srcs := pairSrcs rs1, dst := some rd }
  | .lpin rd rs1 => some { level := 3, srcs := pairSrcs rs1, dst := some rd }
  | .lunpin rd rs1 => some { level := 3, srcs := pairSrcs rs1, dst := some rd }
  | .linval rd rs1 => some { level := 3, srcs := pairSrcs rs1, dst := some rd }
  | .larderDeferredEnqueue _ => none
  | .hbind rd rs1 rs2 => some { srcs := [rs1, rs2], dst := some rd }
  | .hstat rd rs1 => some { srcs := [rs1], dst := some rd }
  | .vclaim rd rs1 => some { level := 1, srcs := [rs1], dst := some rd }
  | .vyield => some { level := 1 }
  | .vadd _ _ _ _ _ => some { level := 1, vec := true }
  | .vsub _ _ _ _ _ => some { level := 1, vec := true }
  | .vmul _ _ _ _ _ => some { level := 1, vec := true }
  | .vmin _ _ _ _ _ => some { level := 1, vec := true }
  | .vmax _ _ _ _ _ => some { level := 1, vec := true }
  | .vabs _ _ _ _ => some { level := 1, vec := true }
  | .vneg _ _ _ _ => some { level := 1, vec := true }
  | .vand _ _ _ _ _ => some { level := 1, vec := true }
  | .vor _ _ _ _ _ => some { level := 1, vec := true }
  | .vxor _ _ _ _ _ => some { level := 1, vec := true }
  | .vnot _ _ _ _ => some { level := 1, vec := true }
  | .vshl _ _ _ _ _ => some { level := 1, vec := true }
  | .vshr _ _ _ _ _ => some { level := 1, vec := true }
  | .vsra _ _ _ _ _ => some { level := 1, vec := true }
  | .vsel _ _ _ _ _ => some { level := 1, vec := true }
  | .vmov _ _ _ _ => some { level := 1, vec := true }
  | .vfadd _ _ _ _ _ _ => some { level := 1, vec := true }
  | .vfsub _ _ _ _ _ _ => some { level := 1, vec := true }
  | .vfmul _ _ _ _ _ _ => some { level := 1, vec := true }
  | .vfma _ _ _ _ _ _ => some { level := 1, vec := true }
  | .vfms _ _ _ _ _ _ => some { level := 1, vec := true }
  | .vcvt _ _ _ _ _ _ => some { level := 1, vec := true }
  | .vsqrt _ _ _ _ => some { level := 1, vec := true }
  | .vrcp _ _ _ _ => some { level := 1, vec := true }
  | .vrsq _ _ _ _ => some { level := 1, vec := true }
  | .vexp2 _ _ _ _ => some { level := 1, vec := true }
  | .vlog2 _ _ _ _ => some { level := 1, vec := true }
  | .vcmp _ _ _ _ _ _ => some { level := 1, vec := true }
  | .vsplat _ vs1 _ _ => some { level := 1, vec := true, srcs := [xField vs1] }
  | .vextr _ vs1 _ _ _ => some { level := 1, vec := true, srcs := [xField vs1] }
  | .viota _ _ _ => some { level := 1, vec := true }
  | .vred _ _ _ _ _ => some { level := 1, vec := true }
  | .vscan _ _ _ _ _ => some { level := 1, vec := true }
  | .vperm _ _ _ _ => some { level := 1, vec := true }
  | .vslide _ _ vs2 _ => some { level := 1, vec := true, srcs := [xField vs2] }
  | .mand _ _ _ => some { level := 1, vec := true }
  | .mor _ _ _ => some { level := 1, vec := true }
  | .mnot _ _ => some { level := 1, vec := true }
  | .mpop _ _ => some { level := 1, vec := true }
  | .mfirst _ _ => some { level := 1, vec := true }
  | .vld _ rs1 _ _ => some { level := 1, vec := true, srcs := [rs1] }
  | .vst _ rs1 _ _ => some { level := 1, vec := true, srcs := [rs1] }
  | .vlds _ rs1 xs _ _ => some { level := 1, vec := true, srcs := [rs1, xs] }
  | .vsts _ rs1 xs _ _ => some { level := 1, vec := true, srcs := [rs1, xs] }
  | .vgath _ rs1 _ _ _ => some { level := 1, vec := true, srcs := [rs1] }
  | .vscat _ rs1 _ _ _ => some { level := 1, vec := true, srcs := [rs1] }
  | .vldl _ rs1 _ _ => some { level := 1, vec := true, srcs := [rs1] }
  | .vstl _ rs1 _ _ => some { level := 1, vec := true, srcs := [rs1] }
  | .vadd16 _ _ => some { level := 1, vec := true }
  | .vsub16 _ _ => some { level := 1, vec := true }
  | .vmul16 _ _ => some { level := 1, vec := true }
  | .vmin16 _ _ => some { level := 1, vec := true }
  | .vmax16 _ _ => some { level := 1, vec := true }
  | .vabs16 _ _ => some { level := 1, vec := true }
  | .vneg16 _ _ => some { level := 1, vec := true }
  | .vand16 _ _ => some { level := 1, vec := true }
  | .vor16 _ _ => some { level := 1, vec := true }
  | .vxor16 _ _ => some { level := 1, vec := true }
  | .vnot16 _ _ => some { level := 1, vec := true }
  | .vshl16 _ _ => some { level := 1, vec := true, legal := onlyInt t.vtype.toNat }
  | .vshr16 _ _ => some { level := 1, vec := true, legal := onlyInt t.vtype.toNat }
  | .vsra16 _ _ => some { level := 1, vec := true, legal := onlyInt t.vtype.toNat }
  | .vmov16 _ _ => some { level := 1, vec := true }
  | .vrcp16 _ _ => some { level := 1, vec := true, legal := decide (t.vtype.toNat = 6) }
  | .mcfgShape rs1 => some { level := 2, srcs := [rs1] }
  | .mcfgFmt rs1 => some { level := 2, srcs := [rs1] }
  | .mcfgA rs1 rs2 => some { level := 2, srcs := [rs1, rs2] }
  | .mcfgB rs1 rs2 => some { level := 2, srcs := [rs1, rs2] }
  | .mma => some { level := 2, unit := true }
  | .mmaZ => some { level := 2, unit := true }
  | .mzero rs1 => some { level := 2, unit := true, srcs := [rs1] }
  | .mload rs1 rs2 => some { level := 2, unit := true, srcs := [rs1, rs2] }
  | .mstore rd rs1 rs2 _ => some { level := 2, unit := true, srcs := [rs1, rs2], dst := some rd }
  | .mscale rs1 rs2 => some { level := 2, unit := true, srcs := [rs1, rs2] }
  | .mcell rs1 => some { level := 2, srcs := [rs1] }
  | .ksel rd rs1 rs2 => some { level := 3, srcs := [rs1, rs2], dst := some rd }
  | .kgather rs1 => some { level := 3, srcs := [rs1] }
  | .ksreset rs1 => some { level := 3, srcs := [rs1] }
  | .drawG rd rs1 => some { level := 3, srcs := [rs1], dst := some rd }
  | .drawS rd rs1 => some { level := 3, srcs := [rs1], dst := some rd }
  | .drawV rd rs1 rs2 => some { level := 3, srcs := [rs1, rs2], dst := some rd }
  | .matrixOpComplete _ => none
  | .csrr rd csr => some { sup := !csrUser csr.toNat false t.dh, dst := some rd }
  | .csrw rd rs1 csr => some { sup := !csrUser csr.toNat true t.dh, srcs := [rs1], dst := some rd }
  | .csrset rd rs1 csr => some { sup := !csrUser csr.toNat (rs1 != 0#6) t.dh, srcs := if rs1 = 0#6 then [] else [rs1], dst := some rd }
  | .csrclr rd rs1 csr => some { sup := !csrUser csr.toNat (rs1 != 0#6) t.dh, srcs := if rs1 = 0#6 then [] else [rs1], dst := some rd }
  | .nop => some {}
  | .tret => some {}
  | .brk => some {}
  | .eret => some { sup := true }
  | .rqenq rd rs1 rs2 => some { sup := true, srcs := [rs1, rs2], dst := some rd }
  | .rqdeq rd rs1 rs2 => some { sup := true, srcs := [rs1, rs2], dst := some rd }
  | .slotctlQuery rd rs1 rs2 => some { sup := true, srcs := [rs1, rs2], dst := some rd }
  | .slotctlStart rd rs1 rs2 => some { sup := true, srcs := [rs1, rs2], dst := some rd }
  | .slotctlPreempt rd rs1 rs2 => some { sup := true, srcs := [rs1, rs2], dst := some rd }
  | .slotctlResume rd rs1 rs2 => some { sup := true, srcs := [rs1, rs2], dst := some rd }
  | .slotctlKill rd rs1 rs2 => some { sup := true, srcs := [rs1, rs2], dst := some rd }
  | .slotctlCopystop rd rs1 rs2 => some { sup := true, srcs := [rs1, rs2], dst := some rd }
  | .slotctlRelease rd rs1 rs2 => some { sup := true, srcs := [rs1, rs2], dst := some rd }
  | .closave rd rs1 rs2 => some { sup := true, srcs := [rs1, rs2], dst := some rd }
  | .clorest rd rs1 => some { sup := true, srcs := [rs1], dst := some rd }
  | .tlbinv rs1 rs2 => some { sup := true, srcs := [rs1, rs2] }
  | .cflushLine rs1 rs2 => some { sup := true, srcs := [rs1, rs2] }
  | .cflushWriteback rs1 rs2 => some { sup := true, srcs := [rs1, rs2] }
  | .cflushAll rs1 rs2 => some { sup := true, srcs := [rs1, rs2] }
  | .halt => some { sup := true }
  | .trapImm _ => some {}
  | .takeAsyncTrap _ => none
  | .budgetExpiry _ => none
  | .timercmpExpiry _ => none
  | .loadComplete _ _ _ => none
  | .atomicComplete _ _ _ => none
  | .dispatch _ => none
  | .resumeContext _ => none
  | .timerPreemption _ => none
  | .demandPreemption _ => none
  | .ringMove _ _ => none
  | .launchQueueWrite _ _ _ _ => none
  | .launchAccept _ _ => none
  | .requestExpiry _ => none
  | .annulNoticeArrival _ _ => none
  | .slotAnnul _ => none
  | .annulAckArrival _ _ => none
  | .peerWorkArrival _ => none
  | .peerCancelNotice _ _ => none
  | .drainMarker _ _ => none
  | .drainAck _ _ => none
  | .noproxyResend _ => none
  | .messageArrival _ _ _ => none
  | .freeSlotNotice _ => none
  | .copyLinear _ _ => none
  | .copyStrided _ _ => none
  | .copyGather _ _ => none
  | .copyScatter _ _ => none
  | .copyResume _ _ => none
  | .collGroup _ _ => none
  | .collAllreduce _ _ => none
  | .collAllgather _ _ => none
  | .collRedscat _ _ => none
  | .collBcast _ _ => none
  | .cellarRead _ _ => none
  | .cellarWrite _ _ => none
  | .stairSend _ _ => none
  | .stairReset _ _ => none
  | .stairBuf _ _ => none
  | .stairFree _ _ => none
  | .stairRecordArrival _ => none
  | .stairResetArrival _ _ => none
  | .commandCompletion _ => none
  | .nvmeCompletion _ _ _ => none
  | .walkComplete _ => none
  | .dirtyLogMerge _ => none
  | .dharvestGo _ => none
  | .fbheadRead _ => none
  | .fbrespRetry _ _ => none
  | .fbrespFailXlate _ _ => none
  | .fbrespFailPerm _ _ => none
  | .clustctlDrain _ => none
  | .clustctlAssign _ _ => none
  | .rtfreeWrite _ _ => none
  | .dqctlWrite _ _ _ => none
  | .ringdWrite _ _ _ => none
  | .ffpoolWrite _ _ _ => none
  | .fftailWrite _ _ _ => none
  | .walkshareWrite _ _ _ => none
  | .tilecapWrite _ _ => none
  | .statusSchedWrite _ _ => none
  | .timercmpWrite _ _ => none
  | .lmsplitWrite _ _ => none
  | .lmshareWrite _ _ => none
  | .lmgroupWrite _ _ => none
  | .dsplitWrite _ _ => none
  | .vgrantWrite _ _ => none
  | .freqreqWrite _ _ => none
  | .featmaskWrite _ _ => none
  | .budgetleftWrite _ _ => none
  | .registerWrite _ _ => none
  | .dvfsStep _ => none
  | .powerPeriod _ => none
  | .timeSync _ _ => none
  | .linkFailure _ => none
  | .atsInvalidation _ => none
  | .hostMemAccess _ _ _ => none
  | .driveTimeout _ => none
  | .driveLinkDown _ => none
  | .deviceReset => none
  | .romSelfCheck _ => none
  | .firmwareVerify => none
  | .calibration _ => none
  | .memoryInit _ => none
  | .firmwareConfig _ _ _ => none
  | .setReady => none
  | .firmwareDelivery _ => none
  | .rollbackRaise _ => none
  | .getVersion => none
  | .getCapabilities => none
  | .negotiateAlgorithms _ _ => none
  | .getDigests => none
  | .getCertificate _ _ => none
  | .getMeasurements _ _ _ => none
  | .illegalOp _ _ => none
  | .fetchFault _ => none
  | .preemptionComplete _ => none
  | .dieToDieLinkFailure _ => none
  | .driveControllerReady _ => none
  | .harvestComplete _ => none

/-- The instruction has a word (R141); the rest of the opcode table are events. -/
def encoded (i : Instr) : Bool := (needs i {}).isSome

/-- What an instruction's word decodes to: itself, or the form of SLOTCTL or CFLUSH that stands for all of its encoding (R359, R363). -/
def decodedForm (i : Instr) : Instr :=
  match i with
  | .slotctlStart rd rs1 rs2 => .slotctlQuery rd rs1 rs2
  | .slotctlPreempt rd rs1 rs2 => .slotctlQuery rd rs1 rs2
  | .slotctlResume rd rs1 rs2 => .slotctlQuery rd rs1 rs2
  | .slotctlKill rd rs1 rs2 => .slotctlQuery rd rs1 rs2
  | .slotctlCopystop rd rs1 rs2 => .slotctlQuery rd rs1 rs2
  | .slotctlRelease rd rs1 rs2 => .slotctlQuery rd rs1 rs2
  | .cflushWriteback rs1 rs2 => .cflushLine rs1 rs2
  | .cflushAll rs1 rs2 => .cflushLine rs1 rs2
  | i => i

/-- Checks 2 to 7 of R140 pass for `i`: it issues with the values `vs` of its sources, and leaves `s1`. -/
def Issued (i : Instr) (s : State) (vs : List Word) (s1 : State) : Prop :=
  ∃ k, needs i s.mine = some k ∧ issue i k s = .go vs s1

/-- The result `v` can be written to the field `rd` in `s`, leaving `s1`; `s0` is the state as issued. -/
def Written (s0 s : State) (rd : RegField) (v : Word) (s1 : State) : Prop := writeRd s0 s rd v = .go () s1

/-- `i`, issued as `s1` and having made `s2`, answers `v` in `rd` and goes on at the next instruction, 4 bytes further. -/
def Answers (i : Instr) (s s1 s2 : State) (rd : RegField) (v : Word) : Prop :=
  ∀ s3, Written s1 s2 rd v s3 → exec i s = .next (advance s3 4)

/-- An access to the elements `l` passes R90's checks and what would hold it (R93, R395, R416), at the places `ps`, leaving `s1`. -/
def Accesses (s : State) (l : List Elem) (acc : Access) (logs writes : Bool) (ps : List Place) (s1 : State) : Prop :=
  ∃ s0, checkAccess s l acc logs = .go ps s0 ∧ holdAccess s0 (ps.zip (l.map (fun e => e.n))) writes = .go () s1

/-- A load of the elements `l` passes R90's checks and what would hold it (R93, R416), and no earlier operation with .acq is still to be performed (R196): it
is performed at the places `ps`, leaving `s1`. -/
def LoadAccesses (s : State) (l : List Elem) (acc : Access) (ps : List Place) (s1 : State) : Prop :=
  ∃ s0, checkAccess s l acc false = .go ps s0 ∧ holdLoad s0 (ps.zip (l.map (fun e => e.n))) = .go () s1

/-- What a scalar instruction of R153, R162-R177 writes beside PC. -/
inductive Dest where
  | reg (rd : RegField)
  | pred (pd : BitVec 3)
  | nothing
  deriving DecidableEq, Repr

/-- The destination of the scalar instructions that touch neither memory nor any state beyond their slot; none for the others. -/
def scalarDest (i : Instr) : Option Dest :=
  match i with
  | .add rd _ _ => some (.reg rd)
  | .sub rd _ _ => some (.reg rd)
  | .and rd _ _ => some (.reg rd)
  | .andn rd _ _ => some (.reg rd)
  | .or rd _ _ => some (.reg rd)
  | .xor rd _ _ => some (.reg rd)
  | .sll rd _ _ => some (.reg rd)
  | .srl rd _ _ => some (.reg rd)
  | .sra rd _ _ => some (.reg rd)
  | .rot rd _ _ => some (.reg rd)
  | .mul rd _ _ => some (.reg rd)
  | .mulh rd _ _ => some (.reg rd)
  | .mulhn rd _ _ => some (.reg rd)
  | .div rd _ _ => some (.reg rd)
  | .divn rd _ _ => some (.reg rd)
  | .rem rd _ _ => some (.reg rd)
  | .remn rd _ _ => some (.reg rd)
  | .min rd _ _ => some (.reg rd)
  | .max rd _ _ => some (.reg rd)
  | .minn rd _ _ => some (.reg rd)
  | .maxn rd _ _ => some (.reg rd)
  | .clz rd _ => some (.reg rd)
  | .ctz rd _ => some (.reg rd)
  | .popc rd _ => some (.reg rd)
  | .brev rd _ => some (.reg rd)
  | .bswap rd _ => some (.reg rd)
  | .csel rd _ _ _ => some (.reg rd)
  | .addi rd _ _ => some (.reg rd)
  | .andi rd _ _ => some (.reg rd)
  | .ori rd _ _ => some (.reg rd)
  | .xori rd _ _ => some (.reg rd)
  | .slli rd _ _ => some (.reg rd)
  | .srli rd _ _ => some (.reg rd)
  | .srai rd _ _ => some (.reg rd)
  | .roti rd _ _ => some (.reg rd)
  | .extS rd _ _ _ => some (.reg rd)
  | .extn rd _ _ _ => some (.reg rd)
  | .insF rd _ _ _ => some (.reg rd)
  | .lih rd _ => some (.reg rd)
  | .addpc rd _ => some (.reg rd)
  | .pget rd => some (.reg rd)
  | .jal rd _ => some (.reg rd)
  | .jalr rd _ _ => some (.reg rd)
  | .cmp pd _ _ _ => some (.pred pd)
  | .cmpi pd _ _ _ => some (.pred pd)
  | .pand pd _ _ => some (.pred pd)
  | .por pd _ _ => some (.pred pd)
  | .pxor pd _ _ => some (.pred pd)
  | .pandn pd _ _ => some (.pred pd)
  | .pset pd _ => some (.pred pd)
  | .bp _ _ => some .nothing
  | .bnp _ _ => some .nothing
  | .cbz _ _ => some .nothing
  | .cbnz _ _ => some .nothing
  | .nop => some .nothing
  | _ => none

/-- The place is one this device performs itself: no peer's, not logged. -/
def Place.own (p : Place) : Bool :=
  match p with
  | .global _ _ _ _ => true
  | .sram _ => true
  | _ => false

/-- The place reads and writes memory itself: an SRAM's, or that of an uncached page that is not summarised. -/
def Place.direct (p : Place) : Bool :=
  match p with
  | .global _ _ leaf ext => !cached leaf && ext == 0
  | .sram _ => true
  | _ => false

/-- The slots of one state stand as in another, but for the one given. -/
def OthersSame (s t : State) (g : Nat) : Prop := ∀ h, h ≠ g → t.slot h = s.slot h

/-- Every location reads as before, but for the n bytes from `a`. -/
def MemorySame (s t : State) (a n : Nat) : Prop := ∀ x, (x < a ∨ a + n ≤ x) → t.mem.read x = s.mem.read x

/-- A vector result: element e of lane l of vd is `f` of the old elements where it is active, and stands where it is not; no lane of any register
but the first VL of vd changes, and neither do scalar registers, predicates, masks, memory or other slots. -/
def ElementsAre (s t : State) (vd vs1 vs2 mk et : Nat) (f : Nat → Nat → Nat → Nat) : Prop :=
  let a := s.mine
  let b := t.mine
  let w := etWidth et
  (∀ l e, l < 128 → e < etPer et → b.elem vd l e w =
    if l < a.vl ∧ a.mr mk (4 * l + e) = true then f (a.elem vs1 l e w) (a.elem vs2 l e w) (a.elem vd l e w) % 2 ^ w else a.elem vd l e w) ∧
  (∀ n, (n < vd * 128 ∨ vd * 128 + a.vl ≤ n) → look 0 n b.v = look 0 n a.v) ∧
  b.x = a.x ∧ b.p = a.p ∧ b.m = a.m ∧ t.mem = s.mem ∧ OthersSame s t s.me

/-- A vector instruction of n bytes whose sources, in the registers `reads`, are unmarked completes with that result. -/
def VectorDone (i : Instr) (s s1 : State) (reads : List Nat) (vd vs1 vs2 mk et n : Nat) (f : Nat → Nat → Nat → Nat) : Prop :=
  markedLane s1.mine reads ((activeElems s1.mine mk (etPer et)).map (fun x => x.1)) = none →
  ∃ t, exec i s = .next t ∧ t.mine.pc = s1.mine.pc + wd n ∧ ElementsAre s1 t vd vs1 vs2 mk et f

/-- As `VectorDone`, for a function that gives each active element its flags too: VFLAGS gathers them, and keeps what it holds (R121). -/
def VectorRaises (i : Instr) (s s1 : State) (reads : List Nat) (vd vs1 vs2 mk et n : Nat) (f : Nat → Nat → Nat → Nat × Flags) : Prop :=
  let a := s1.mine
  let w := etWidth et
  markedLane s1.mine reads ((activeElems s1.mine mk (etPer et)).map (fun x => x.1)) = none →
  ∃ t, exec i s = .next t ∧ t.mine.pc = s1.mine.pc + wd n ∧ ElementsAre s1 t vd vs1 vs2 mk et (fun x y z => (f x y z).1) ∧
    ∀ k, t.mine.vflags.getLsbD k = true ↔ (a.vflags.getLsbD k = true ∨
      ∃ l e, l < a.vl ∧ e < etPer et ∧ a.mr mk (4 * l + e) = true ∧
        (f (a.elem vs1 l e w) (a.elem vs2 l e w) (a.elem vd l e w)).2.getLsbD k = true)

/-- The event `e`, which an instruction `i` stands for, takes the command words `l` from Hatch `h` of core `c`: the engine has room, and the command is
complete at the Hatch's head. The command is `x`, and its words are gone in `s1` (R293, R302). -/
def Takes (e : Event) (s : State) (c h : Nat) (l : List HatchEntry) (x : Cmd) (s1 : State) : Prop :=
  c < 2048 ∧ h < 16 ∧ takeEvent (s.hatch c h) c h = e ∧ takeable s c h = some l ∧ x = cmdOf s c h l ∧ s1 = takeWords s c h l.length

/-- A command so taken passes the checks of every engine and its own, its request is live, and its completion word can be written (R296). -/
def PassesChecks (s1 : State) (l : List HatchEntry) (x : Cmd) (bad : Bool) : Prop :=
  headerBad s1 x (l.any (fun e => e.failed)) = false ∧ bad = false ∧ s1.liveTag x.rtag = true ∧
    completionError s1 x = none

/-- A safe state: its memory is canonical, so that equal memories are equal data. -/
def State.Sound (s : State) : Prop := s.mem.wf = true

/-- A safe run: `n` steps, none of which stops. -/
def RunsSafely (s : State) (n : Nat) : Prop :=
  ∃ t, Host.Core.run { State := State, Fault := Fault, Refusal := Refusal, step := step, reset := State.reset } n s = .next t

end Sys2Proof.Machine
end

