-- ==== Sys2Proof/Certificates/Slice0/Obligations.lean ====
section
/-! DEFINITION. The statements for the provers: what the numbered rules of the manual say the machine does. -/

open Sys2Proof Sys2Proof.Machine

/-- R143-R158: words that the manual writes out decode to the instructions they stand for. -/
def Obligations.ManualWordsDecode : Prop :=
  decodeTableWord 32 0x1C20A20F = some (.extS 4 5 4 7) ∧ decodeTableWord 32 0x04288197 = some (.cmp 3 4 5 2) ∧
  decodeTableWord 32 0x0200C899 = some (.cmpi 1 2 6 64) ∧ decodeTableWord 32 0x00000061 = some .nop ∧
  decodeTableWord 32 0x0A00004D = some (.phase 1 1) ∧ decodeTableWord 32 0x1A00004D = some (.phase 1 3) ∧
  decodeTableWord 32 0xB001224F = some (.vclaim 4 9) ∧ decodeTableWord 32 0xE00402D9 = some (.mpop 5 2) ∧
  decodeTableWord 32 0x1200005D = some .mmaZ ∧ decodeTableWord 32 0x00280063 = some (.trapImm 5) ∧
  decodeTableWord 32 0x06000061 = some .eret ∧ decodeTableWord 32 0x0C38C2E1 = some (.slotctlQuery 5 6 7) ∧ decodeTableWord 16 0x48C2 = some (.vadd16 3 9)

/-- R139, R140, R42: when a slot's turn comes, nothing comes before its instruction (an asynchronous trap, a failed store, a value to write, the cap on
its cluster's requests), and its PC lies in memory it may fetch, the bytes there that decode to an instruction make the step that instruction's effect,
which is noted as issued if it waits after its issue (R43), followed by what every step does; bytes that decode to nothing trap ILLEGAL_OP. R43, R93: a
slot that waits in an instruction it has issued goes on with that one. That a fetch reads the bytes published now is the model's choice (log 23), and
which slot is next, and how often parts of barrier phases that need no arrival go on between turns (R207), is the model's order (logs 27, 4). -/
def Obligations.StepRunsDecodedInstruction : Prop :=
  ∀ (s : State) (g pa : Nat) (leaf ext leaf2 ext2 : Word),
    let t := turnState s g
    let pc := (t.slot g).pc
    let va := fld pc 0 56
    let byte := fun (n : Nat) => t.mem.read (pa + n)
    let lo := half (byte 0) (byte 1)
    let hi := if lo.extractLsb' 0 1 = 0#1 then 0#16 else half (byte 2) (byte 3)
    let user := !(t.slot g).mode
    g < 32768 → s.ready = true → s.pending = [] → due s = none → asyncCause t g = none → (t.slot g).logFailed = none →
    (∀ vs, (t.slot g).wait ≠ some (.late vs)) → s.schedule = [] → nextSlot s = some g →
    ((∀ k ∈ s.cores, k.2.barriers = []) → t = (s.actFor g).modCore (coreOf g) (fun k => { k with lastSlot := g % 16, turns := k.turns + 1 })) ∧
    (∀ i n, (t.slot g).issued = some (i, n) → step s = onNext (exec i t) tick) ∧
    ((t.slot g).issued = none → capReached t (clusterOf (coreOf g)) = false →
    spaceOf pc = .global → (t.core (coreOf g)).sideLog = [] → t.bad = [] →
    translate t (coreOf g) va .fetch user = (.ok pa leaf ext, t) → atsTranslate t pa = (true, t) →
    (lo.extractLsb' 0 1 = 1#1 → spaceOf (pc + 2) = .global ∧
      translate t (coreOf g) (fld (pc + 2) 0 56) .fetch user = (.ok (pa + 2) leaf2 ext2, t) ∧ atsTranslate t (pa + 2) = (true, t)) →
      (∀ i rest, decode [byte 0, byte 1, byte 2, byte 3] = some (i, rest) →
        step s = onNext (onNext (exec (resolve t i) t) (noteIssued (resolve t i) g)) tick) ∧
      (decodeHalves lo hi = none → (t.slot g).occupied = true → step s = .next (tick (trapAt t g .illegalOp pc ((hi ++ lo).setWidth 64)))))

/-- R435, R347, R367, R18: the device as reset leaves it: stage 0, not READY, no slot occupied, no request, Stair or Hatch in use, and every CSR and
configuration register at the reset value that the register maps give it: 0, but SLOT and CORE, FEATMASK 3, LMSPLIT 4, FREQREQ 15, TIMERCMP all ones,
DQCTL 1, TILECAP 15 and PWRLIM 2,400. The registers for which the maps give none (EXPIRY, RTAG, PRIO, PARTITION, BUDGETLEFT, the general registers) are
the model's own choice (log 3) and no part of this; that its memory is canonical is the model's own form (log 2). -/
def Obligations.ResetState : Prop :=
  let s := State.reset
  s.Sound ∧ s.stage = 0 ∧ s.ready = false ∧ s.failed = false ∧
  (∀ g, (s.slot g).state = .free ∧ (s.slot g).mode = false ∧ (s.slot g).grant = 0) ∧
  (∀ g n, n ∈ [0x000, 0x008, 0x010, 0x011, 0x012, 0x013, 0x015, 0x016, 0x017, 0x018, 0x019, 0x020, 0x021, 0x022, 0x023, 0x029, 0x02A, 0x02B, 0x030,
      0x031, 0x033, 0x034, 0x040, 0x041, 0x042, 0x043, 0x044, 0x046, 0x048, 0x049, 0x04A, 0x04B, 0x04C, 0x04D] → csrRead s g n = 0) ∧
  (∀ g, csrRead s g 0x004 = wd (g % 16) ∧ csrRead s g 0x005 = wd (g / 16) ∧ csrRead s g 0x006 = 3 ∧ csrRead s g 0x028 = 4 ∧
    csrRead s g 0x032 = 15 ∧ csrRead s g 0x045 = BitVec.allOnes 64) ∧
  (∀ d p, d < 4 → p < 16 → busRead s (dqctlAddr d p) = 1) ∧ (∀ t, t < 512 → busRead s (tilecapAddr t) = 15) ∧ busRead s pwrlimAddr = 2400 ∧
  (∀ a, (∀ d p, d < 4 → p < 16 → a ≠ dqctlAddr d p) → (∀ t, t < 512 → a ≠ tilecapAddr t) → a ≠ pwrlimAddr → busRead s a = 0) ∧
  (∀ c h, (s.hatch c h).kind = 0 ∧ (s.hatch c h).entries = []) ∧ (∀ c b, (s.barrier c b).configured = false) ∧
  (∀ q l, (s.level q l).entries = []) ∧ (∀ d p, (s.launchQ d p).records = []) ∧
  (∀ k, (s.stair k).made = false) ∧ (∀ r, (s.req r).state = .free) ∧ s.history = [] ∧ s.deferred = []

/-- R153: NOP is the word 0x00000061, major opcode 48 with every other field 0, and has no effect beyond advancing PC. -/
def Obligations.NopOnlyAdvances : Prop :=
  decode [0x61, 0x00, 0x00, 0x00] = some (.nop, []) ∧ word32 .nop = 0#25 ++ 48#6 ++ 1#1 ∧
  ∀ s : State, s.mine.state = .ready → s.mine.wait = none → s.mine.held = [] → s.mine.reserve = none → s.mine.pushing = none →
    s.mine.checked = none → s.mine.awaits = none → s.mine.inst = none → s.mine.read = [] →
    exec .nop s = .next (s.setSlot s.me { s.mine with pc := s.mine.pc + 4 })

/-- R137-R143, R145-R158: decoding the bytes of an encoded well-formed instruction gives that instruction (or the form its word decodes to, where a
register's value tells forms apart) and the bytes behind it; every word that decodes is the encoding of what it decodes to; and nothing ill-formed is
decoded. -/
def Obligations.DecodeInvertsEncode : Prop :=
  (∀ (i : Instr) (rest : List Byte), encoded i = true → wellFormed i = true → decode (encode i ++ rest) = some (decodedForm i, rest)) ∧
  (∀ (l rest : List Byte) (i : Instr), decode l = some (i, rest) → l = encode i ++ rest ∧ encoded i = true ∧ wellFormed i = true ∧ decodedForm i = i)

/-- Every step keeps memory canonical: locations rising, and no byte listed that reads as an unlisted one does (the model's own form, log 2). -/
def Obligations.StepKeepsMemoryCanonical : Prop :=
  ∀ s t : State, s.Sound → step s = .next t → t.Sound

/-- R139-R140, R21: no step is refused; an instruction with a word ends in a next state from every state, trap, wait or result; and a step can stop
only where an event names a unit the device does not have, which is the model's way to say that there is no such event (log 26). Before READY a step does
nothing but what is due (log 25). -/
def Obligations.InstructionsNeverStop : Prop :=
  (∀ (i : Instr) (s : State), encoded i = true → ∃ t, exec i s = .next t) ∧
  (∀ (i : Instr) (s : State), (∃ t, exec i s = .next t) ∨ exec i s = .fault .noSuchUnit) ∧
  (∀ s : State, (∃ t, step s = .next t) ∨ step s = .fault .noSuchUnit) ∧
  (∀ s : State, s.schedule = [] → s.pending = [] → s.ready = false → step s = .next (tick s)) ∧
  (∀ (g : Nat) (s : State), 32768 ≤ g → exec (.slotAnnul g) s = .fault .noSuchUnit)

/-- R359, R364, R138: a word that an operand's value tells apart runs as the form the value names: SLOTCTL's by rs1, CFLUSH's by rs2. The value is a register's, or
the entry that a Hatch field pops, the second one where rs1 and rs2 name one Hatch (R289). Every other instruction runs as decoded. -/
def Obligations.ResolvedForms : Prop :=
  ∀ (s : State) (rd a b : RegField) (i : Instr) (v : Word) (e0 e : HatchEntry) (l : List HatchEntry), s.mine.held = [] →
    let at_ := fun (r : RegField) => (s.hatch s.curCore (hatchNo r)).entries
    let first := (a.toNat < 32 ∧ v = s.mine.xr a.toNat) ∨ (isHatch a = true ∧ at_ a = e :: l ∧ v = e.value)
    let second := (b.toNat < 32 ∧ v = s.mine.xr b.toNat) ∨ (isHatch b = true ∧ v = e.value ∧
      ((a.toNat < 32 ∧ at_ b = e :: l) ∨ (isHatch a = true ∧ a ≠ b ∧ at_ a ≠ [] ∧ at_ b = e :: l) ∨ (a = b ∧ at_ b = e0 :: e :: l)))
    let op := fld v 4 3
    let fl := fld v 0 2
    (first →
      (op = 1 → resolve s (.slotctlQuery rd a b) = .slotctlStart rd a b) ∧ (op = 2 → resolve s (.slotctlQuery rd a b) = .slotctlPreempt rd a b) ∧
      (op = 3 → resolve s (.slotctlQuery rd a b) = .slotctlResume rd a b) ∧ (op = 4 → resolve s (.slotctlQuery rd a b) = .slotctlKill rd a b) ∧
      (op = 5 → resolve s (.slotctlQuery rd a b) = .slotctlCopystop rd a b) ∧ (op = 6 → resolve s (.slotctlQuery rd a b) = .slotctlRelease rd a b) ∧
      ((op = 0 ∨ op = 7) → resolve s (.slotctlQuery rd a b) = .slotctlQuery rd a b)) ∧
    (second →
      (fl = 1 → resolve s (.cflushLine a b) = .cflushWriteback a b) ∧ (fl = 2 → resolve s (.cflushLine a b) = .cflushAll a b) ∧
      ((fl = 0 ∨ fl = 3) → resolve s (.cflushLine a b) = .cflushLine a b)) ∧
    ((∀ rd a b, i ≠ .slotctlQuery rd a b) → (∀ a b, i ≠ .cflushLine a b) → resolve s i = i)

/-- R140, checks 2 to 5, for every encoded instruction that its slot has not issued already: the first that fails gives the trap, precise at the
instruction; 2 to 4 give the encoding as TRAPVAL, VGRANT gives 0. -/
def Obligations.ChecksInOrder : Prop :=
  ∀ (i : Instr) (s : State) (k : Issue), needs i s.mine = some k → s.mine.issued = none →
    ((wellFormed i = false ∨ k.legal = false) → exec i s = .next (trap s .illegalOp (encodingOf i))) ∧
    (wellFormed i = true → k.legal = true →
      (s.here.featmask.toNat < k.level → exec i s = .next (trap s .featureAbsent (encodingOf i))) ∧
      (k.level ≤ s.here.featmask.toNat →
        (k.sup = true → s.mine.mode = false → exec i s = .next (trap s .priv (encodingOf i))) ∧
        ((k.sup = true → s.mine.mode = true) → k.vec = true → s.mine.grant = 0 → exec i s = .next (trap s .vgrant 0))))

/-- R140, R138: an instruction that does not issue, because a check traps or because a Hatch makes it wait, ends there: what `issue` leaves is the
next state, for every encoded instruction. R137, R140: with every scalar field a register, no source marked, checks 2 to 5 passed, and for a matrix
operation a place in the unit or its queue (R260), an instruction issues with its registers' values, and nothing has changed. R138, R289: an instruction whose only scalar fields are two sources takes, from a Hatch
named in both, its first entry for rs1 and its second for rs2; the entries leave the Hatch. R43, R93: an instruction that waits after its issue goes on
with the operands it has taken, its checks not made again. -/
def Obligations.IssueTakesOperands : Prop :=
  (∀ (i : Instr) (s s1 : State) (k : Issue), needs i s.mine = some k → (s.mine.issued = none ∨ s.mine.read = []) → issue i k s = .stop s1 →
     exec i s = .next s1) ∧
  (∀ (i : Instr) (s : State) (k : Issue) (j : Instr) (n : Nat), s.mine.issued = some (j, n) →
     issue i k s = (match (sourceValues s.mine k.srcs s.mine.held).find? (fun v => v.2) with
       | some v => .stop (trap s .memerr v.1)
       | none => .go ((sourceValues s.mine k.srcs s.mine.held).map (fun v => v.1)) s)) ∧
  (∀ (i : Instr) (s : State) (k : Issue), needs i s.mine = some k →
     wellFormed i = true → k.legal = true → k.level ≤ s.here.featmask.toNat → (k.sup = true → s.mine.mode = true) →
     (k.vec = true → s.mine.grant ≠ 0) → (k.unit = true → s.here.unitBusy = none ∨ s.here.unitNext = none) →
     (∀ r ∈ k.srcs, r.toNat < 32 ∧ (r ≠ 0#6 → s.mine.poisoned r.toNat = false)) →
     (∀ r, k.dst = some r → r.toNat < 32) →
     Issued i s (k.srcs.map (fun r => s.mine.xr r.toNat)) s) ∧
  (∀ (i : Instr) (s : State) (k : Issue) (r : RegField) (e1 e2 : HatchEntry) (l : List HatchEntry),
     needs i s.mine = some k → k.srcs = [r, r] → (∀ d, k.dst = some d → d.toNat < 32) → isHatch r = true →
     wellFormed i = true → k.legal = true → k.level ≤ s.here.featmask.toNat → (k.sup = true → s.mine.mode = true) →
     (k.vec = true → s.mine.grant ≠ 0) → (k.unit = true → s.here.unitBusy = none ∨ s.here.unitNext = none) →
     s.mine.issued = none → s.mine.held = [] → s.mine.reserve = none → (s.hatch s.curCore (hatchNo r)).pops s.curSlot = true →
     (s.hatch s.curCore (hatchNo r)).entries = e1 :: e2 :: l → e1.poison = false → e2.poison = false →
     ∃ s1, Issued i s [e1.value, e2.value] s1 ∧ (s1.hatch s.curCore (hatchNo r)).entries = l ∧
       (∀ h, h ≠ hatchNo r → s1.hatch s.curCore h = s.hatch s.curCore h) ∧ s1.mem = s.mem ∧ s1.mine.x = s.mine.x ∧ s1.mine.pc = s.mine.pc)

/-- R138, R43: until its source Hatches hold the entries it pops, and its destination Hatch has room, an instruction waits on a Hatch and is not
performed; a matrix operation waits besides while the unit is busy and its queue full (R260), before its marked sources are looked at (log 64). R138, R290: a read of a Hatch that does not pop to the slot traps HATCH with the Hatch's number; a write to one that takes no push of the
slot traps with 16 more. R187: an instruction with register fields that reads a marked register traps MEMERR at itself, and TRAPVAL is the marked
value; that of several it is the first one's is the model's choice (log 56). -/
def Obligations.IssueStops : Prop :=
  (∀ (i : Instr) (s : State) (k : Issue), needs i s.mine = some k →
     wellFormed i = true → k.legal = true → k.level ≤ s.here.featmask.toNat → (k.sup = true → s.mine.mode = true) →
     (k.vec = true → s.mine.grant ≠ 0) → s.mine.issued = none → s.mine.held = [] → s.mine.reserve = none → hatchDirection s k = none →
     ((k.srcs.any isHatch = true ∨ ∃ d, k.dst = some d ∧ isHatch d = true) →
       (k.unit = true → s.here.unitBusy = none ∨ s.here.unitNext = none) → hatchReady s k = false → exec i s = .next (waitSlot s s.me .hatch)) ∧
     (k.unit = true → s.here.unitBusy.isSome = true → s.here.unitNext.isSome = true → exec i s = .next (waitSlot s s.me .unitBusy))) ∧
  (∀ (i : Instr) (s : State) (k : Issue) (r : RegField), needs i s.mine = some k →
     wellFormed i = true → k.legal = true → k.level ≤ s.here.featmask.toNat → (k.sup = true → s.mine.mode = true) →
     (k.vec = true → s.mine.grant ≠ 0) → s.mine.issued = none → s.mine.held = [] → s.mine.reserve = none → isHatch r = true →
     (k.srcs.head? = some r → (s.hatch s.curCore (hatchNo r)).pops s.curSlot = false →
       exec i s = .next (trap s .hatch (wd (hatchNo r)))) ∧
     (k.dst = some r → (∀ q ∈ k.srcs, isHatch q = false) → (s.hatch s.curCore (hatchNo r)).pushes s.curSlot = false →
       exec i s = .next (trap s .hatch (wd (16 + hatchNo r))))) ∧
  (∀ (i : Instr) (s : State) (k : Issue) (l1 l2 : List RegField) (r : RegField), needs i s.mine = some k →
     wellFormed i = true → k.legal = true → k.level ≤ s.here.featmask.toNat → (k.sup = true → s.mine.mode = true) →
     (k.vec = true → s.mine.grant ≠ 0) → (k.unit = true → s.here.unitBusy = none ∨ s.here.unitNext = none) → (∀ q ∈ k.srcs, q.toNat < 32) → (∀ d, k.dst = some d → d.toNat < 32) →
     (s.mine.issued = none ∨ s.mine.read = []) → k.srcs = l1 ++ r :: l2 → (∀ q ∈ l1, q ≠ 0#6 → s.mine.poisoned q.toNat = false) → r ≠ 0#6 → s.mine.poisoned r.toNat = true →
     exec i s = .next (trap s .memerr (s.mine.xr r.toNat)))

/-- R137: x0 reads 0, and another register reads what it holds; p0 and m0 read true. R137, R138, R295: where a result goes. A register is written and
its mark cleared, x0 discarding it; a Hatch that is no engine's gets an entry behind those it holds, in the place reserved for it; an engine's Hatch
gets the word of a command that a header has begun, but for words of a partial command that an annulment has removed from it, which go nowhere (the model's choice,
log 42). R92, R187, R295: values that return late are written in order, each with its mark, and the slot
goes on; one for which the scoreboard has no entry left waits. -/
def Obligations.ResultsAreWritten : Prop :=
  (∀ (t : Slot) (r : Nat) (v : Word) (p : Bool), t.xr 0 = 0 ∧ (t.setX 0 v p) = t ∧ t.pr 0 = true ∧ (∀ b, t.setP 0 b = t) ∧
     (∀ n, t.mr 0 n = true) ∧ (∀ n b, t.setM 0 n b = t) ∧
     (r ≠ 0 → (t.setX r v p).xr r = v ∧ (r < 32 → (t.setX r v p).poisoned r = p) ∧
       ∀ q, q ≠ r → (t.setX r v p).xr q = t.xr q ∧ (q < 32 → r < 32 → (t.setX r v p).poisoned q = t.poisoned q))) ∧
  (∀ (s0 s : State) (rd : RegField) (v : Word),
     (rd.toNat < 32 → Written s0 s rd v (s.modMe (fun t => t.setX rd.toNat v))) ∧
     (isHatch rd = true → (s.hatch s.curCore (hatchNo rd)).isEngine = false → s.mine.reserve = some (hatchNo rd) →
       ∃ s1, Written s0 s rd v s1 ∧ s1.mine.reserve = none ∧ s1.mine.x = s.mine.x ∧
         (s1.hatch s.curCore (hatchNo rd)).entries = (s.hatch s.curCore (hatchNo rd)).entries ++ [{ value := v }] ∧
         (s1.hatch s.curCore (hatchNo rd)).resv = (s.hatch s.curCore (hatchNo rd)).resv - 1) ∧
     (isHatch rd = true → (s.hatch s.curCore (hatchNo rd)).isEngine = true → (s.hatch s.curCore (hatchNo rd)).atHeader = false →
       (s.hatch s.curCore (hatchNo rd)).swallows s.mine.ctx = false → rangesOfPush s s.me (hatchNo rd) v = [] →
       ∃ s1, Written s0 s rd v s1 ∧ (s1.hatch (coreOf s.me) (hatchNo rd)).cmd =
         (s.hatch (coreOf s.me) (hatchNo rd)).cmd ++ [{ value := v, user := !s.mine.mode, rtag := s.mine.rtag, g := s.me, ctx := s.mine.ctx, num := s.nextId }]) ∧
     (isHatch rd = true → (s.hatch s.curCore (hatchNo rd)).isEngine = true → (s.hatch s.curCore (hatchNo rd)).swallows s.mine.ctx = true →
       ∃ s1, Written s0 s rd v s1 ∧ (s1.hatch (coreOf s.me) (hatchNo rd)).cmd = (s.hatch (coreOf s.me) (hatchNo rd)).cmd ∧ s1.mem = s.mem)) ∧
  (∀ (s : State) (g rd : Nat) (v : Word) (bad : Bool) (l : List (Nat × Word × Bool)),
     writeBack s g [] = jumpTo s g ((s.slot g).pc + 4) ∧
     (rd < 32 → writeBack s g ((rd, v, bad) :: l) = writeBack (s.modSlot g (fun t => t.setX rd v bad)) g l) ∧
     (lateBlocked s g rd v = true → writeBack s g ((rd, v, bad) :: l) = waitSlot s g (.late ((rd, v, bad) :: l))))

/-- R164: the two-operand register instructions give the 64-bit result of their table, whatever their operands name. R165, R166, R171: the immediate
forms, the shifts and rotates by rs2 mod 64 or by an immediate, LIH and ADDPC. R167, R168, R115: products of which MUL is the low half, MULH the
signed and MULHN the unsigned high half; quotients truncated toward zero and remainders of the dividend's sign, with -1 or all ones and the dividend
for a zero divisor. -/
def Obligations.ArithmeticResults : Prop :=
  (∀ (s s1 : State) (rd a b : RegField) (x y : Word),
     (Issued (.add rd a b) s [x, y] s1 → Answers (.add rd a b) s s1 s1 rd (x + y)) ∧
     (Issued (.sub rd a b) s [x, y] s1 → Answers (.sub rd a b) s s1 s1 rd (x - y)) ∧
     (Issued (.and rd a b) s [x, y] s1 → Answers (.and rd a b) s s1 s1 rd (x &&& y)) ∧
     (Issued (.andn rd a b) s [x, y] s1 → Answers (.andn rd a b) s s1 s1 rd (x &&& ~~~y)) ∧
     (Issued (.or rd a b) s [x, y] s1 → Answers (.or rd a b) s s1 s1 rd (x ||| y)) ∧
     (Issued (.xor rd a b) s [x, y] s1 → Answers (.xor rd a b) s s1 s1 rd (x ^^^ y)) ∧
     (Issued (.min rd a b) s [x, y] s1 → Answers (.min rd a b) s s1 s1 rd (if x.toInt ≤ y.toInt then x else y)) ∧
     (Issued (.max rd a b) s [x, y] s1 → Answers (.max rd a b) s s1 s1 rd (if x.toInt ≤ y.toInt then y else x)) ∧
     (Issued (.minn rd a b) s [x, y] s1 → Answers (.minn rd a b) s s1 s1 rd (if x.toNat ≤ y.toNat then x else y)) ∧
     (Issued (.maxn rd a b) s [x, y] s1 → Answers (.maxn rd a b) s s1 s1 rd (if x.toNat ≤ y.toNat then y else x))) ∧
  (∀ (s s1 : State) (rd a b sh : RegField) (imm : BitVec 13) (big : BitVec 19) (x y : Word),
     (Issued (.addi rd a imm) s [x] s1 → Answers (.addi rd a imm) s s1 s1 rd (x + imm.signExtend 64)) ∧
     (Issued (.andi rd a imm) s [x] s1 → Answers (.andi rd a imm) s s1 s1 rd (x &&& imm.signExtend 64)) ∧
     (Issued (.ori rd a imm) s [x] s1 → Answers (.ori rd a imm) s s1 s1 rd (x ||| imm.signExtend 64)) ∧
     (Issued (.xori rd a imm) s [x] s1 → Answers (.xori rd a imm) s s1 s1 rd (x ^^^ imm.signExtend 64)) ∧
     (Issued (.sll rd a b) s [x, y] s1 → Answers (.sll rd a b) s s1 s1 rd (wd (x.toNat * 2 ^ (y.toNat % 64)))) ∧
     (Issued (.srl rd a b) s [x, y] s1 → Answers (.srl rd a b) s s1 s1 rd (wd (x.toNat / 2 ^ (y.toNat % 64)))) ∧
     (Issued (.sra rd a b) s [x, y] s1 → Answers (.sra rd a b) s s1 s1 rd (BitVec.ofInt 64 (x.toInt / 2 ^ (y.toNat % 64)))) ∧
     (Issued (.rot rd a b) s [x, y] s1 → Answers (.rot rd a b) s s1 s1 rd
       (wd (x.toNat / 2 ^ (y.toNat % 64) + x.toNat * 2 ^ (64 - y.toNat % 64)))) ∧
     (Issued (.slli rd a sh) s [x] s1 → Answers (.slli rd a sh) s s1 s1 rd (wd (x.toNat * 2 ^ sh.toNat))) ∧
     (Issued (.srli rd a sh) s [x] s1 → Answers (.srli rd a sh) s s1 s1 rd (wd (x.toNat / 2 ^ sh.toNat))) ∧
     (Issued (.srai rd a sh) s [x] s1 → Answers (.srai rd a sh) s s1 s1 rd (BitVec.ofInt 64 (x.toInt / 2 ^ sh.toNat))) ∧
     (Issued (.roti rd a sh) s [x] s1 → Answers (.roti rd a sh) s s1 s1 rd
       (wd (x.toNat / 2 ^ sh.toNat + x.toNat * 2 ^ (64 - sh.toNat)))) ∧
     (Issued (.lih rd big) s [] s1 → Answers (.lih rd big) s s1 s1 rd (BitVec.ofInt 64 (big.toInt * 2 ^ 13))) ∧
     (Issued (.addpc rd big) s [] s1 → Answers (.addpc rd big) s s1 s1 rd (s1.mine.pc + BitVec.ofInt 64 (big.toInt * 2 ^ 13)))) ∧
  (∀ (s s1 : State) (rd a b : RegField) (x y : Word),
     (Issued (.mul rd a b) s [x, y] s1 → Answers (.mul rd a b) s s1 s1 rd (wd (x.toNat * y.toNat))) ∧
     (∀ h : Word, h.toInt * 2 ^ 64 + (wd (x.toNat * y.toNat)).toNat = x.toInt * y.toInt →
       Issued (.mulh rd a b) s [x, y] s1 → Answers (.mulh rd a b) s s1 s1 rd h) ∧
     (∀ h : Word, h.toNat * 2 ^ 64 + (wd (x.toNat * y.toNat)).toNat = x.toNat * y.toNat →
       Issued (.mulhn rd a b) s [x, y] s1 → Answers (.mulhn rd a b) s s1 s1 rd h) ∧
     (Issued (.div rd a b) s [x, y] s1 → Answers (.div rd a b) s s1 s1 rd (if y = 0 then -1 else x.sdiv y)) ∧
     (Issued (.divn rd a b) s [x, y] s1 → Answers (.divn rd a b) s s1 s1 rd (if y = 0 then -1 else x / y)) ∧
     (Issued (.rem rd a b) s [x, y] s1 → Answers (.rem rd a b) s s1 s1 rd (if y = 0 then x else x.srem y)) ∧
     (Issued (.remn rd a b) s [x, y] s1 → Answers (.remn rd a b) s s1 s1 rd (if y = 0 then x else x % y)))

/-- R169, R170, R172: bit counts and orders, bit fields, CSEL and PGET, each by the bits of its result. R173, R174: a compare or predicate instruction
writes its predicate with the test's truth, p0 discarding it, and goes on; nothing else of the slot changes but PC. -/
def Obligations.BitAndPredicateResults : Prop :=
  (∀ (s s1 : State) (rd a b pos w : RegField) (ps : BitVec 3) (x y r : Word) (k : Nat),
     (k ≤ 64 → (∀ n, 64 - k ≤ n → n < 64 → x.getLsbD n = false) → (k = 64 ∨ x.getLsbD (63 - k) = true) →
       Issued (.clz rd a) s [x] s1 → Answers (.clz rd a) s s1 s1 rd (wd k)) ∧
     (k ≤ 64 → (∀ n, n < k → x.getLsbD n = false) → (k = 64 ∨ x.getLsbD k = true) →
       Issued (.ctz rd a) s [x] s1 → Answers (.ctz rd a) s s1 s1 rd (wd k)) ∧
     (Issued (.popc rd a) s [x] s1 → Answers (.popc rd a) s s1 s1 rd (wd ((List.range 64).filter (fun n => x.getLsbD n)).length)) ∧
     ((∀ n, n < 64 → r.getLsbD n = x.getLsbD (63 - n)) → Issued (.brev rd a) s [x] s1 → Answers (.brev rd a) s s1 s1 rd r) ∧
     ((∀ n, n < 64 → r.getLsbD n = x.getLsbD (8 * (7 - n / 8) + n % 8)) →
       Issued (.bswap rd a) s [x] s1 → Answers (.bswap rd a) s s1 s1 rd r) ∧
     ((∀ n, n < 64 → r.getLsbD n = x.getLsbD (pos.toNat + min n w.toNat)) →
       Issued (.extS rd a pos w) s [x] s1 → Answers (.extS rd a pos w) s s1 s1 rd r) ∧
     ((∀ n, n < 64 → r.getLsbD n = (decide (n ≤ w.toNat) && x.getLsbD (pos.toNat + n))) →
       Issued (.extn rd a pos w) s [x] s1 → Answers (.extn rd a pos w) s s1 s1 rd r) ∧
     ((∀ n, n < 64 → r.getLsbD n = if pos.toNat ≤ n ∧ n ≤ pos.toNat + w.toNat then x.getLsbD (n - pos.toNat) else y.getLsbD n) →
       Issued (.insF rd a pos w) s [x, y] s1 → Answers (.insF rd a pos w) s s1 s1 rd r) ∧
     (Issued (.csel rd a b ps) s [x, y] s1 → Answers (.csel rd a b ps) s s1 s1 rd (if s1.mine.pr ps.toNat = true then x else y)) ∧
     ((∀ n, n < 64 → r.getLsbD n = (decide (n < 8) && s1.mine.pr n)) →
       Issued (.pget rd) s [] s1 → Answers (.pget rd) s s1 s1 rd r)) ∧
  (∀ (s s1 : State) (a b : RegField) (pd cc ps1 ps2 : BitVec 3) (imm : BitVec 13) (x y : Word) (r : Bool),
     let wrote := fun (i : Instr) => exec i s = .next (advance (s1.modMe (fun t => t.setP pd.toNat r)) 4)
     let holds := fun (z : Word) => (cc = 0#3 ∧ x = z) ∨ (cc = 1#3 ∧ x ≠ z) ∨ (cc = 2#3 ∧ x.toInt < z.toInt) ∨ (cc = 3#3 ∧ z.toInt ≤ x.toInt) ∨
       (cc = 4#3 ∧ x.toNat < z.toNat) ∨ (cc = 5#3 ∧ z.toNat ≤ x.toNat)
     ((r = true ↔ holds y) → Issued (.cmp pd a b cc) s [x, y] s1 → wrote (.cmp pd a b cc)) ∧
     ((r = true ↔ holds (imm.signExtend 64)) → Issued (.cmpi pd cc a imm) s [x] s1 → wrote (.cmpi pd cc a imm)) ∧
     (r = (s1.mine.pr ps1.toNat && s1.mine.pr ps2.toNat) → Issued (.pand pd ps1 ps2) s [] s1 → wrote (.pand pd ps1 ps2)) ∧
     (r = (s1.mine.pr ps1.toNat || s1.mine.pr ps2.toNat) → Issued (.por pd ps1 ps2) s [] s1 → wrote (.por pd ps1 ps2)) ∧
     (r = (s1.mine.pr ps1.toNat ^^ s1.mine.pr ps2.toNat) → Issued (.pxor pd ps1 ps2) s [] s1 → wrote (.pxor pd ps1 ps2)) ∧
     (r = (s1.mine.pr ps1.toNat && !s1.mine.pr ps2.toNat) → Issued (.pandn pd ps1 ps2) s [] s1 → wrote (.pandn pd ps1 ps2)) ∧
     ((r = true ↔ x ≠ 0) → Issued (.pset pd a) s [x] s1 → wrote (.pset pd a)) ∧
     (regOk a = true → regOk b = true →
       decode32 (0#4 ++ cc ++ b ++ a ++ 0#3 ++ pd ++ 11#6 ++ 1#1) = (if cc.toNat < 6 then some (.cmp pd a b cc) else none) ∧
       decode32 (imm ++ a ++ cc ++ pd ++ 12#6 ++ 1#1) = (if cc.toNat < 6 then some (.cmpi pd cc a imm) else none) ∧
       decode32 (4#7 ++ 0#6 ++ a ++ 0#3 ++ pd ++ 13#6 ++ 1#1) = some (.pset pd a) ∧
       decode32 (5#7 ++ 0#6 ++ 0#6 ++ a ++ 13#6 ++ 1#1) = some (.pget a)) ∧
     decode32 (0#7 ++ 0#3 ++ ps2 ++ 0#3 ++ ps1 ++ 0#3 ++ pd ++ 13#6 ++ 1#1) = some (.pand pd ps1 ps2) ∧
     decode32 (1#7 ++ 0#3 ++ ps2 ++ 0#3 ++ ps1 ++ 0#3 ++ pd ++ 13#6 ++ 1#1) = some (.por pd ps1 ps2) ∧
     decode32 (2#7 ++ 0#3 ++ ps2 ++ 0#3 ++ ps1 ++ 0#3 ++ pd ++ 13#6 ++ 1#1) = some (.pxor pd ps1 ps2) ∧
     decode32 (3#7 ++ 0#3 ++ ps2 ++ 0#3 ++ ps1 ++ 0#3 ++ pd ++ 13#6 ++ 1#1) = some (.pandn pd ps1 ps2))

/-- R175-R177, R153: a branch goes to PC + 2 OFF if its condition holds, else to PC + 4; JAL and JALR write PC + 4 to rd, once the target is formed,
and go there; NOP goes on. -/
def Obligations.BranchesAndJumps : Prop :=
  ∀ (s s1 s2 : State) (rd a : RegField) (ps : BitVec 3) (off : BitVec 13) (imm : BitVec 19) (x : Word),
    let pc := s1.mine.pc
    let goesTo := fun (i : Instr) (t : Word) => exec i s = .next (jumpTo s1 s1.me t)
    let goal := fun (taken : Bool) => if taken then pc + BitVec.ofInt 64 (2 * off.toInt) else pc + 4
    (Issued (.bp ps off) s [] s1 → goesTo (.bp ps off) (goal (s1.mine.pr ps.toNat))) ∧
    (Issued (.bnp ps off) s [] s1 → goesTo (.bnp ps off) (goal (!s1.mine.pr ps.toNat))) ∧
    (Issued (.cbz a off) s [x] s1 → goesTo (.cbz a off) (goal (decide (x = 0)))) ∧
    (Issued (.cbnz a off) s [x] s1 → goesTo (.cbnz a off) (goal (decide (x ≠ 0)))) ∧
    (Issued (.jal rd imm) s [] s1 → Written s1 s1 rd (pc + 4) s2 →
      exec (.jal rd imm) s = .next (jumpTo s2 s2.me (pc + BitVec.ofInt 64 (2 * imm.toInt)))) ∧
    (Issued (.jalr rd a off) s [x] s1 → Written s1 s1 rd (pc + 4) s2 →
      exec (.jalr rd a off) s = .next (jumpTo s2 s2.me ((x + off.signExtend 64) &&& ~~~1#64))) ∧
    (Issued .nop s [] s1 → goesTo .nop (pc + 4)) ∧
    decode32 (off ++ 0#6 ++ ps ++ 0#3 ++ 14#6 ++ 1#1) = some (.bp ps off) ∧ decode32 (off ++ 0#6 ++ ps ++ 1#3 ++ 14#6 ++ 1#1) = some (.bnp ps off) ∧
    (regOk a = true → decode32 (off ++ a ++ 0#3 ++ 2#3 ++ 14#6 ++ 1#1) = some (.cbz a off) ∧
      decode32 (off ++ a ++ 0#3 ++ 3#3 ++ 14#6 ++ 1#1) = some (.cbnz a off)) ∧
    (regOk rd = true → decode32 (imm ++ rd ++ 15#6 ++ 1#1) = some (.jal rd imm)) ∧
    (regOk rd = true → regOk a = true → decode32 (off ++ a ++ rd ++ 16#6 ++ 1#1) = some (.jalr rd a off))

/-- R164-R177, R153: the frame of the scalar instructions. Whatever their sources name, and whether they complete, wait on a Hatch or trap, with a
register, a predicate or nothing as destination: every other register and predicate, the vectors and masks, VFLAGS, all of memory with its tags, the
requests and every other slot are as before; and unless a trap is taken, so are mode, status and the trap registers. -/
def Obligations.ScalarFrame : Prop :=
  ∀ (i : Instr) (d : Dest) (s t : State), scalarDest i = some d → (∀ rd, d = .reg rd → rd.toNat < 32) → exec i s = .next t →
    (∀ r, d ≠ .reg r → r.toNat < 32 → t.mine.xr r.toNat = s.mine.xr r.toNat) ∧
    (∀ p : BitVec 3, d ≠ .pred p → t.mine.pr p.toNat = s.mine.pr p.toNat) ∧
    t.mine.v = s.mine.v ∧ t.mine.m = s.mine.m ∧ t.mine.vflags = s.mine.vflags ∧ t.mem = s.mem ∧ t.tags = s.tags ∧ t.reqs = s.reqs ∧
    OthersSame s t s.me ∧
    ((∃ s1 c v, t = trap s1 c v) ∨
      (t.mine.mode = s.mine.mode ∧ t.mine.dh = s.mine.dh ∧ t.mine.ie = s.mine.ie ∧ t.mine.pmode = s.mine.pmode ∧ t.mine.pdh = s.mine.pdh ∧
        t.mine.pie = s.mine.pie ∧ t.mine.nest = s.mine.nest ∧ t.mine.trapcause = s.mine.trapcause ∧ t.mine.trappc = s.mine.trappc ∧
        t.mine.trapval = s.mine.trapval ∧ t.mine.dcause = s.mine.dcause ∧ t.mine.dpc = s.mine.dpc ∧ t.mine.dval = s.mine.dval))

/-- R182, R187: a scalar load whose access passes reads its n bytes at its place, extends them as its mnemonic says and writes them to rd; bytes with
an uncorrectable error give the address instead, marked. R184, R187: LDX writes an even pair from sixteen bytes, each half marked by itself, with its
own address. R185, R416: PREF goes on and changes no register, tag or trap state, whatever its address, where its cluster's requests are not at their
cap; that it does not trap on a core without an L1 is R185's side of a disagreement (log 51). -/
def Obligations.LoadResults : Prop :=
  (∀ (s s1 s3 s4 : State) (rd a : RegField) (imm : BitVec 13) (x : Word) (p : Place) (bs : List Byte) (bad : Bool),
     let ea := x + imm.signExtend 64
     let loads := fun (i : Instr) (n : Nat) (v : Word) =>
       Issued i s [x] s1 → LoadAccesses s1 [{ a := ea, n := n }] .load [p] s3 → p.own = true →
       readPlace s3 s3.curCore p n = (bs, bad, s4) →
       exec i s = .next (writeBack s4 s4.me [(rd.toNat, if bad then ea else v, bad)])
     loads (.ldN8 rd a imm) 1 (wd (leNat bs)) ∧ loads (.ldS8 rd a imm) 1 ((BitVec.ofNat 8 (leNat bs)).signExtend 64) ∧
     loads (.ldN16 rd a imm) 2 (wd (leNat bs)) ∧ loads (.ldS16 rd a imm) 2 ((BitVec.ofNat 16 (leNat bs)).signExtend 64) ∧
     loads (.ldN32 rd a imm) 4 (wd (leNat bs)) ∧ loads (.ldS32 rd a imm) 4 ((BitVec.ofNat 32 (leNat bs)).signExtend 64) ∧
     loads (.ldD64 rd a imm) 8 (wd (leNat bs))) ∧
  (∀ (s s1 s3 s4 : State) (rd a : RegField) (imm : BitVec 13) (x : Word) (p : Place) (bs : List Byte) (bad : Bool),
     let ea := x + imm.signExtend 64
     (∀ lo hi : Bool, Issued (.ldx rd a imm) s [x] s1 → LoadAccesses s1 [{ a := ea, n := 16 }] .load [p] s3 → p.own = true →
       readPlace s3 s3.curCore p 16 = (bs, bad, s4) → anyBad s3 s3.curCore p.loc 8 = lo → anyBad s3 s3.curCore (p.loc + 8) 8 = hi →
       exec (.ldx rd a imm) s = .next (advance (s4.modMe (fun t =>
         (t.setX rd.toNat (if lo then ea else wd (leNat (bs.take 8))) lo).setX (rd.toNat + 1)
           (if hi then ea + 8 else wd (leNat (bs.drop 8))) hi)) 4)) ∧
     (Issued (.pref a imm) s [x] s1 → capReached s1 (clusterOf s1.curCore) = false → ∃ t, exec (.pref a imm) s = .next t ∧ t.mine.pc = s1.mine.pc + 4 ∧ t.mine.x = s1.mine.x ∧ t.tags = s1.tags ∧
       t.mine.trapcause = s1.mine.trapcause ∧ t.mine.mode = s1.mine.mode ∧ OthersSame s1 t s1.me))

/-- R182-R184: the frame of the loads. With register fields, no logged store of the core waiting, and a global address whose translation is cached,
whatever the load does (complete, wait or trap) no tag or other slot changes, nor any register but its destination's. No byte of memory changes where
the L1 has room for a line or no core holds unpublished stores (R98: a line that leaves the L1 is published; that none leaves while there is room is the
model's reading, log 6); a request changes only where the load is sent to a peer (R426). -/
def Obligations.LoadFrame : Prop :=
  ∀ (i : Instr) (s t : State) (rd a : RegField) (imm : BitVec 13),
    (i = .ldS8 rd a imm ∨ i = .ldN8 rd a imm ∨ i = .ldS16 rd a imm ∨ i = .ldN16 rd a imm ∨ i = .ldS32 rd a imm ∨ i = .ldN32 rd a imm ∨
      i = .ldD64 rd a imm ∨ i = .ldx rd a imm) → rd.toNat < 32 → a.toNat < 32 → s.here.sideLog = [] →
    (spaceOf (s.mine.xr a.toNat + imm.signExtend 64) = .global →
      (tlbFind s s.curCore (fld (s.mine.xr a.toNat + imm.signExtend 64) 0 56)).isSome = true) →
    exec i s = .next t →
    ((s.here.l1.length < l1Lines s s.curCore ∨ ∀ c, (s.core c).lines = []) → t.mem = s.mem) ∧
    (s.mine.checked = none → (∀ p, spaceOf (s.mine.xr a.toNat + imm.signExtend 64) ≠ .peer p) → t.reqs = s.reqs) ∧
    t.tags = s.tags ∧ OthersSame s t s.me ∧ t.mine.p = s.mine.p ∧ t.mine.v = s.mine.v ∧ t.mine.m = s.mine.m ∧
      t.mine.vflags = s.mine.vflags ∧
      ∀ r, r < 32 → r ≠ rd.toNat → (i = .ldx rd a imm → r ≠ rd.toNat + 1) → t.mine.xr r = s.mine.xr r

/-- R182, R184, R186: a scalar store whose access passes stores the low bytes of rs2 at its place, or enters them in the side log while that has room,
and goes on. R97, R105, R106, R66: where a store's bytes go and what it leaves alone. In an SRAM, and on an uncached page that is not summarised,
exactly its bytes of memory change; a cacheable store to a line of the L1 that the core already holds unpublished changes no byte of published memory; and no store
changes a register of its slot, another slot, or a tag. -/
def Obligations.StoreResults : Prop :=
  (∀ (s s1 s3 : State) (a b : RegField) (imm : BitVec 13) (x y z : Word) (p : Place),
     let ea := x + imm.signExtend 64
     let stores := fun (i : Instr) (vs : List Word) (bs : List Byte) =>
       Issued i s vs s1 → Accesses s1 [{ a := ea, n := bs.length }] .store true true [p] s3 → logFull s3 p = false →
       exec i s = .next (advance (storeElem s3 p bs .store) 4)
     stores (.stN8 imm a b) [x, y] (leBytes y.toNat 1) ∧ stores (.stN16 imm a b) [x, y] (leBytes y.toNat 2) ∧
     stores (.stN32 imm a b) [x, y] (leBytes y.toNat 4) ∧ stores (.stD64 imm a b) [x, y] (leBytes y.toNat 8) ∧
     stores (.stx imm a b) [x, y, z] (leBytes y.toNat 8 ++ leBytes z.toNat 8)) ∧
  (∀ (s : State) (p : Place) (bs : List Byte) (loc va pa : Nat) (leaf : Word),
     let t := storeElem s p bs .store
     (p = .sram loc → t.mem.readN loc bs.length = bs ∧ MemorySame s t loc bs.length) ∧
     (p = .global va pa leaf 0 → cached leaf = false → t.mem.readN pa bs.length = bs ∧ MemorySame s t pa bs.length) ∧
     (p = .global va pa leaf 0 → cached leaf = true → (s.here.lines.any (fun l => l.line = lineNo pa)) = true →
       s.here.l1.contains (lineNo pa) = true → t.mem = s.mem) ∧
     (p.own = true → t.mine = s.mine ∧ OthersSame s t s.me ∧ t.tags = s.tags))

/-- R99, R66: a core reads its own latest store: after a store of bytes within a line, a cacheable load of them by the same core returns them,
whatever else the snapshot holds. R99, R100: every cacheable load has one moment for all its bytes, no older than the last refresh and than what the core
saw or published of any of them before, and now for a line held coherently. A byte it returns is the core's latest unpublished store to it or, where there is
none, its value at that moment in the coherence order, which the core has then seen; R66: where annulment discarded the core's store, the value at the
moment that the annulment left; R187: zero in a sector whose fill met an error. R97, R99, R102: release and acquire between cores. What core c stored into one sector and published, core d reads after a refresh, if d holds
no unpublished line there. R101, R102, R398: a publish at .dev that does not wait leaves its core no line with unpublished stores, and no logged store
made before it; at .sys besides no peer store made before it without its answer, and no store of the core still on its way to the host; and at every scope none of
the core's earlier stores that it awaits is held (R93; that cacheable ones are awaited from .dev on is the model's reading, DEDUCED, log 47). R102: a refresh makes the core's
loads of bytes it holds no unpublished store to return the published bytes. -/
def Obligations.OrderingOfMemory : Prop :=
  (∀ (s : State) (c r a : Nat) (bs : List Byte) (ext : Word),
     bs ≠ [] → a % 128 + bs.length ≤ 128 → (snapLoad (snapStore s c r a bs ext) c a bs.length).1 = bs) ∧
  (∀ (s : State) (c a n : Nat), ∃ p, p ≤ s.history.length ∧ min (s.core c).refresh s.history.length ≤ p ∧
     (∀ i, i < n → min (look 0 (a + i) (s.core c).seen) s.history.length ≤ p) ∧ (heldHere s c (lineNo a) = true → p = s.history.length) ∧
     ∀ i, i < n →
       let own := dirtyLine (s.core c) (a + i)
       let left := (s.core c).reverted.find? (fun r => r.1 = a + i)
       let point := match left with
         | some r => if heldHere s c (lineNo (a + i)) then p else r.2
         | none => p
       let old := if own.any (fun l => l.zero.contains (sectorNo (a + i))) then 0 else asOf s (a + i) (s.history.length - point)
       ((snapLoad s c a n).1)[i]? = some (match own with | some l => look old (a + i) l.cells | none => old) ∧
       (ownStore (s.core c) (a + i) = false → left = none → look 0 (a + i) ((snapLoad s c a n).2.core c).seen = p) ∧
       (ownStore (s.core c) (a + i) = false → heldHere s c (lineNo a) = true → look 0 (a + i) ((snapLoad s c a n).2.core c).seen = p ∧
         ∀ r ∈ ((snapLoad s c a n).2.core c).reverted, r.1 ≠ a + i)) ∧
  (∀ (s : State) (c d r a : Nat) (bs : List Byte),
     bs ≠ [] → a % 16 + bs.length ≤ 16 → (s.core c).lines = [] → dirtyLine (s.core d) a = none →
     (snapLoad (refreshCore (publishLines (snapStore s c r a bs 0) c) d) d a bs.length).1 = bs) ∧
  (∀ (s s1 : State) (u : Unit) (a n : Nat),
     let bound := s.mine.awaits.getD s.nextId
     let k := s1.core s.curCore
     (publish s .dev = .go u s1 → k.lines = [] ∧ ∀ e ∈ k.sideLog, bound ≤ e.id) ∧
     (publish s .sys = .go u s1 → k.lines = [] ∧ (∀ e ∈ k.sideLog, bound ≤ e.id) ∧ (∀ e ∈ k.peerOut, bound ≤ e.1) ∧
       ∀ x ∈ s1.hostLag, ∀ y ∈ x.2.2, y.1 ≠ s.curCore) ∧
     (publish s .cl = .go u s1 → s1 = s) ∧
     (∀ scope g, publish s scope = .go u s1 → g ∈ slotsOf s.curCore → (scope = .cl → (s.slot g).wait ≠ some .sideLog) →
       storeHeld (s.slot g) (issueOrder s) scope = false) ∧
     ((∀ g ∈ slotsOf s.curCore, storeHeld (s.slot g) (issueOrder s) .cl = false) → s.mine.wait ≠ some .stores → publish s .cl = .go () s) ∧
     ((∃ g ∈ slotsOf s.curCore, (s.slot g).wait ≠ some .sideLog ∧ storeHeld (s.slot g) (issueOrder s) .cl = true) →
       publish s .cl = .stop (waitSlot s s.me .stores)) ∧
     ((∀ i, i < n → dirtyLine (s.core s.curCore) (a + i) = none) →
       (snapLoad (refreshCore s s.curCore) s.curCore a n).1 = s.mem.readN a n))

/-- R90, R72, R73, R88: the checks of an access of one element, in order: an address in no space traps NONCANON; the Closet window in user mode PRIV;
a misaligned one MISALIGN; one beyond its window's size PROT_LOCAL; each gives the address. R73, R76, R80, R81: in supervisor mode a scalar load,
store or atomic of an aligned element within the core's scratchpad, Closet, a shared scratchpad's exposed bytes or the die scratchpad passes, and is
performed at its SRAM location. R93, R43: an access to bytes that an entry of the core's range scoreboard covers waits, issued and its checks done: nothing else is done, and they are not
made again. -/
def Obligations.AccessChecks : Prop :=
  (∀ (s : State) (e : Elem) (acc : Access) (logs : Bool), s.mine.checked = none →
     (spaceOf e.a = .none → checkAccess s [e] acc logs = .stop (trap s .noncanon e.a)) ∧
     (spaceOf e.a = .window 4 → s.mine.mode = false → checkAccess s [e] acc logs = .stop (trap s .priv e.a)) ∧
     (spaceOf e.a ≠ .none → (spaceOf e.a = .window 4 → s.mine.mode = true) → e.a.toNat % e.al ≠ 0 →
       checkAccess s [e] acc logs = .stop (trap s .misalign e.a)) ∧
     (spaceOf e.a ≠ .none → (spaceOf e.a = .window 4 → s.mine.mode = true) → e.a.toNat % e.al = 0 → sizeOk s s.curCore e.a e.n = false →
       checkAccess s [e] acc logs = .stop (trap s .protLocal e.a))) ∧
  (∀ (s : State) (a : Word) (n w : Nat) (acc : Access) (logs : Bool),
     (acc = .load ∨ acc = .store ∨ acc = .atomic) → spaceOf a = .window w → w ≠ 1 → a.toNat % n = 0 → sizeOk s s.curCore a n = true →
     s.mine.mode = true → s.mine.checked = none → checkAccess s [{ a := a, n := n }] acc logs = .go [.sram (sramLoc s.curCore s.me { a := a, n := n })] s) ∧
  (∀ (s : State) (loc n : Nat) (writes : Bool) (b : Board) (r : Nat × Nat),
     b ∈ s.here.board → r ∈ b.ranges → loc ≤ r.2 → r.1 < loc + n →
     holdAccess s [(.sram loc, n)] writes = .stop (waitSlot (s.modMe (fun t => { t with checked := some [.sram loc] })) s.me .board)) ∧
  (∀ (s : State) (l : List Elem) (acc : Access) (logs : Bool) (ps : List Place), s.mine.checked = some ps → ps.length = l.length →
     (∀ p ∈ ps, p.unsettled = false) → (∀ z ∈ l.zip ps, placeFits s.curCore s.me z.1 z.2 = true) →
     checkAccess s l acc logs = .go ps (s.modMe (fun t => { t with checked := none })))

/-- R195, R196, R149: an atomic on bytes of this device, once ready, is performed at its point: its old value goes to rd, zero-extended, after its
.acq refresh; an error in the bytes read gives the address, marked; a reduction has no result. R195: the functions of the atomics on n bytes, and one
read-modify-write in an SRAM: it returns the old value, leaves the new one, and changes no other byte and no slot. That an atomic is performed on bytes in error,
its result marked, is the model's choice (R187 tells of loads; DESIGN CHOICE, log 78). -/
def Obligations.AtomicResults : Prop :=
  (∀ (s s1 s2 s3 : State) (rd a b : RegField) (ord : BitVec 3) (op : BitVec 4) (sz : BitVec 1) (x y z : Word) (p : Place) (old : Nat),
     let n := if sz = 1#1 then 8 else 4
     let f := if sz = 1#1 then 2 else 4
     (Issued (.amo32 rd a b ord op) s [x, y] s1 → atomicReady s1 x 4 ord.toNat false = .go p s2 → p.own = true →
       anyBad s2 s2.curCore p.loc 4 = false →
       atomicAt s2 s2.curCore s2.me p 4 (fun o => amoFn op.toNat 4 o (y.toNat % 2 ^ 32)) = (old, s3) →
       Answers (.amo32 rd a b ord op) s s1 (acquire s3 ord.toNat) rd (wd old)) ∧
     (Issued (.amo32 rd a b ord op) s [x, y] s1 → atomicReady s1 x 4 ord.toNat false = .go p s2 → p.own = true →
       anyBad s2 s2.curCore p.loc 4 = true →
       atomicAt s2 s2.curCore s2.me p 4 (fun o => amoFn op.toNat 4 o (y.toNat % 2 ^ 32)) = (old, s3) →
       exec (.amo32 rd a b ord op) s = .next (writeBack (acquire s3 ord.toNat) (acquire s3 ord.toNat).me [(rd.toNat, x, true)])) ∧
     (Issued (.amo64 rd a b ord op) s [x, y] s1 → atomicReady s1 x 8 ord.toNat false = .go p s2 → p.own = true →
       anyBad s2 s2.curCore p.loc 8 = false →
       atomicAt s2 s2.curCore s2.me p 8 (fun o => amoFn op.toNat 8 o y.toNat) = (old, s3) →
       Answers (.amo64 rd a b ord op) s s1 (acquire s3 ord.toNat) rd (wd old)) ∧
     (Issued (.amo64 rd a b ord op) s [x, y] s1 → atomicReady s1 x 8 ord.toNat false = .go p s2 → p.own = true →
       anyBad s2 s2.curCore p.loc 8 = true →
       atomicAt s2 s2.curCore s2.me p 8 (fun o => amoFn op.toNat 8 o y.toNat) = (old, s3) →
       exec (.amo64 rd a b ord op) s = .next (writeBack (acquire s3 ord.toNat) (acquire s3 ord.toNat).me [(rd.toNat, x, true)])) ∧
     (Issued (.cas rd a b ord sz) s [x, y, z] s1 → atomicReady s1 x n ord.toNat false = .go p s2 → p.own = true →
       anyBad s2 s2.curCore p.loc n = false →
       atomicAt s2 s2.curCore s2.me p n (fun o => if o = z.toNat % 2 ^ (8 * n) then y.toNat % 2 ^ (8 * n) else o) = (old, s3) →
       Answers (.cas rd a b ord sz) s s1 (acquire s3 ord.toNat) rd (wd old)) ∧
     (Issued (.cas rd a b ord sz) s [x, y, z] s1 → atomicReady s1 x n ord.toNat false = .go p s2 → p.own = true →
       anyBad s2 s2.curCore p.loc n = true →
       atomicAt s2 s2.curCore s2.me p n (fun o => if o = z.toNat % 2 ^ (8 * n) then y.toNat % 2 ^ (8 * n) else o) = (old, s3) →
       exec (.cas rd a b ord sz) s = .next (writeBack (acquire s3 ord.toNat) (acquire s3 ord.toNat).me [(rd.toNat, x, true)])) ∧
     (Issued (.red32 a b ord op) s [x, y] s1 → atomicReady s1 x 4 ord.toNat true = .go p s2 → p.own = true →
       atomicAt s2 s2.curCore s2.me p 4 (fun o => amoFn op.toNat 4 o (y.toNat % 2 ^ 32)) = (old, s3) →
       exec (.red32 a b ord op) s = .next (advance (acquire s3 ord.toNat) 4)) ∧
     (Issued (.red64 a b ord op) s [x, y] s1 → atomicReady s1 x 8 ord.toNat true = .go p s2 → p.own = true →
       atomicAt s2 s2.curCore s2.me p 8 (fun o => amoFn op.toNat 8 o y.toNat) = (old, s3) →
       exec (.red64 a b ord op) s = .next (advance (acquire s3 ord.toNat) 4)) ∧
     (Issued (.fred a b ord sz) s [x, y] s1 → atomicReady s1 x f ord.toNat true = .go p s2 → p.own = true →
       atomicAt s2 s2.curCore s2.me p f (fun o => fredFn (decide (sz = 1#1)) o (y.toNat % 2 ^ (8 * f))) = (old, s3) →
       exec (.fred a b ord sz) s = .next (advance (acquire s3 ord.toNat) 4))) ∧
  (∀ (s : State) (n old v loc c g : Nat) (f : Nat → Nat), (n = 4 ∨ n = 8) → old < 2 ^ (8 * n) → v < 2 ^ (8 * n) →
     let i := fun (u : Nat) => (BitVec.ofNat (8 * n) u).toInt
     amoFn 0 n old v = (old + v) % 2 ^ (8 * n) ∧ amoFn 1 n old v = old &&& v ∧ amoFn 2 n old v = old ||| v ∧ amoFn 3 n old v = old ^^^ v ∧
     amoFn 4 n old v = (if i old ≤ i v then old else v) ∧ amoFn 5 n old v = (if i old ≤ i v then v else old) ∧
     amoFn 6 n old v = min old v ∧ amoFn 7 n old v = max old v ∧ amoFn 8 n old v = v ∧
     (let r := atomicAt s c g (.sram loc) n f
      r.1 = leNat (s.mem.readN loc n) ∧ r.2.mem.readN loc n = leBytes (f r.1) n ∧ MemorySame s r.2 loc n ∧ r.2.slots = s.slots))

/-- R189, R84: a tagged-word operation whose condition holds, on a word no deferral waits for, is performed at once: LDFULL and LDTAKE give the word,
LDTAKE empties it, STFILL and STFORCE write rs2 and fill it, TAGRD gives the tag. R190, R191, R43: an operation whose condition does not hold takes an
entry of its slice's 64-entry buffer and its slot waits; with the buffer full nothing is performed and the request is sent again after a backoff of 16
cycles that doubles up to 4,096. R190-R193: after its backoff a NACKed request is sent again, unless its slot is being preempted or its cluster's requests
are at their cap (R416), and to the address as it translates now where a TLBINV came between (R363); the result of a performed deferral goes to its register
and the slot on; a wait that has reached WAITLIM, that of an instruction held at its core by the cap too, withdraws its deferral or traps WAITLIMIT, and the withdrawal's answer traps, or lets the slot issue
again, with nothing performed. R64: a request of a task whose annulment point the home slice's die knows is not performed there. -/
def Obligations.TaggedWords : Prop :=
  (∀ (s s1 s3 : State) (rd a b : RegField) (x y : Word) (va pa : Nat) (leaf ext : Word),
     let p := Place.global va pa leaf ext
     let ld := fun (i : Instr) => Issued i s [x] s1 ∧ LoadAccesses s1 [{ a := x, n := 8 }] .tagLoad [p] s3
     let st := fun (i : Instr) => Issued i s [x, y] s1 ∧ Accesses s1 [{ a := x, n := 8 }] .tagStore false true [p] s3
     (∀ d ∈ s3.deferred, d.w.pa ≠ pa) → (∀ k, k < 8 → s3.bad.contains (pa + k) = false) → needsDirty s3 s3.curCore va leaf = false →
     annulKnown s3 s3.mine.rtag (homeDie pa) = false →
     (ld (.ldfull rd a) → s3.full pa = true →
       exec (.ldfull rd a) s = .next (writeBack s3 s3.me [(rd.toNat, read64 s3.mem pa, false)])) ∧
     (ld (.ldtake rd a) → s3.full pa = true →
       exec (.ldtake rd a) s = .next (writeBack (s3.setTag pa false) s3.me [(rd.toNat, read64 s3.mem pa, false)])) ∧
     (ld (.tagrd rd a) → exec (.tagrd rd a) s = .next (writeBack s3 s3.me [(rd.toNat, if s3.full pa then 1 else 0, false)])) ∧
     (st (.stfill a b) → s3.full pa = false →
       ∃ t, exec (.stfill a b) s = .next t ∧ t.full pa = true ∧ read64 t.mem pa = y ∧ t.mine.pc = s3.mine.pc + 4 ∧ MemorySame s3 t pa 8) ∧
     (st (.stforce a b) →
       ∃ t, exec (.stforce a b) s = .next t ∧ t.full pa = true ∧ read64 t.mem pa = y ∧ t.mine.pc = s3.mine.pc + 4 ∧ MemorySame s3 t pa 8)) ∧
  (∀ (s : State) (g naks : Nat) (w : TagOp), annulKnown s (s.slot g).rtag (homeDie w.pa) = true → tagRequest s g w naks = waitSlot s g .turn) ∧
  (∀ (s : State) (g naks : Nat) (w : TagOp), annulKnown s (s.slot g).rtag (homeDie w.pa) = false → tagReady w.op (s.full w.pa) = false →
     let here := (s.deferred.filter (fun d => d.slice = homeSlice w.pa)).length
     (here < 64 → ((tagRequest s g w naks).slot g).state = .waiting ∧ (tagRequest s g w naks).mem = s.mem ∧ (tagRequest s g w naks).tags = s.tags ∧
       (tagRequest s g w naks).deferred = s.deferred ++ [{ slice := homeSlice w.pa, w := w, g := g }]) ∧
     (64 ≤ here → (tagRequest s g w naks).deferred = s.deferred ∧ (tagRequest s g w naks).mem = s.mem ∧
       ((tagRequest s g w naks).slot g).wait = some (.tagged w false (naks + 1) (s.time + nsOf (backoff (naks + 1))))) ∧
     backoff 1 = 16 ∧ (∀ n, 1 ≤ n → backoff (n + 1) = min 4096 (2 * backoff n))) ∧
  (∀ (s : State) (g n r b : Nat) (w : TagOp) (v : Word) (bad : Bool) (why : Withdrawal), g < 32768 →
     let t := s.slot g
     let freed : State := { s with deferred := s.deferred.filter (fun d => d.g != g) }
     let due := t.waitlim ≠ 0#32 ∧ t.waitlim.toNat ≤ s.waited t
     (t.wait = some (.tagged w false n r) →
       ((s.time < r ∨ isVictim s g = true ∨ resendCapped s g = true) → exec (.twBackoffExpiry g) s = .next s) ∧
       (r ≤ s.time → isVictim s g = false → resendCapped s g = false →
         (w.stale = false → exec (.twBackoffExpiry g) s = .next (tagRequest s g w n)) ∧
         (∀ pa leaf ext, w.stale = true →
           translate s (coreOf g) (fld w.addr 0 56) (if w.op = 2 ∨ w.op = 3 then .tagStore else .tagLoad) (!t.mode) = (.ok pa leaf ext, s) →
           atsTranslate s pa = (true, s) → leafTg leaf = true →
           exec (.twBackoffExpiry g) s = .next (tagRequest s g { w with pa := pa, stale := false } n)))) ∧
     (t.wait = some (.tagAnswer w v bad) → w.rd < 32 →
       ∃ u, exec (.taggedOpComplete g) s = .next u ∧ (u.slot g).pc = t.pc + 4 ∧ (u.slot g).wait = none ∧ (u.slot g).state = .ready ∧ u.mem = s.mem ∧
         u.tags = s.tags ∧ OthersSame s u g ∧ (w.op ≠ 2 → w.op ≠ 3 → w.rd ≠ 0 → (u.slot g).xr w.rd = v ∧ (u.slot g).poisoned w.rd = bad)) ∧
     (due → (t.wait = some (.tagged w true n r) → ∃ u, exec (.waitLimitExpiry g) s = .next u ∧ (u.slot g).wait = some (.withdrawn w .limit) ∧
         Event.withdrawalAnswer g ∈ u.pending ∧ u.mem = s.mem ∧ u.tags = s.tags ∧ OthersSame s u g) ∧
       (t.wait = some (.tagged w false n r) → exec (.waitLimitExpiry g) s = .next (trapAt s g .waitlimit t.pc w.addr)) ∧
       (∀ x, t.wait = some .cap → governedHeld t = some x → exec (.waitLimitExpiry g) s = .next (trapAt s g .waitlimit t.pc x)) ∧
       (t.wait = some (.barrier b) → t.state = .waiting → exec (.waitLimitExpiry g) s = .next (trapAt s g .waitlimit t.pc (wd b)))) ∧
     (t.wait = some (.withdrawn w .limit) → exec (.withdrawalAnswer g) s = .next (trapAt freed g .waitlimit t.pc w.addr)) ∧
     (t.wait = some (.withdrawn w why) → why ≠ .limit → ∃ u, exec (.withdrawalAnswer g) s = .next u ∧ (u.slot g).wait = none ∧
       (u.slot g).state = .ready ∧ (u.slot g).pc = t.pc ∧ u.deferred = freed.deferred ∧ u.mem = s.mem ∧ u.tags = s.tags ∧ OthersSame s u g) ∧
     (t.wait = some (.tagAnswer w v bad) → exec (.withdrawalAnswer g) s = .next s))

/-- R200, R202-R204: MONARM answers the entry that holds the line, else arms the lowest free one with its written bit clear, else answers 2^64 - 1;
MONWAIT with a cause, or its timeout over, answers LINES, NOLINE, MESSAGE, TIMEOUT and WRITE and clears the written bits, with a timeout of 0 ends at
once, without a cause waits, and with REARM pending answers REARM; MONCLR frees all, or the
line's entry. R201: a write to a line wakes the slots that armed it: publishing cells posts a wake event for each armed entry, but for a core's own store
those of the core, and for an atomic that of its slot; the event sets the entry's written bit and makes a slot in MONWAIT ready. -/
def Obligations.MonitorResults : Prop :=
  (∀ (s s1 s2 : State) (rd a : RegField) (x : Word) (p : Place) (n : Nat),
     let line := fun (m : Nat × Nat × Nat) => m.2.1 = vaLine x
     (Issued (.monarm rd a) s [x] s1 → checkAccess s1 [{ a := x, n := 8 }] .monarm false = .go [p] s2 →
       (∀ m, s2.mine.monitors.find? (fun m => m.2.1 = vaLine x) = some m → Answers (.monarm rd a) s s1 s2 rd (wd m.1)) ∧
       ((∀ m ∈ s2.mine.monitors, ¬ line m) → n < 4 → (∀ m ∈ s2.mine.monitors, m.1 ≠ n) → (∀ k, k < n → ∃ m ∈ s2.mine.monitors, m.1 = k) →
         Answers (.monarm rd a) s s1 (s2.modMe (fun t => armAt t n (vaLine x) (lineNo p.loc))) rd (wd n)) ∧
       ((∀ m ∈ s2.mine.monitors, ¬ line m) → (∀ k, k < 4 → ∃ m ∈ s2.mine.monitors, m.1 = k) →
         Answers (.monarm rd a) s s1 s2 rd (wd (2 ^ 64 - 1)))) ∧
     (Issued (.monwait rd a) s [x] s1 → s1.mine.rearm = false →
       let msg := messageQueued s1.here s1.curSlot
       let cause := s1.mine.written != 0 || s1.mine.monitors.isEmpty || msg
       let late := if x = 0 then !cause else decide (x.toNat ≤ s1.sinceIssue s1.mine)
       ((cause = true ∨ late = true) →
         Answers (.monwait rd a) s s1 (s1.modMe (fun t => { t with written := 0, rearm := false })) rd
           (wd (s1.mine.written.toNat * 256 + 16 * b2n s1.mine.monitors.isEmpty + 4 * b2n msg + 2 * b2n late + b2n (s1.mine.written != 0)))) ∧
       (cause = false → late = false → exec (.monwait rd a) s = .next (waitSlot s1 s1.me (.monitor s1.time x.toNat)))) ∧
     (Issued (.monwait rd a) s [x] s1 → s1.mine.rearm = true →
       Answers (.monwait rd a) s s1 (s1.modMe (fun t => { t with rearm := false })) rd (wd (8 + 4 * b2n (messageQueued s1.here s1.curSlot)))) ∧
     (Issued (.monclr 0) s [x] s1 → exec (.monclr 0) s = .next (advance (s1.modMe (fun t => { t with monitors := [], written := 0 })) 4)) ∧
     (Issued (.monclr a) s [x] s1 → a ≠ 0 → spaceOf x = .none → exec (.monclr a) s = .next (trap s1 .noncanon x)) ∧
     (Issued (.monclr a) s [x] s1 → a ≠ 0 → spaceOf x ≠ .none → (∀ m ∈ s1.mine.monitors, ¬ line m) →
       exec (.monclr a) s = .next (advance (s1.modMe (fun t => t)) 4)) ∧
     (∀ m, Issued (.monclr a) s [x] s1 → a ≠ 0 → spaceOf x = .global → s1.mine.monitors.find? (fun m => m.2.1 = vaLine x) = some m →
       exec (.monclr a) s = .next (advance (s1.modMe (fun t =>
         { t with monitors := drop m.1 t.monitors, written := t.written &&& ~~~(BitVec.ofNat 4 (2 ^ m.1)) })) 4))) ∧
  (∀ (s : State) (g e va a : Nat) (b : Byte) (core : Option Nat) (by_ : Option Nat),
     g < 32768 → e < 4 →
     ((∃ t, (g, t) ∈ s.slots ∧ (e, va, lineNo a) ∈ t.monitors) → (by_ = none → some (coreOf g) ≠ core) → some g ≠ by_ →
       Event.monitorWake g e ∈ (publishCells s [(a, b)] 0 core by_).pending) ∧
     ((∃ m ∈ (s.slot g).monitors, m.1 = e) → ∃ t, exec (.monitorWake g e) s = .next t ∧
       (t.slot g).written = (s.slot g).written ||| BitVec.ofNat 4 (2 ^ e) ∧
       (∀ k l, (s.slot g).wait = some (.monitor k l) → (t.slot g).state = .ready) ∧ OthersSame s t g))

/-- R200-R204, R140: where the monitor instructions complete, by the state and the operands alone: with register fields that no mark taints, MONARM on
an aligned global address whose cached translation permits it, MONWAIT with a cause or its timeout over, and MONCLR on any address of a space; and
every write to an armed line reaches its entry. Each goes on 4 bytes further, and touches only its own slot. -/
def Obligations.MonitorsComplete : Prop :=
  (∀ (s : State) (rd a : RegField) (e : TlbEntry), rd.toNat < 32 → a.toNat < 32 → (a ≠ 0#6 → s.mine.poisoned a.toNat = false) →
     let x := s.mine.xr a.toNat
     let pa := e.pa + fld x 0 56 % 2 ^ e.log2
     let armed := s.mine.monitors.any (fun m => m.2.1 = vaLine x)
     s.mine.checked = none → s.here.sideLog = [] → spaceOf x = .global → x.toNat % 8 = 0 → tlbFind s s.curCore (fld x 0 56) = some e →
     permits e.leaf .monarm (!s.mine.mode) = true → (hasL1 s.here = true ∨ cached e.leaf = false) → atsTranslate s pa = (true, s) →
     ∃ t, exec (.monarm rd a) s = .next t ∧ t.mine.pc = s.mine.pc + 4 ∧ t.mine.state = .ready ∧ t.mem = s.mem ∧ OthersSame s t s.me ∧
       (∀ r, r < 32 → r ≠ rd.toNat → t.mine.xr r = s.mine.xr r) ∧
       (armed = true → t.mine.monitors = s.mine.monitors ∧
         (rd ≠ 0#6 → ∃ m ∈ s.mine.monitors, m.2.1 = vaLine x ∧ t.mine.xr rd.toNat = wd m.1)) ∧
       (armed = false → (∃ k, k < 4 ∧ ∀ m ∈ s.mine.monitors, m.1 ≠ k) → ∃ n, n < 4 ∧ (n, vaLine x, lineNo pa) ∈ t.mine.monitors ∧
         t.mine.written = s.mine.written &&& ~~~(BitVec.ofNat 4 (2 ^ n)) ∧ (rd ≠ 0#6 → t.mine.xr rd.toNat = wd n))) ∧
  (∀ (s : State) (rd a : RegField), rd.toNat < 32 → a.toNat < 32 → (a ≠ 0#6 → s.mine.poisoned a.toNat = false) →
     let x := s.mine.xr a.toNat
     let msg := messageQueued s.here s.curSlot
     let cause := s.mine.written != 0 || s.mine.monitors.isEmpty || msg
     let late := if x = 0 then !cause else decide (x.toNat ≤ s.sinceIssue s.mine)
     let ends := fun (written : BitVec 4) (r : Nat) => exec (.monwait rd a) s =
       .next (advance (s.modMe (fun t => ({ t with written := written, rearm := false } : Slot).setX rd.toNat (wd r))) 4)
     (s.mine.rearm = true → ends s.mine.written (8 + 4 * b2n msg)) ∧
     (s.mine.rearm = false → (cause = true ∨ late = true) → ends 0
       (s.mine.written.toNat * 256 + 16 * b2n s.mine.monitors.isEmpty + 4 * b2n msg + 2 * b2n late + b2n (s.mine.written != 0)))) ∧
  (∀ (s : State) (a : RegField), a.toNat < 32 → (a ≠ 0#6 → s.mine.poisoned a.toNat = false) →
     let x := s.mine.xr a.toNat
     let ends := fun (t : Slot) => exec (.monclr a) s = .next (advance (s.setSlot s.me t) 4)
     (a = 0#6 → ends { s.mine with monitors := [], written := 0 }) ∧
     (a ≠ 0#6 → spaceOf x ≠ .none → (spaceOf x = .global → ∀ m ∈ s.mine.monitors, m.2.1 ≠ vaLine x) → ends s.mine) ∧
     (∀ m, a ≠ 0#6 → spaceOf x = .global → s.mine.monitors.find? (fun m => m.2.1 = vaLine x) = some m →
       ends { s.mine with monitors := drop m.1 s.mine.monitors, written := s.mine.written &&& ~~~(BitVec.ofNat 4 (2 ^ m.1)) })) ∧
  (∀ (s : State) (g e : Nat), g < 32768 → e < 4 →
     ∃ t, exec (.monitorWake g e) s = .next t ∧ OthersSame s t g ∧ t.mem = s.mem ∧
       (((s.slot g).monitors.any (fun m => m.1 = e)) = true → (t.slot g).written = (s.slot g).written ||| BitVec.ofNat 4 (2 ^ e) ∧
         (∀ k l, (s.slot g).wait = some (.monitor k l) → (t.slot g).state = .ready)) ∧
       (((s.slot g).monitors.any (fun m => m.1 = e)) = false → t.slot g = s.slot g))

/-- R198: PHASE.REL publishes at its scope, PHASE.ACQ refreshes, PHASE does both in that order, and the slot goes on. R206-R208: BARCFG with a legal
rectangle that holds the core configures the context afresh; BARARR and BARDROP publish once and count one arrival for this phase or the next, or
wait, published, while both are full; BARWAIT with no recorded phase goes on, and with a released one refreshes and goes on; ERR traps it, but not one that waits
already (the model's reading, DEDUCED, log 53). -/
def Obligations.PhaseAndBarrierResults : Prop :=
  (∀ (s s1 s2 : State) (scope half : BitVec 2) (u : Unit), Issued (.phase scope half) s [] s1 →
     (half = 1#2 → publish s1 (scopeOf scope) = .go u s2 → exec (.phase scope half) s = .next (advance s2 4)) ∧
     (half = 2#2 → exec (.phase scope half) s = .next (advance (refresh s1 (scopeOf scope)) 4)) ∧
     (half = 3#2 → publish s1 (scopeOf scope) = .go u s2 → exec (.phase scope half) s = .next (advance (refresh s2 (scopeOf scope)) 4))) ∧
  (∀ (s s1 s2 : State) (a b : RegField) (ctx : BitVec 2) (x y : Word) (u : Unit) (ph : Nat),
     let k := s1.barrier s1.curCore ctx.toNat
     let arrived := fun (isDrop : Bool) => barAdvance ((s2.setBarrier s2.curCore ctx.toNat (arrive k isDrop)).modMe
       (fun t => { t with recorded := put ctx.toNat (some ph) t.recorded }))
     let blocked := s1.mine.wait = some (.arrival ctx.toNat)
     let done := (¬ blocked ∧ publish s1 .dev = .go u s2) ∨ (blocked ∧ s2 = s1)
     (Issued (.bararr ctx) s [] s1 → k.configured = true → done → arrivalPhase k = none →
       exec (.bararr ctx) s = .next (waitSlot s2 s2.me (.arrival ctx.toNat))) ∧
     (Issued (.bararr ctx) s [] s1 → k.configured = true → done → arrivalPhase k = some ph →
       exec (.bararr ctx) s = .next (advance (arrived false s2.curCore ctx.toNat) 4)) ∧
     (Issued (.bardrop ctx) s [] s1 → k.configured = true → k.expectedLater ≠ 0 → done → arrivalPhase k = some ph →
       exec (.bardrop ctx) s = .next (advance (arrived true s2.curCore ctx.toNat) 4)) ∧
     (Issued (.barwait ctx) s [] s1 → k.err = true → s1.mine.wait ≠ some (.barrier ctx.toNat) →
       exec (.barwait ctx) s = .next (trap s1 .barrier (wd ctx.toNat))) ∧
     (Issued (.barwait ctx) s [] s1 → k.configured = true → (k.err = false ∨ s1.mine.wait = some (.barrier ctx.toNat)) →
       (s1.mine.recorded = [] → exec (.barwait ctx) s = .next (advance s1 4)) ∧
       (s1.mine.recorded = [(ctx.toNat, some ph)] → ph < k.phase → exec (.barwait ctx) s = .next (advance (refresh s1 .dev) 4)) ∧
       (s1.mine.recorded = [(ctx.toNat, some ph)] → k.phase ≤ ph → exec (.barwait ctx) s = .next (waitSlot s1 s1.me (.barrier ctx.toNat)))) ∧
     (Issued (.barcfg a b ctx) s [x, y] s1 → barLegal x.toNat = true → barInside x.toNat s1.curCore = true → 1 ≤ y.toNat → y.toNat ≤ 16 →
       barWaiters s1 s1.curCore ctx.toNat = [] →
       ∃ t, exec (.barcfg a b ctx) s = .next t ∧ t.barrier s1.curCore ctx.toNat =
         { configured := true, desc := x.toNat, expected := y.toNat, expectedNext := y.toNat, expectedLater := y.toNat }))

/-- R102, R202, R207, R208, R406: the acknowledgements of the peer stores made before a publish let its slot go on; a MONWAIT whose timeout has elapsed is ready; a barrier signal is
noted and passed on, or gives ERR, one of another partition's core (R406) among them; a release steps the context's phase, wakes its waiters, and goes on north and west. -/
def Obligations.SynchronisationEvents : Prop :=
  ∀ (s : State) (g start limit c b d : Nat) (north : Bool), g < 32768 → c < 2048 → b < 4 →
    let k := s.barrier c b
    let east := colOf c = barCol0 d + barCols d
    ((s.slot g).wait = some .publish → ∃ u, exec (.publishComplete g) s = .next u ∧ (u.slot g).state = .ready ∧ u.mem = s.mem ∧ OthersSame s u g ∧
      ∀ e, e ∈ (u.core (coreOf g)).peerOut ↔ e ∈ (s.core (coreOf g)).peerOut ∧ (s.slot g).awaits.getD s.nextId ≤ e.1) ∧
    ((s.slot g).wait = some (.monitor start limit) → limit ≤ s.waited (s.slot g) →
      exec (.monwaitTimeout g) s = .next (s.modSlot g (fun t => { t with state := .ready }))) ∧
    (k.configured = true → k.desc = d → s.partOf (if north then c - 32 else c - 1) = s.partOf c →
      exec (.barrierSignal c b north d) s = .next (barAdvance (s.setBarrier c b
        { k with fromNorth := k.fromNorth || north, fromWest := k.fromWest || !north }) c b)) ∧
    ((k.configured = false ∨ k.desc ≠ d ∨ s.partOf (if north then c - 32 else c - 1) ≠ s.partOf c) →
      exec (.barrierSignal c b north d) s = .next (s.setBarrier c b { k with err := true })) ∧
    (k.configured = true → k.desc = d → ∃ u, exec (.barrierRelease c b d) s = .next u ∧ (u.barrier c b).phase = k.phase + 1 ∧
      (u.barrier c b).now = k.next ∧ (u.barrier c b).next = 0 ∧ (u.barrier c b).expected = k.expectedNext ∧
      (u.barrier c b).expectedNext = k.expectedLater ∧ (∀ h ∈ barWaiters s c b, (u.slot h).state = .ready) ∧
      (barCol0 d < colOf c → Event.barrierRelease (c - 1) b d ∈ u.pending) ∧
      (east → barRow0 d < rowOf c → Event.barrierRelease (c - 32) b d ∈ u.pending)) ∧
    ((k.configured = false ∨ k.desc ≠ d) → exec (.barrierRelease c b d) s = .next (s.setBarrier c b { k with err := true })) ∧
    (k.sent = false → k.desc = d → k.expected ≤ k.now → (colOf c = barCol0 d ∨ k.fromWest = true) →
      (¬ east → Event.barrierSignal (c + 1) b false d ∈ (barAdvance s c b).pending) ∧
      (east → (rowOf c = barRow0 d ∨ k.fromNorth = true) →
        (rowOf c ≠ barRow0 d + barRows d → Event.barrierSignal (c + 32) b true d ∈ (barAdvance s c b).pending) ∧
        (rowOf c = barRow0 d + barRows d → Event.barrierRelease c b d ∈ (barAdvance s c b).pending)))

/-- R213-R216: SPAWN publishes, then answers OK with the CR in its target queue, or FULL, NOFEATURE or ANNULLED with no queue changed; SPAWN.W is the
same while its level has room. R370, R373, R374: a CR enters its level behind the others while the level has room and its ring is empty; with both
full it is refused; and a CR that goes to a FIFO level's ring is written to the place behind its last in HBM (R372), stands at its end, and counts as
parked. -/
def Obligations.SpawnAndQueues : Prop :=
  (∀ (s s1 s2 s4 s5 : State) (rd a b : RegField) (x y : Word) (q t : Nat) (w : List Word) (u : Unit),
     let cr := recordCr s2 w t
     let ready := fun (i : Instr) => Issued i s [x, y] s1 ∧ targetQueue s1 y = some q ∧ readCr s1 x = .go w s2 ∧ fld (w.getD 2 0) 29 3 = 0 ∧
       spawnTag s2 (fld (w.getD 2 0) 0 18) = some t ∧ publish s2 .dev = .go u s4
     (ready (.spawn rd a b) → s4.liveTag t = false → Answers (.spawn rd a b) s s1 s4 rd 3) ∧
     (ready (.spawn rd a b) → s4.liveTag t = true → scopeReaches s4 q cr.feat = false → Answers (.spawn rd a b) s s1 s4 rd 2) ∧
     (ready (.spawn rd a b) → s4.liveTag t = true → scopeReaches s4 q cr.feat = true → enqueue s4 q cr = none →
       Answers (.spawn rd a b) s s1 s4 rd 1) ∧
     (ready (.spawn rd a b) → s4.liveTag t = true → scopeReaches s4 q cr.feat = true → enqueue s4 q cr = some s5 →
       Answers (.spawn rd a b) s s1 s5 rd 0) ∧
     (ready (.spawnW rd a b) → s4.liveTag t = true → scopeReaches s4 q cr.feat = true → wouldRing s2 q (cr.prio % 4) = false →
       wouldRing s4 q (cr.prio % 4) = false → enqueue s4 q cr = some s5 → Answers (.spawnW rd a b) s s1 s5 rd 0) ∧
     (t = s2.mine.rtag → cr.rtag = t ∧ cr.instant = s2.instantOf t ∧ cr.prio = max (s2.classOf t) (fld (w.getD 2 0) 18 2) ∧ cr.x = (w.drop 3).take 5)) ∧
  (∀ (s : State) (q : Nat) (cr : CR), routeQueue s q = q →
     let v := s.level q (cr.prio % 4)
     (v.entries.length < qCapacity q → v.ring = [] →
       enqueue s q cr = some (s.setLevel q (cr.prio % 4) { v with entries := v.entries ++ [cr] })) ∧
     (qCapacity q ≤ v.entries.length → ringCap s q (cr.prio % 4) ≤ v.ring.length → enqueue s q cr = none) ∧
     (qCapacity q ≤ v.entries.length → v.ring.length < ringCap s q (cr.prio % 4) → isEdf s q (cr.prio % 4) = false →
       let u := ringAdd s q (cr.prio % 4) false cr
       let i := ringPlace s q (cr.prio % 4)
       enqueue s q cr = some (parkedUp u cr.rtag) ∧ u.level q (cr.prio % 4) = { v with ring := v.ring ++ [i] } ∧
         u.mem.readN (ringPa s q (cr.prio % 4) i) 64 = crBytes cr))

/-- R217, R218, R39, R103: DONE publishes its core's lines, so that none is left and the bytes of their stores are in memory, and frees the slot, all of whose
state is then discarded; YIELD with no work of its class waiting only goes on,
and with work and room enqueues the rest of the task in its home queue and frees the slot. R219, R220, R39: SUSPEND writes the CR of the next
instruction with bit 0 of word 0 set, counts it parked and frees the slot, and traps MEMERR for a marked register among x1-x5 before it checks its
access (log 68); WAKE of a word whose bit 0 is clear answers 4 with nothing changed, and of
a parked CR of a live request clears the bit and enqueues it, answering 0. -/
def Obligations.TaskEndsAndSuspends : Prop :=
  (∀ (s s1 s3 s4 : State) (u : Unit),
     (Issued .doneTask s [] s1 → publish s1 .dev = .go u s3 →
       exec .doneTask s = .next (leaveSlot s3 s3.me) ∧ (leaveSlot s3 s3.me).slot s1.me = {} ∧ s3 = publishLines s1 s1.curCore ∧ s3.here.lines = [] ∧
       (∀ l f a b, s1.here.lines = [l] → l.line = lineNo a → l.fills = [(sectorNo a, f)] → l.leaf = 0 → l.cells.find? (fun c => c.1 = a) = some (a, b) →
         s3.mem.read a = b)) ∧
     (Issued .yield s [] s1 → workWaits s1 s1.curCore s1.mine.prio = false → exec .yield s = .next (advance s1 4)) ∧
     (Issued .yield s [] s1 → workWaits s1 s1.curCore s1.mine.prio = true → hasRoom s1 (homeQueue s1 s1.me) (s1.mine.prio % 4) = true →
       markedCarry s1.mine = none → publish s1 .dev = .go u s3 →
       enqueue s3 (homeQueue s1 s1.me) (suspensionCr s3 s3.me (s1.mine.pc + 4)) = some s4 →
       exec .yield s = .next (leaveSlot s4 s4.me) ∧ (leaveSlot s4 s4.me).slot s4.me = {})) ∧
  (∀ (s s1 s2 s3 s4 s6 : State) (rd a b : RegField) (x y : Word) (ps : List Place) (q loc : Nat) (u v : Unit) (cr : CR),
     let saved := fun (s4 : State) => { suspensionCr s4 s4.me (s4.mine.pc + 4) with pc := (s4.mine.pc + 4) ||| 1#64 }
     let held := fun (s2 : State) => holdAccess s2 (ps.map (fun p => (p, 8))) true = .go v s3
     let s5 := atomicPrep s4 s4.curCore (placeOf ps)
     let w := ps.map (fun p => read64 s5.mem p.loc)
     let r := crOf w
     let cleared := unpark (atomicWrite s5 s5.curCore (placeOf ps) s5.me ((w.getD 0 0).toNat - 1) 8) r.rtag
     let found := Issued (.wake rd a b) s [x, y] s1 ∧ targetQueue s1 y = some q ∧ checkAccess s1 (crElems x) .atomic false = .go ps s2 ∧
       ps.all parkable = true ∧ held s2 ∧ lineCapped s3 (placeOf ps) = false ∧ publish s3 .dev = .go u s4 ∧ annulKnown s4 s4.mine.rtag (placeDie s4.curCore (placeOf ps)) = false
     (Issued (.suspend a) s [x] s1 → markedCarry s1.mine = none → checkAccess s1 (crElems x) .store false = .go ps s2 → ps.all parkable = true →
       held s2 → publish s3 .dev = .go u s4 →
       exec (.suspend a) s = .next (leaveSlot (parkedUp (writeCr s4 ps (crWords (saved s4))) s4.mine.rtag) s4.me)) ∧
     (∀ m, Issued (.suspend a) s [x] s1 → markedCarry s1.mine = some m → exec (.suspend a) s = .next (trap s1 .memerr m)) ∧
     (writeCr s ((List.range 8).map (fun i => .sram (loc + 8 * i))) (crWords cr)).mem.readN loc 64 = crBytes cr ∧
     (found → bit (w.getD 0 0) 0 = false → Answers (.wake rd a b) s s1 s5 rd 4) ∧
     (found → bit (w.getD 0 0) 0 = true → (r.rtag ≠ 0 ∨ s5.mine.rtag = 0) → s5.liveTag r.rtag = true → scopeReaches s5 q r.feat = true →
       enqueue cleared q { r with pc := wd ((w.getD 0 0).toNat - 1), instant := s5.instantOf r.rtag, prio := max (s5.classOf r.rtag) r.prio } = some s6 →
       Answers (.wake rd a b) s s1 s6 rd 0))

/-- R221, R29: RFORK gives a new live child on the core's die whose instant is the earlier of its parent's and rs1, and whose class is no higher than
its parent's; a spent quota or pool, or an instant already past, which all ones never is (R24), gives 0. RFORK.SH gives a shared child held by the forker; a shared
parent, a full held list, or a spent quota or pool gives 0, and RTAG 0 traps PERM. R222: RHOLD and RDROP by their statuses: 3 where the slot's request cannot hold, 2
for a request that is not a live shared one of the partition, 1 where no place is empty or the hold does not exist, 0 with the hold taken or dropped, in the model's
order (log 69); no hold is taken for a request that has left LIVE (R28). R223, R224: RCANCEL and RRETIRE of an allowed request answer its
old state and take a live one out of LIVE, annulled or retired; of the slot's own request they end the slot, the instruction over (R65). RSTAT answers the word of the request that is
asked for (instant, state word, held pairs, parked count; of a count of holds its 16 bits, log 58), the constants of RTAG 0, or 0, of a request of another partition
too. -/
def Obligations.RequestResults : Prop :=
  (∀ (s s1 s2 : State) (rd a b : RegField) (x y : Word) (t i : Nat),
     let r := s1.mine.rtag
     let d := dieOf s1.curCore
     let ins := if (s1.instantOf r).toNat ≤ x.toNat then s1.instantOf r else x
     let child : Req := { state := .live, instant := ins, cls := max (s1.classOf r) (fld y 0 2), parent := r, part := s1.partOf s1.curCore }
     let shared : Req := { state := .live, instant := BitVec.allOnes 64, cls := fld y 0 2, parent := r, shared := true, holds := 1, part := s1.partOf s1.curCore }
     (Issued (.rfork rd a b) s [x, y] s1 → annulKnown s1 r d = false →
       (ins ≠ BitVec.allOnes 64 → ins.toNat ≤ s1.time → Answers (.rfork rd a b) s s1 s1 rd 0) ∧
       ((ins = BitVec.allOnes 64 ∨ s1.time < ins.toNat) → allocate s1 d child = some (t, s2) →
         Answers (.rfork rd a b) s s1 s2 rd (wd t) ∧ s2.req t = child) ∧
       ((ins = BitVec.allOnes 64 ∨ s1.time < ins.toNat) → allocate s1 d child = none → Answers (.rfork rd a b) s s1 s1 rd 0)) ∧
     (Issued (.rforkSh rd b) s [y] s1 → r ≠ 0 → annulKnown s1 r d = false →
       ((s1.req r).shared = true → Answers (.rforkSh rd b) s s1 s1 rd 0) ∧
       (heldPlace (s1.req r) = none → Answers (.rforkSh rd b) s s1 s1 rd 0) ∧
       ((s1.req r).shared = false → allocate s1 d shared = none → Answers (.rforkSh rd b) s s1 s1 rd 0) ∧
       ((s1.req r).shared = false → heldPlace (s1.req r) = some i → allocate s1 d shared = some (t, s2) →
         Answers (.rforkSh rd b) s s1 (s2.setReq r { s2.req r with held := (s2.req r).held.set i t }) rd (wd t))) ∧
     (Issued (.rforkSh rd b) s [y] s1 → r = 0 → exec (.rforkSh rd b) s = .next (trap s1 .perm 0)) ∧
     (allocate s1 d child = some (t, s2) → nextTag s1 d = some t ∧ quotaSpent s1 child.part = false)) ∧
  (∀ (s s1 : State) (rd a : RegField) (x : Word),
     let r := s1.mine.rtag
     let h := fld x 0 18
     let q := s1.req h
     (Issued (.rhold rd a) s [x] s1 → r ≠ 0 → annulKnown s1 r (h / 65536) = false → s1.liveTag r = false →
       exec (.rhold rd a) s = .next (waitSlot s1 s1.me .turn)) ∧
     (Issued (.rhold rd a) s [x] s1 → annulKnown s1 r (h / 65536) = false → (r ≠ 0 → s1.liveTag r = true) →
       ((r = 0 ∨ (s1.req r).shared = true) → Answers (.rhold rd a) s s1 s1 rd 3) ∧
       (r ≠ 0 → (s1.req r).shared = false →
         ((q.state ≠ .live ∨ q.shared = false ∨ q.part ≠ s1.partOf s1.curCore) → Answers (.rhold rd a) s s1 s1 rd 2) ∧
         (q.state = .live → q.shared = true → q.part = s1.partOf s1.curCore →
           (h ∈ (s1.req r).held → Answers (.rhold rd a) s s1 s1 rd 0) ∧
           (h ∉ (s1.req r).held → heldPlace (s1.req r) = none → Answers (.rhold rd a) s s1 s1 rd 1) ∧
           (h ∉ (s1.req r).held → ∀ i, heldPlace (s1.req r) = some i → (s1.req r).held.length = 4 →
             ∃ s2, Answers (.rhold rd a) s s1 s2 rd 0 ∧ h ∈ (s2.req r).held ∧ (s2.req h).holds = q.holds + 1)))) ∧
     (Issued (.rdrop rd a) s [x] s1 → annulKnown s1 r (h / 65536) = false →
       (r = 0 → Answers (.rdrop rd a) s s1 s1 rd 3) ∧
       (r ≠ 0 → (h = 0 ∨ h ∉ (s1.req r).held) → Answers (.rdrop rd a) s s1 s1 rd 1) ∧
       (r ≠ 0 → h ≠ 0 → h ∈ (s1.req r).held → Answers (.rdrop rd a) s s1 (endHold s1 r h) rd 0 ∧
         (2 ≤ q.holds → h ≠ r → h ∉ ((endHold s1 r h).req r).held ∧ ((endHold s1 r h).req h).holds = q.holds - 1)))) ∧
  (∀ (s s1 : State) (rd a b : RegField) (x y : Word),
     let t := fld x 0 18
     let ends := fun (i : Instr) (why : Nat) (goal : ReqState) => Issued i s [x] s1 → t ≠ 0 → tagAllowed s1 s1.me t = true →
       annulKnown s1 s1.mine.rtag (t / 65536) = false →
       (t ≠ s1.mine.rtag → (s1.req t).state = .live → Answers i s s1 (leave s1 t why goal) rd 1) ∧
       (t ≠ s1.mine.rtag → (s1.req t).state ≠ .live → Answers i s s1 s1 rd (wd (stateCode (s1.req t).state))) ∧
       (t = s1.mine.rtag → (s1.req t).state = .live → let u := leave s1 t why goal
         exec i s = .next (endSlot (passOver u u.me) u.me true) ∧ (endSlot (passOver u u.me) u.me true).slot u.me = {} ∧
         ((passOver u u.me).slot u.me).pc = (u.slot u.me).pc + 4)
     ends (.rcancel rd a) 1 .annulled ∧ ends (.rretire rd a) 2 .retired ∧
     (Issued (.rstat rd a b) s [x, y] s1 → annulKnown s1 s1.mine.rtag (if t = 0 then dieOf s1.curCore else t / 65536) = false →
       let q := s1.req t
       let w := fld y 0 3
       let reads := fun (v : Word) => Answers (.rstat rd a b) s s1 s1 rd v
       (t = 0 → (w = 0 → reads (BitVec.allOnes 64)) ∧ (w = 1 → reads (wd (2 ^ 20))) ∧ (2 ≤ w → reads 0)) ∧
       (t ≠ 0 → (q.state = .free ∨ q.part ≠ s1.partOf s1.curCore) → reads 0) ∧
       (t ≠ 0 → q.state ≠ .free → q.part = s1.partOf s1.curCore →
         (w = 0 → reads q.instant) ∧
         (w = 1 → reads (wd (q.holds % 65536 * 2 ^ 23 + b2n q.shared * 2 ^ 22 + stateCode q.state * 2 ^ 20 + q.cls % 4 * 2 ^ 18 + q.parent % 2 ^ 18))) ∧
         (w = 2 → reads (wd (q.held.getD 0 0 + q.held.getD 1 0 * 2 ^ 32))) ∧ (w = 3 → reads (wd (q.held.getD 2 0 + q.held.getD 3 0 * 2 ^ 32))) ∧
         (w = 4 → reads (wd q.parked)) ∧ (5 ≤ w → reads 0))) ∧
     (∀ (r why : Nat) (goal : ReqState), r ≠ 0 → (s.req r).state = .live → goal ≠ .live → (s.req r).held = [0, 0, 0, 0] →
       s.reqs.all (fun q => q.2.parent != r) = true → ((leave s r why goal).req r).state = goal ∧ ((leave s r why goal).req r).why = why))

/-- R225-R227: MSEND puts a message with the slot's request in the interface, one for a peer too, which it sets out to unless another to the same class is
ahead of it, and goes on, or waits while eight are there; over a link that is down it is lost and counted (R422). MRECV takes the oldest
message of a class bound to the slot into five registers, or waits; MBIND answers 2 for bad operands, 1 for a class bound to another slot, bound with messages
queued, or bound to a Hatch, 0 with the class in its new mode: OFF, BOUND to the slot, or POOL with its handler (of a request both bad and busy 2 is the model's
choice, here and for HBIND, log 69). R234, R235: HBIND answers 2 for an invalid request, 1 for a busy Hatch or class (busy too while a waiting instruction holds
what it popped there, the model's choice, log 33), else binds the Hatch, empty, and answers 0; HSTAT answers the binding and counts of a Hatch, or 2^64 - 1 for a number above 15. -/
def Obligations.MessagesAndHatches : Prop :=
  (∀ (s s1 : State) (rd a b : RegField) (n : BitVec 2) (x y : Word) (ws : List Word) (m : Msg) (l : List Msg),
     let sent : Msg := { rtag := s1.mine.rtag, words := ws, remote := bit x 14, peer := 0, score := s1.curCore, sslot := s1.curSlot }
     let k := s1.msgClass s1.curCore x.toNat
     let c := s1.msgClass s1.curCore (fld x 0 3)
     (Issued (.msend a b n) s (x :: ws) s1 → destOk s1 x = true →
       (8 ≤ s1.here.ni.length → exec (.msend a b n) s = .next (waitSlot s1 s1.me .interface)) ∧
       (s1.here.ni.length < 8 → bit x 14 = false →
         exec (.msend a b n) s = .next (advance (sendMessage s1 s1.curCore none (fld x 3 11) (fld x 0 3) sent) 4)) ∧
       (s1.here.ni.length < 8 → bit x 14 = true → portDown s1 (fld (s1.reg (peerrouteAddr (fld x 15 6))) 0 4) = true →
         exec (.msend a b n) s = .next (advance (countDropped s1) 4)) ∧
       (s1.here.ni.length < 8 → bit x 14 = true → portDown s1 (fld (s1.reg (peerrouteAddr (fld x 15 6))) 0 4) = false →
         ∃ t, exec (.msend a b n) s = .next t ∧ t.mine.pc = s1.mine.pc + 4 ∧
           t.here.ni = s1.here.ni ++ [{ dest := fld x 3 11, cls := fld x 0 3, msg := sent, peer := some (fld x 15 6), num := s1.nextId }] ∧
           ((∀ m ∈ s1.here.ni, m.goal ≠ (some (fld x 15 6), fld x 3 11, fld x 0 3)) → t.outbox.length = s1.outbox.length + 1))) ∧
     (Issued (.mrecv rd a) s [x] s1 → x.toNat < 8 → k.mode = .bound → k.slot = s1.curSlot → k.hatch = none →
       (k.queue = [] → exec (.mrecv rd a) s = .next (waitSlot s1 s1.me .message)) ∧
       (k.queue = m :: l → ∃ t, exec (.mrecv rd a) s = .next t ∧ t.msgClass s1.curCore x.toNat = { k with queue := l } ∧
         t.mine.pc = s1.mine.pc + 4 ∧ (rd.toNat ≠ 0 → (∀ i, i < 4 → t.mine.xr (rd.toNat + i) = m.words.getD i 0) ∧ t.mine.xr (rd.toNat + 4) = msgHeader m))) ∧
     (Issued (.mbind rd a b) s [x, y] s1 →
       let bad := fld x 4 2 = 3 ∨ bit x 3 = true ∨ 64 ≤ x.toNat ∨ (fld x 4 2 ≤ 1 ∧ y ≠ 0)
       let busy := c.mode = .bound ∧ (c.slot ≠ s1.curSlot ∨ c.queue ≠ [] ∨ c.hatch ≠ none)
       let becomes := fun (z : MsgClass) => Answers (.mbind rd a b) s s1 (s1.setClass s1.curCore (fld x 0 3) z) rd 0
       (bad → Answers (.mbind rd a b) s s1 s1 rd 2) ∧
       (¬ bad → busy → Answers (.mbind rd a b) s s1 s1 rd 1) ∧
       (¬ bad → ¬ busy → (fld x 4 2 = 0 → becomes { trp := c.trp }) ∧ (fld x 4 2 = 1 → becomes { mode := .bound, slot := s1.curSlot, trp := c.trp }) ∧
         (fld x 4 2 = 2 → becomes { mode := .pool, handler := y &&& ~~~1, trp := c.trp })))) ∧
  (∀ (s s1 : State) (rd a b : RegField) (x y : Word),
     let h := fld x 0 4
     (Issued (.hbind rd a b) s [x, y] s1 →
       (bindInvalid s1.curSlot x y = true → Answers (.hbind rd a b) s s1 s1 rd 2) ∧
       (bindInvalid s1.curSlot x y = false → bindBusy s1 x y = true → Answers (.hbind rd a b) s s1 s1 rd 1) ∧
       (bindInvalid s1.curSlot x y = false → bindBusy s1 x y = false →
         ∃ s2, Answers (.hbind rd a b) s s1 s2 rd 0 ∧ (s2.hatch s1.curCore h).kind = fld x 4 3 ∧ (s2.hatch s1.curCore h).count = 0 ∧
           (∀ k, k ≠ h → s2.hatch s1.curCore k = s1.hatch s1.curCore k) ∧
           (2 ≤ fld x 4 3 → (s2.hatch s1.curCore h).slotA = s1.curSlot))) ∧
     (Issued (.hstat rd a) s [x] s1 →
       (16 ≤ x.toNat → Answers (.hstat rd a) s s1 s1 rd (wd (2 ^ 64 - 1))) ∧
       (x.toNat < 16 → Answers (.hstat rd a) s s1 s1 rd (hatchStat (s1.hatch s1.curCore x.toNat)))))

/-- R228-R233: the Larder where its set can be reached, and for what concerns waiters its pool. CLAIM of a READY name answers 0 and its handle after a refresh; of a
new name with a place answers 1 and makes the slot's request its maker; of a MAKING name joins its waiters, its task suspended, while the pool has a place. FULFIL
by the maker makes the entry READY with rs2, resumes every waiter with it and answers 0; ABANDON by the maker hands over to the first live waiter, or frees the entry;
LPIN and LUNPIN count; LINVAL frees an unpinned READY name, and a MAKING one, whose waiters resume with GONE. With no such entry they answer 1, and FULFIL so of an
entry that is not the request's to make. A waiter resumes with its code and value in its pair, in the queue it came from. -/
def Obligations.LarderResults : Prop :=
  ∀ (s s1 : State) (rd a b : RegField) (x y z : Word) (e : LarderEntry) (l : Larder) (u : Unit) (s2 : State),
    let name := pairName x y
    let p := s1.partOf s1.curCore
    let n := larderLog2 s1 p
    let there := n ≠ 0 ∧ (setPa s1 p (larderSet name n)).isSome = true ∧ annulKnown s1 s1.mine.rtag (larderDie s1 p name) = false ∧
      capReached s1 (clusterOf s1.curCore) = false
    let room := e.waiters = [] ∨ poolReached s1 p = true
    let pair := fun (s : State) (c : Nat) (h : Word) => s.modMe (fun t => (t.setX rd.toNat (wd c)).setX (rd.toNat + 1) h)
    let mine := findEntry (s1.larder p) name = some e ∧ e.state = .making ∧ e.maker = s1.mine.rtag
    let ready := findEntry (s1.larder p) name = some e ∧ e.state = .ready
    let making := findEntry (s1.larder p) name = some e ∧ e.state = .making
    let waiter := (suspensionCr s2 s2.me (s2.mine.pc + 4), rd.toNat, homeQueue s2 s2.me)
    (Issued (.claim rd a) s [x, y] s1 → there →
      (ready → exec (.claim rd a) s = .next (refresh (advance (pair (s1.setLarder p (useEntry (s1.larder p) e)) 0 e.handle) 4) .dev)) ∧
      (findEntry (s1.larder p) name = none → claimPlace (s1.larder p) name n = some l → exec (.claim rd a) s =
        .next (advance (pair (s1.setLarder p { l with entries := l.entries ++
          [{ name := name, state := .making, maker := s1.mine.rtag, handle := 0, pins := 0, waiters := [] }] }) 1 0) 4)) ∧
      (findEntry (s1.larder p) name = none → claimPlace (s1.larder p) name n = none →
        exec (.claim rd a) s = .next (advance (pair s1 3 0) 4)) ∧
      (making → poolReached s1 p = true →
        (waitersHeld (s1.larder p) < waiterCap s1 p → markedCarry s1.mine = none → publish s1 .dev = .go u s2 → exec (.claim rd a) s = .next
          (leaveSlot (s2.setLarder p (modEntry (s2.larder p) e.name (fun e => { e with waiters := e.waiters ++ [waiter] }))) s2.me)) ∧
        (waiterCap s1 p ≤ waitersHeld (s1.larder p) → exec (.claim rd a) s = .next (advance (pair s1 3 0) 4)))) ∧
    (∀ t cr slot code q, t.liveTag (answered cr slot code z).rtag = true → (t.larder p).stalled = [] → enqueue t q (answered cr slot code z) = some s2 →
      resumeAll t p [(cr, slot, q)] code z = s2) ∧
    (∀ cr slot code, cr.x.length = 5 → 1 ≤ slot → slot ≤ 4 → (answered cr slot code z).x.getD (slot - 1) 0 = wd code ∧ (answered cr slot code z).x.getD slot 0 = z) ∧
    (Issued (.claim rd a) s [x, y] s1 → n = 0 → exec (.claim rd a) s = .next (advance (pair s1 4 0) 4)) ∧
    (Issued (.fulfil rd a b) s [x, y, z] s1 → n ≠ 0 → (setPa s1 p (larderSet name n)).isSome = true → capReached s1 (clusterOf s1.curCore) = false →
      publish s1 .dev = .go u s2 → annulKnown s2 s2.mine.rtag (larderDie s2 p name) = false →
      (mine → room → Answers (.fulfil rd a b) s s1
        (resumeAll (s2.setLarder p (useEntry (s2.larder p) { e with state := .ready, handle := z, waiters := [] })) p e.waiters 0 z) rd 0) ∧
      ((findEntry (s1.larder p) name = none ∨ (findEntry (s1.larder p) name = some e ∧ (e.state ≠ .making ∨ e.maker ≠ s1.mine.rtag))) →
        Answers (.fulfil rd a b) s s1 s2 rd 1)) ∧
    (Issued (.abandon rd a) s [x, y] s1 → there →
      (mine → e.waiters = [] → Answers (.abandon rd a) s s1 (s1.setLarder p (dropEntry (s1.larder p) e.name)) rd 0) ∧
      (mine → room → Answers (.abandon rd a) s s1 (handover s1 p e) rd 0) ∧
      (findEntry (s1.larder p) name = none → Answers (.abandon rd a) s s1 s1 rd 1)) ∧
    (∀ t w ws, e.waiters = w :: ws → t.liveTag w.1.rtag = true →
      handover t p e = resumeWaiter (t.setLarder p (modEntry (t.larder p) e.name (fun e => { e with maker := w.1.rtag, waiters := ws }))) p w 2 0) ∧
    (Issued (.lpin rd a) s [x, y] s1 → there →
      (ready → room → e.pins < 65535 → Answers (.lpin rd a) s s1 (setPins s1 name (e.pins + 1)) rd 0) ∧
      (ready → room → e.pins = 65535 → Answers (.lpin rd a) s s1 s1 rd 2) ∧
      (findEntry (s1.larder p) name = none → Answers (.lpin rd a) s s1 s1 rd 1)) ∧
    (Issued (.lunpin rd a) s [x, y] s1 → there →
      (ready → room → e.pins ≠ 0 → Answers (.lunpin rd a) s s1 (setPins s1 name (e.pins - 1)) rd 0) ∧
      (ready → room → e.pins = 0 → Answers (.lunpin rd a) s s1 s1 rd 1) ∧
      ((findEntry (s1.larder p) name = none ∨ (making ∧ room)) → Answers (.lunpin rd a) s s1 s1 rd 1)) ∧
    (Issued (.linval rd a) s [x, y] s1 → there →
      (ready → room → e.pins = 0 → Answers (.linval rd a) s s1 (s1.setLarder p (dropEntry (s1.larder p) name)) rd 0) ∧
      (ready → room → e.pins ≠ 0 → Answers (.linval rd a) s s1 s1 rd 2) ∧
      (making → room → Answers (.linval rd a) s s1 (resumeAll (s1.setLarder p (dropEntry (s1.larder p) e.name)) p e.waiters 4 0) rd 0) ∧
      (findEntry (s1.larder p) name = none → Answers (.linval rd a) s s1 s1 rd 1))

/-- R244, R240: the integer, bitwise and move instructions on vectors: each active element gets its result of w bits, every other element stands. -/
def Obligations.VectorIntegerResults : Prop :=
  ∀ (s s1 : State) (vd vs1 vs2 : BitVec 5) (mk et : BitVec 3),
    let w := etWidth et.toNat
    let i := fun (u : Nat) => (BitVec.ofNat w u).toInt
    let two := fun (j : Instr) (f : Nat → Nat → Nat) =>
      Issued j s [] s1 → VectorDone j s s1 [vs1.toNat, vs2.toNat] vd.toNat vs1.toNat vs2.toNat mk.toNat et.toNat 4 (fun a b _ => f a b)
    let one := fun (j : Instr) (f : Nat → Nat) =>
      Issued j s [] s1 → VectorDone j s s1 [vs2.toNat] vd.toNat vs1.toNat vs2.toNat mk.toNat et.toNat 4 (fun _ b _ => f b)
    two (.vadd vd vs1 vs2 mk et) (fun a b => a + b) ∧ two (.vsub vd vs1 vs2 mk et) (fun a b => a + 2 ^ w - b) ∧
    two (.vmul vd vs1 vs2 mk et) (fun a b => a * b) ∧
    two (.vmin vd vs1 vs2 mk et) (fun a b => if et.toNat < 5 then
      (if etSigned et.toNat then (if i a ≤ i b then a else b) else min a b) else (minmaxF (etFmt et.toNat) false a b).1) ∧
    two (.vmax vd vs1 vs2 mk et) (fun a b => if et.toNat < 5 then
      (if etSigned et.toNat then (if i a ≤ i b then b else a) else max a b) else (minmaxF (etFmt et.toNat) true a b).1) ∧
    one (.vabs vd vs2 mk et) (fun b => if et.toNat < 5 then (if etSigned et.toNat then (i b).natAbs else b) else b % 2 ^ (w - 1)) ∧
    one (.vneg vd vs2 mk et) (fun b => if et.toNat < 5 then 2 ^ w - b else b ^^^ 2 ^ (w - 1)) ∧
    two (.vand vd vs1 vs2 mk et) (fun a b => a &&& b) ∧ two (.vor vd vs1 vs2 mk et) (fun a b => a ||| b) ∧
    two (.vxor vd vs1 vs2 mk et) (fun a b => a ^^^ b) ∧ one (.vnot vd vs2 mk et) (fun b => 2 ^ w - 1 - b) ∧
    two (.vshl vd vs1 vs2 mk et) (fun a b => a * 2 ^ (b % w)) ∧ two (.vshr vd vs1 vs2 mk et) (fun a b => a / 2 ^ (b % w)) ∧
    two (.vsra vd vs1 vs2 mk et) (fun a b => (i a / 2 ^ (b % w) % 2 ^ w).toNat) ∧ one (.vmov vd vs2 mk et) (fun b => b)

/-- R246, R240, R120, R121: the float instructions give each active element the exact result rounded once under RM, and the special functions theirs.
VFLAGS gathers the flags of every active element of a float form and of a 16-bit one, and no such form loses a flag, whether it completes, waits or traps. R143,
R155: a 16-bit form is its 32-bit equivalent with the element type in VTYPE, no mask, and vd as first source of a binary form; it is 2 bytes long. R120, R121:
an inexact sum raises NX, an overflow OF and NX, an invalid difference NV, and the reciprocal of zero DZ. -/
def Obligations.VectorFloatResults : Prop :=
  (∀ (s s1 : State) (vd vs1 vs2 : BitVec 5) (mk et : BitVec 3) (rm : BitVec 2),
     let m := RM.of rm
     let F := etFmt et.toNat
     let v := decodeF F
     let two := fun (j : Instr) (f : Nat → Nat → Nat × Flags) =>
       Issued j s [] s1 → VectorRaises j s s1 [vs1.toNat, vs2.toNat] vd.toNat vs1.toNat vs2.toNat mk.toNat et.toNat 4 (fun a b _ => f a b)
     let three := fun (j : Instr) (f : Nat → Nat → Nat → Nat × Flags) =>
       Issued j s [] s1 → VectorRaises j s s1 [vs1.toNat, vs2.toNat, vd.toNat] vd.toNat vs1.toNat vs2.toNat mk.toNat et.toNat 4 f
     let f32 := fun (j : Instr) (sf : Special) =>
       Issued j s [] s1 → VectorRaises j s s1 [vs2.toNat] vd.toNat vs1.toNat vs2.toNat mk.toNat 6 4 (fun _ b _ => special sf m b)
     two (.vfadd vd vs1 vs2 mk et rm) (fun a b => rnd F m (addV m (v a) (v b))) ∧
     two (.vfsub vd vs1 vs2 mk et rm) (fun a b => rnd F m (addV m (v a) (v b).neg)) ∧
     two (.vfmul vd vs1 vs2 mk et rm) (fun a b => rnd F m (mulV (v a) (v b))) ∧
     three (.vfma vd vs1 vs2 mk et rm) (fun a b d => rnd F m (fmaV m (v a) (v b) (v d))) ∧
     three (.vfms vd vs1 vs2 mk et rm) (fun a b d => rnd F m (fmaV m (v a).neg (v b) (v d))) ∧
     f32 (.vsqrt vd vs2 mk rm) .sqrt ∧ f32 (.vrcp vd vs2 mk rm) .rcp ∧ f32 (.vrsq vd vs2 mk rm) .rsq ∧ f32 (.vexp2 vd vs2 mk rm) .exp2 ∧
     f32 (.vlog2 vd vs2 mk rm) .log2) ∧
  (∀ (s s1 : State) (vd vs2 : BitVec 5),
     let et := s.mine.vtype.toNat
     let w := etWidth et
     let two := fun (j : Instr) (f : Nat → Nat → Nat × Flags) =>
       Issued j s [] s1 → VectorRaises j s s1 [vd.toNat, vs2.toNat] vd.toNat vd.toNat vs2.toNat 0 et 2 (fun a b _ => f a b)
     let one := fun (j : Instr) (f : Nat → Nat × Flags) =>
       Issued j s [] s1 → VectorRaises j s s1 [vs2.toNat] vd.toNat vd.toNat vs2.toNat 0 et 2 (fun _ b _ => f b)
     two (.vadd16 vd vs2) (fun a b => if et < 5 then (a + b, 0) else elFadd et .rne a b) ∧
     two (.vsub16 vd vs2) (fun a b => if et < 5 then (a + 2 ^ w - b, 0) else elFsub et .rne a b) ∧
     two (.vmul16 vd vs2) (fun a b => if et < 5 then (a * b, 0) else elFmul et .rne a b) ∧
     two (.vmin16 vd vs2) (fun a b => elMin et a b) ∧ two (.vmax16 vd vs2) (fun a b => elMax et a b) ∧
     one (.vabs16 vd vs2) (fun b => elAbs et b) ∧ one (.vneg16 vd vs2) (fun b => elNeg et b) ∧
     two (.vand16 vd vs2) (fun a b => (a &&& b, 0)) ∧ two (.vor16 vd vs2) (fun a b => (a ||| b, 0)) ∧ two (.vxor16 vd vs2) (fun a b => (a ^^^ b, 0)) ∧
     one (.vnot16 vd vs2) (fun b => (2 ^ w - 1 - b, 0)) ∧ two (.vshl16 vd vs2) (fun a b => (a * 2 ^ (b % w), 0)) ∧
     two (.vshr16 vd vs2) (fun a b => (a / 2 ^ (b % w), 0)) ∧ two (.vsra16 vd vs2) (fun a b => elSra et a b) ∧
     one (.vmov16 vd vs2) (fun b => (b, 0)) ∧ one (.vrcp16 vd vs2) (fun b => special .rcp .rne b) ∧
     (s.mine.issued = none → 4 < et → exec (.vshl16 vd vs2) s = .next (trap s .illegalOp (encodingOf (.vshl16 vd vs2))) ∧
       exec (.vshr16 vd vs2) s = .next (trap s .illegalOp (encodingOf (.vshr16 vd vs2))) ∧
       exec (.vsra16 vd vs2) s = .next (trap s .illegalOp (encodingOf (.vsra16 vd vs2)))) ∧
     (s.mine.issued = none → et ≠ 6 → exec (.vrcp16 vd vs2) s = .next (trap s .illegalOp (encodingOf (.vrcp16 vd vs2))))) ∧
  (∀ (s t : State) (i : Instr) (vd vs1 vs2 : BitVec 5) (mk et : BitVec 3) (rm : BitVec 2),
     i ∈ [.vfadd vd vs1 vs2 mk et rm, .vfsub vd vs1 vs2 mk et rm, .vfmul vd vs1 vs2 mk et rm, .vfma vd vs1 vs2 mk et rm, .vfms vd vs1 vs2 mk et rm,
       .vsqrt vd vs2 mk rm, .vrcp vd vs2 mk rm, .vrsq vd vs2 mk rm, .vexp2 vd vs2 mk rm, .vlog2 vd vs2 mk rm, .vadd16 vd vs2, .vsub16 vd vs2,
       .vmul16 vd vs2, .vmin16 vd vs2, .vmax16 vd vs2, .vrcp16 vd vs2] →
     exec i s = .next t → t.mine.vflags &&& s.mine.vflags = s.mine.vflags) ∧
  (elFadd 6 .rne 0x3F800000 0x30800000).2 = 0b00001#5 ∧ (elFmul 6 .rne 0x7F7FFFFF 0x7F7FFFFF).2 = 0b00101#5 ∧
  (elFsub 6 .rne 0x7F800000 0x7F800000).2 = 0b10000#5 ∧ (special .rcp .rne 0).2 = 0b01000#5

/-- R249, R247: VSPLAT gives every active element the low bits of xs, VIOTA its index, VSEL each element below VL one source by the mask's bit, VEXTR
an element extended by its type or 0, VCVT the conversions of elements between types. -/
def Obligations.VectorMoves : Prop :=
  ∀ (s s1 : State) (vd vs1 vs2 : BitVec 5) (mk et src : BitVec 3) (rm : BitVec 2) (x : Word),
    let w := etWidth et.toNat
    let k := etPer et.toNat
    let ws := etWidth src.toNat
    let ks := etPer src.toNat
    let t0 := s1.mine
    let clean := markedLane t0 [vs1.toNat, vs2.toNat] (List.range t0.vl) = none
    (Issued (.vsplat vd vs1 mk et) s [x] s1 →
      VectorDone (.vsplat vd vs1 mk et) s s1 [] vd.toNat 0 0 mk.toNat et.toNat 4 (fun _ _ _ => x.toNat)) ∧
    (Issued (.viota vd mk et) s [] s1 → ∃ t, exec (.viota vd mk et) s = .next t ∧ t.mine.pc = t0.pc + 4 ∧
      ∀ l e, l < 128 → e < k → t.mine.elem vd.toNat l e w = if l < t0.vl ∧ t0.mr mk.toNat (4 * l + e) = true then
        (if et.toNat < 5 then l * k + e else (rndF (etFmt et.toNat) .rne false (Val.ofInt ((l * k + e : Nat) : Int))).1) % 2 ^ w
        else t0.elem vd.toNat l e w) ∧
    (Issued (.vsel vd vs1 vs2 mk et) s [] s1 → clean → ∃ t, exec (.vsel vd vs1 vs2 mk et) s = .next t ∧ t.mine.pc = t0.pc + 4 ∧
      ∀ l e, l < 128 → e < k → t.mine.elem vd.toNat l e w = if l < t0.vl then
        (if t0.mr mk.toNat (4 * l + e) = true then t0.elem vs1.toNat l e w else t0.elem vs2.toNat l e w) else t0.elem vd.toNat l e w) ∧
    (Issued (.vextr vd vs1 vs2 mk et) s [x] s1 → clean →
      Answers (.vextr vd vs1 vs2 mk et) s s1 s1 (xField vd)
        (if x.toNat < t0.vl * k ∧ t0.mr mk.toNat (4 * (x.toNat / k) + x.toNat % k) = true then
          (if etSigned et.toNat then (BitVec.ofNat w (t0.elem vs2.toNat (x.toNat / k) (x.toNat % k) w)).signExtend 64
            else wd (t0.elem vs2.toNat (x.toNat / k) (x.toNat % k) w)) else 0)) ∧
    (Issued (.vcvt vd src vs2 mk et rm) s [] s1 → clean → ∃ t, exec (.vcvt vd src vs2 mk et rm) s = .next t ∧ t.mine.pc = t0.pc + 4 ∧
      ∀ l e, l < 128 → e < k → t.mine.elem vd.toNat l e w = if l * k + e < t0.vl * min ks k ∧ t0.mr mk.toNat (4 * l + e) = true then
        (elCvt src.toNat et.toNat (RM.of rm) (t0.elem vs2.toNat ((l * k + e) / ks) ((l * k + e) % ks) ws)).1 % 2 ^ w
        else t0.elem vd.toNat l e w)

/-- R248, R254: VCMP writes all four bits of every lane below VL, an active element's with its test and the others with 0; MAND, MOR and MNOT write
those bits; no bit of other lanes changes; MPOP counts and MFIRST finds the ones below VL. -/
def Obligations.MaskResults : Prop :=
  ∀ (s s1 : State) (md m1 m2 mk et : BitVec 3) (vs1 vs2 xd : BitVec 5) (cc : BitVec 2),
    let w := etWidth et.toNat
    let t0 := s1.mine
    let writes := fun (i : Instr) (f : Nat → Nat → Bool) => ∃ t, exec i s = .next t ∧ t.mine.pc = t0.pc + 4 ∧ t.mine.v = t0.v ∧ t.mem = s1.mem ∧
      ∀ l e, l < 128 → e < 4 → t.mine.mr md.toNat (4 * l + e) = if md ≠ 0 ∧ l < t0.vl then f l e else t0.mr md.toNat (4 * l + e)
    (Issued (.vcmp md vs1 vs2 mk et cc) s [] s1 → markedLane t0 [vs1.toNat, vs2.toNat] (List.range t0.vl) = none →
      writes (.vcmp md vs1 vs2 mk et cc) (fun l e => decide (e < etPer et.toNat) && t0.mr mk.toNat (4 * l + e) &&
        (elCmp et.toNat cc.toNat (t0.elem vs1.toNat l e w) (t0.elem vs2.toNat l e w)).1)) ∧
    (Issued (.mand md m1 m2) s [] s1 → writes (.mand md m1 m2) (fun l e => t0.mr m1.toNat (4 * l + e) && t0.mr m2.toNat (4 * l + e))) ∧
    (Issued (.mor md m1 m2) s [] s1 → writes (.mor md m1 m2) (fun l e => t0.mr m1.toNat (4 * l + e) || t0.mr m2.toNat (4 * l + e))) ∧
    (Issued (.mnot md m2) s [] s1 → writes (.mnot md m2) (fun l e => !t0.mr m2.toNat (4 * l + e))) ∧
    (Issued (.mpop xd m2) s [] s1 →
      Answers (.mpop xd m2) s s1 s1 (xField xd) (wd ((List.range (4 * t0.vl)).countP (fun n => t0.mr m2.toNat n)))) ∧
    (∀ n, Issued (.mfirst xd m2) s [] s1 → n < 4 * t0.vl → t0.mr m2.toNat n = true → (∀ k, k < n → t0.mr m2.toNat k = false) →
      Answers (.mfirst xd m2) s s1 s1 (xField xd) (wd n)) ∧
    (Issued (.mfirst xd m2) s [] s1 → (∀ k, k < 4 * t0.vl → t0.mr m2.toNat k = false) →
      Answers (.mfirst xd m2) s s1 s1 (xField xd) (wd (2 ^ 64 - 1)))

/-- R250-R253: VRED writes only element 0 of lane 0, the tree's combination of the active elements or the identity; VSCAN gives each active element
the left fold up to it; VPERM and VSLIDE move whole lanes from usable lanes and leave a reading lane its own value elsewhere. -/
def Obligations.ReductionsAndPermutes : Prop :=
  ∀ (s s1 : State) (vd op vs1 vs2 : BitVec 5) (mk et : BitVec 3) (x : Word),
    let w := etWidth et.toNat
    let k := etPer et.toNat
    let t0 := s1.mine
    let n := t0.vl * k
    let active := fun (i : Nat) => decide (i < n) && t0.mr mk.toNat (4 * (i / k) + i % k)
    let el := fun (i : Nat) => t0.elem vs2.toNat (i / k) (i % k) w
    let moves := fun (i : Instr) (src : Nat → Int) => ∃ t, exec i s = .next t ∧ t.mine.pc = t0.pc + 4 ∧ ∀ l, l < 128 →
      let on := fun (j : Nat) => j < t0.vl ∧ t0.mr mk.toNat (4 * j) = true
      (on l → 0 ≤ src l → on (src l).toNat → t.mine.vr vd.toNat l = t0.vr vs1.toNat (src l).toNat) ∧
      (on l → ¬ (0 ≤ src l ∧ on (src l).toNat) → t.mine.vr vd.toNat l = t0.vr vs1.toNat l) ∧
      (¬ on l → t.mine.vr vd.toNat l = t0.vr vd.toNat l) ∧
      (mk ≠ 0 → l < t0.vl → ∀ e, e < 4 → (t.mine.mr mk.toNat (4 * l + e) = true ↔ on l ∧ 0 ≤ src l ∧ on (src l).toNat))
    (Issued (.vred vd op vs2 mk et) s [] s1 → markedLane t0 [vs2.toNat] (List.range t0.vl) = none →
      ∃ t, exec (.vred vd op vs2 mk et) s = .next t ∧ t.mine.pc = t0.pc + 4 ∧
        t.mine.elem vd.toNat 0 0 w = ((combTree op.toNat et.toNat (ceilLog2 n)
          ((List.range (2 ^ ceilLog2 n)).map (fun i => if active i then some (el i) else none))).1.getD (combIdentity op.toNat et.toNat)) % 2 ^ w ∧
        (∀ l e, l < 128 → e < k → (l, e) ≠ (0, 0) → t.mine.elem vd.toNat l e w = t0.elem vd.toNat l e w)) ∧
    (Issued (.vscan vd op vs2 mk et) s [] s1 → markedLane t0 [vs2.toNat] (List.range t0.vl) = none →
      ∃ t, exec (.vscan vd op vs2 mk et) s = .next t ∧ t.mine.pc = t0.pc + 4 ∧
        ∀ i, i < 128 * k → t.mine.elem vd.toNat (i / k) (i % k) w = if active i = true then
          ((((List.range (i + 1)).filter active).foldl (fun a j => (comb op.toNat et.toNat a (some (el j))).1) none).getD 0) % 2 ^ w
          else t0.elem vd.toNat (i / k) (i % k) w) ∧
    (Issued (.vperm vd vs1 vs2 mk) s [] s1 → markedLane t0 [vs1.toNat, vs2.toNat] (List.range t0.vl) = none →
      moves (.vperm vd vs1 vs2 mk) (fun l => ((t0.vr vs2.toNat l).toNat : Int))) ∧
    (Issued (.vslide vd vs1 vs2 mk) s [x] s1 → markedLane t0 [vs1.toNat, vs2.toNat] (List.range t0.vl) = none →
      moves (.vslide vd vs1 vs2 mk) (fun l => (l : Int) + x.toInt))

/-- R241, R242, R237: VCLAIM grants the lanes asked for, rounded up to 16 and at most 128, if the slot holds them or the tile's pool covers them, else
what the pool allows; VL is the grant; lanes given up or gained are cleared. VYIELD gives all lanes back. R255-R257, R91, R187: a vector load whose
elements pass completes: each active element is read at its place in ascending index and written, the address in place of bytes in error, each lane with
the mark of its first element in error; the others stand, and memory is unchanged where no line leaves the L1 for it (R98). Which of
two elements in error gives its lane's mark R187 and R258 do not say: the first, the model's choice (DESIGN CHOICE, log 70). A vector store stores each active element at its place in ascending index. Element i of VLD and VST lies at rs1 + i b, of VLDS and VSTS at rs1 + i xs, of VGATH and VSCAT at rs1 + index
b, of VLDL and VSTL at rs1 + e b. -/
def Obligations.VectorLanesAndMemory : Prop :=
  (∀ (s s1 : State) (rd a : RegField) (x : Word) (l r : Nat),
     let g0 := s1.mine.grant
     let n := min ((x.toNat + 15) / 16 * 16) 128
     let g := if n ≤ g0 then n else min n (g0 + freeLanes s1 s1.curCore / 16 * 16)
     (Issued (.vclaim rd a) s [x] s1 → ∃ s2, Answers (.vclaim rd a) s s1 s2 rd (wd g) ∧ s2.mine.grant = g ∧ s2.mine.vl = g ∧ s2.mine.x = s1.mine.x ∧
       (l < min g g0 → l < 128 → s2.mine.vr r l = s1.mine.vr r l) ∧ (min g g0 ≤ l → l < max g g0 → l < 128 → s2.mine.vr r l = 0) ∧
       OthersSame s1 s2 s1.me) ∧
     (Issued .vyield s [] s1 → ∃ t, exec .vyield s = .next t ∧ t.mine.pc = s1.mine.pc + 4 ∧ t.mine.grant = 0 ∧ (g0 ≠ 0 → t.mine.vl = 0))) ∧
  (∀ (s s1 s2 s3 : State) (vd vs2 : BitVec 5) (a xs : RegField) (sz : BitVec 2) (mk : BitVec 3) (x y : Word) (ps : List Place),
     let b := szBytes sz.toNat
     let k := 4 / b
     let act := activeElems s1.mine mk.toNat k
     let lanes := List.range s1.mine.vl
     let passes := fun (addr : Nat → Nat → Word) (acc : Access) (logs : Bool) =>
       checkAccess s1 (act.map (fun n => { a := addr n.1 n.2, n := b, lane := n.1 })) acc logs = .go ps s2 ∧
       (if acc = .vload then holdLoad s2 (ps.map (fun p => (p, b))) else holdAccess s2 (ps.map (fun p => (p, b))) false) = .go () s3 ∧ ∀ p ∈ ps, p.own = true
     let reads := (ps.foldl (fun (z : List (List Byte × Bool) × State) p =>
       let r := readPlace z.2 z.2.curCore p b
       (z.1 ++ [(r.1, r.2.1)], r.2.2)) ([], s3)).1
     let loads := fun (i : Instr) (addr : Nat → Nat → Word) => passes addr .vload false →
       ∃ t, exec i s = .next t ∧ t.mine.pc = s1.mine.pc + 4 ∧ (((∀ p ∈ ps, p.direct = true) ∨ ∀ c, (s3.core c).lines = []) → t.mem = s3.mem) ∧
         (∀ l e, l < 128 → e < k → (l, e) ∉ act → t.mine.elem vd.toNat l e (8 * b) = s1.mine.elem vd.toNat l e (8 * b)) ∧
         (∀ z r, (z, r) ∈ act.zip reads → z.1 < 128 →
           t.mine.elem vd.toNat z.1 z.2 (8 * b) = (if r.2 = true then (addr z.1 z.2).toNat else leNat r.1) % 2 ^ (8 * b)) ∧
         (∀ l, l < 128 → markedLane t.mine [vd.toNat] [l] = if (∃ z ∈ act, z.1 = l)
           then ((act.zip reads).find? (fun z => z.1.1 = l && z.2.2)).map (fun z => addr z.1.1 z.1.2) else markedLane s1.mine [vd.toNat] [l]) ∧
         (s3.bad = [] → (∀ p ∈ ps, p.direct = true) → ∀ n p, (n, p) ∈ act.zip ps → n.1 < 128 →
           t.mine.elem vd.toNat n.1 n.2 (8 * b) = leNat (s3.mem.readN p.loc b))
     let stores := fun (i : Instr) (addr : Nat → Nat → Word) => markedLane s1.mine [vd.toNat, vs2.toNat] lanes = none →
       s1.mine.vprog = 0 → passes addr .vstore true → (∀ va pa leaf ext, Place.global va pa leaf ext ∈ ps → needsDirty s3 s3.curCore va leaf = false) →
       ∃ t, exec i s = .next t ∧ t.mine.pc = s1.mine.pc + 4 ∧ t.mine.v = s1.mine.v ∧
         t = advance (((act.zip ps).foldl (fun st z =>
           storeElem st z.2 (leBytes (s1.mine.elem vd.toNat z.1.1 z.1.2 (8 * b)) b) .vstore) s3).modMe (fun t => { t with vprog := 0 })) 4 ∧
         ((∀ p ∈ ps, p.direct = true) → t.mem = (act.zip ps).foldl (fun m z =>
           m.writes (cellsAt z.2.loc (leBytes (s1.mine.elem vd.toNat z.1.1 z.1.2 (8 * b)) b))) s3.mem)
     let unit := fun (l e : Nat) => x + wd ((l * k + e) * b)
     let strided := fun (l e : Nat) => x + wd (l * k + e) * y
     let index := fun (l e : Nat) => x + wd (s1.mine.elem vs2.toNat l e (8 * b) * b)
     let lane := fun (_ e : Nat) => x + wd (e * b)
     (Issued (.vld vd a sz mk) s [x] s1 → loads (.vld vd a sz mk) unit) ∧ (Issued (.vst vd a sz mk) s [x] s1 → stores (.vst vd a sz mk) unit) ∧
     (Issued (.vlds vd a xs sz mk) s [x, y] s1 → loads (.vlds vd a xs sz mk) strided) ∧
     (Issued (.vsts vd a xs sz mk) s [x, y] s1 → stores (.vsts vd a xs sz mk) strided) ∧
     (Issued (.vgath vd a vs2 sz mk) s [x] s1 → markedLane s1.mine [vs2.toNat] lanes = none → loads (.vgath vd a vs2 sz mk) index) ∧
     (Issued (.vscat vd a vs2 sz mk) s [x] s1 → stores (.vscat vd a vs2 sz mk) index) ∧
     (Issued (.vldl vd a sz mk) s [x] s1 → fld x 48 16 = 0xFF01 → loads (.vldl vd a sz mk) lane) ∧
     (Issued (.vstl vd a sz mk) s [x] s1 → fld x 48 16 = 0xFF01 → stores (.vstl vd a sz mk) lane))

/-- R261, R265, R266, R273: a valid configuration word is kept by its register and the slot goes on; an invalid one traps MATRIX with its reason and
the word. R260, R262, R267-R272: a unit operation whose checks pass enters the free unit, with the accumulators it needs its slot's, and the slot
waits at it for its completion. -/
def Obligations.MatrixConfiguration : Prop :=
  (∀ (s s1 : State) (a b : RegField) (x y : Word),
     let sets := fun (i : Instr) (f : Slot → Slot) => exec i s = .next (advance (s1.modMe f) 4)
     let traps := fun (i : Instr) (reason : Nat) (w : Word) => exec i s = .next (trap s1 .matrix (wd (reason * 2 ^ 60 + w.toNat % 2 ^ 60)))
     let shapeGood := fld x 0 7 ≤ 64 ∧ fld x 8 6 ≤ 32 ∧ fld x 7 1 = 0 ∧ fld x 14 2 = 0 ∧ fld x 32 32 = 0
     let fmtGood := fld x 5 59 = 0 ∧ ((fld x 0 2 ≤ 1 ∧ fld x 2 2 ≤ 1) ∨ (fld x 0 2 = 2 ∧ fld x 2 2 = 2) ∨ (fld x 0 2 = 3 ∧ fld x 2 2 = 3))
     (Issued (.mcfgShape a) s [x] s1 → (shapeGood → sets (.mcfgShape a) (fun t => { t with shape := x })) ∧
       (¬ shapeGood → traps (.mcfgShape a) 1 x)) ∧
     (Issued (.mcfgFmt a) s [x] s1 → (fmtGood → sets (.mcfgFmt a) (fun t => { t with fmt := x })) ∧ (¬ fmtGood → traps (.mcfgFmt a) 2 x)) ∧
     (Issued (.mcfgA a b) s [x, y] s1 → (y.toNat < 2 ^ 18 → sets (.mcfgA a b) (fun t => { t with aBase := x, aStride := y })) ∧
       (2 ^ 18 ≤ y.toNat → traps (.mcfgA a b) 3 y)) ∧
     (Issued (.mcfgB a b) s [x, y] s1 → (y.toNat < 2 ^ 18 → sets (.mcfgB a b) (fun t => { t with bBase := x, bStride := y })) ∧
       (2 ^ 18 ≤ y.toNat → traps (.mcfgB a b) 3 y)) ∧
     (Issued (.mcell a) s [x] s1 → (cellOk x = true → sets (.mcell a) (fun t => { t with cell := x })) ∧ (cellOk x = false → traps (.mcell a) 5 x))) ∧
  (∀ (s s1 s2 s3 s4 s5 : State) (rd a b : RegField) (rm : BitVec 2) (x y : Word) (u v p q : Unit),
     let t0 := s1.mine
     let g := s1.me
     let enters := fun (i : Instr) (P : UnitOp → Prop) => ∃ t op, exec i s = .next t ∧ (t.core s1.curCore).unitBusy = some (g, op) ∧ P op ∧
       t.mine.wait = some .matrix ∧ t.mine.pc = t0.pc ∧ t.mem = s5.mem
     let free := s1.here.unitBusy = none
     let whole := cfgM t0 ≠ 0 ∧ cfgN t0 ≠ 0
     let d := stepsDone t0 false
     let mmaChecks := (whole ∧ cfgK t0 ≠ 0 → regionCheck s2 t0.aBase (cfgM t0) t0.aStride.toNat (cfgK t0) (operandBytes t0 (cfgAF t0)) .load = .go v s3 ∧
         regionCheck s3 t0.bBase (cfgK t0) t0.bStride.toNat (cfgN t0) (operandBytes t0 (cfgBF t0)) .load = .go p s5) ∧ (¬ (whole ∧ cfgK t0 ≠ 0) → s5 = s2)
     let moves := fun (w : Word) (acc : Access) =>
       (whole → regionCheck s2 x (cfgM t0) (fld w 8 18) (cfgN t0) (outBytes (fld w 0 3)) acc = .go v s5) ∧ (¬ whole → s5 = s2)
     (Issued .mma s [] s1 → free → (cellMode t0 = true ∨ pairOf (cfgAF t0) (cfgBF t0) = true) → claim s1 (cfgAcc t0) = .go u s2 → mmaChecks →
       enters .mma (fun op => ∃ st, op = .mma false d st)) ∧
     (Issued .mmaZ s [] s1 → free → (cellMode t0 = true ∨ pairOf (cfgAF t0) (cfgBF t0) = true) → claim s1 (cfgAcc t0) = .go u s2 → mmaChecks →
       enters .mmaZ (fun op => ∃ st, op = .mma (decide (d = 0) && !(bit t0.progress 63 && bit t0.progress 61)) d st)) ∧
     (Issued (.mzero a) s [x] s1 → free → fld x 2 62 = 0 → claim s1 (fld x 0 1) = .go u s5 → enters (.mzero a) (fun op => op = .mzero x)) ∧
     (Issued (.mload a b) s [x, y] s1 → free → outOk y false = true → claim s1 (cfgAcc t0) = .go u s2 → moves y .load →
       enters (.mload a b) (fun op => op = .mload x y)) ∧
     (Issued (.mstore rd a b rm) s [x, y] s1 → s.mine.read = [] → free → outOk y true = true → claim s1 (cfgAcc t0) = .go u s2 → moves y .store →
       enters (.mstore rd a b rm) (fun op => op = .mstore rd.toNat x y rm.toNat)) ∧
     (Issued (.mscale a b) s [x, y] s1 → free → cfgAF t0 ≠ 3 → cfgBF t0 ≠ 3 → claim s1 (cfgAcc t0) = .go u s2 → claim s2 (1 - cfgAcc t0) = .go v s3 →
       (whole → regionCheck s3 x 1 0 (cfgM t0) 2 .load = .go p s4 ∧ regionCheck s4 y 1 0 (cfgN t0) 2 .load = .go q s5) → (¬ whole → s5 = s3) →
       enters (.mscale a b) (fun op => op = .mscale x y (stepsDone t0 true))))

/-- R260, R267-R272, R127, R128, R133: what a unit operation has done when it completes, its slot at the next instruction: MMA each cell's k-steps in
order on the operands' bytes, from zero with .z; MZERO zero cells, released with REL; MLOAD the cells' bytes, and the accumulator's flags as before;
MSCALE, from the row it goes on at, the scaled product added to the other accumulator's cell, rounded to W96, the rows before it as they were; MSTORE
each cell's code at its place, raw or converted, and in rd ANAR, AOVF and the flags of the conversions. That an operation reads its sources and writes
its destination as it completes is the model's choice (DESIGN CHOICE, logs 31 and 9): the MMA clause is of bytes that did not change meanwhile. -/
def Obligations.UnitOperationsComplete : Prop :=
  ∀ (t : State) (g : Nat) (op : UnitOp), g < 32768 → (t.core (coreOf g)).unitBusy = some (g, op) → (t.core (coreOf g)).unitNext = none →
    unitClear t g op = true → (∀ x ∈ (t.cluster (clusterOf (coreOf g))).keys, x.1 ≠ g) →
    let c := coreOf g
    let q := t.slot g
    let A := cfgAcc q
    ∃ t1, exec (.matrixOpComplete g) t = .next t1 ∧ (t1.core c).unitBusy = none ∧
      (∀ z d, op = .mma z d (some t.mem) → (t1.slot g).pc = q.pc + 4 ∧ t1.mem = t.mem ∧ ∀ i j, i < cfgM q → j < cfgN q →
        ((t1.core c).acc A).cell i j = ((List.range (cfgK q - d)).map (d + ·)).foldl (fun cell k =>
          (mmaStep q cell (leNat (t.mem.readN (operandLoc c q.aBase + i * q.aStride.toNat + k * operandBytes q (cfgAF q)) (operandBytes q (cfgAF q))))
            (leNat (t.mem.readN (operandLoc c q.bBase + k * q.bStride.toNat + j * operandBytes q (cfgBF q)) (operandBytes q (cfgBF q))))).1)
          (if z = true then 0 else ((t.core c).acc A).cell i j)) ∧
      (∀ w, op = .mzero w → (t1.slot g).pc = q.pc + 4 ∧ (t1.core c).acc (fld w 0 1) = { owner := if bit w 1 then none else some g }) ∧
      (∀ a w, op = .mload a w → (t1.slot g).pc = q.pc + 4 ∧ ∀ i j, i < cfgM q → j < cfgN q →
        ((t1.core c).acc A).cell i j = BitVec.ofNat 96 (leNat (t.mem.readN (operandLoc c a + i * fld w 8 18 + j * 16) 12)) ∧
        ((t1.core c).acc A).aovf = ((t.core c).acc A).aovf ∧ ((t1.core c).acc A).anar = ((t.core c).acc A).anar) ∧
      (∀ a b d, op = .mscale a b d → (t1.slot g).pc = q.pc + 4 ∧ ∀ i j, i < cfgM q → j < cfgN q →
        ((t1.core c).acc (1 - A)).cell i j = if i < d then ((t.core c).acc (1 - A)).cell i j else rneW96 (addV .rne (mulV (mulV (cellVal (cfgAF q) (((t.core c).acc A).cell i j))
          (decodeF fBF16 (read16 t.mem (operandLoc c a + 2 * i)))).1 (decodeF fBF16 (read16 t.mem (operandLoc c b + 2 * j)))).1
          (decodeW96 (((t.core c).acc (1 - A)).cell i j)))) ∧
      (∀ rd a w rm, op = .mstore rd a w rm → rd < 32 → fld w 0 3 ≤ 5 → outBytes (fld w 0 3) * cfgN q ≤ fld w 8 18 →
        let sz := outBytes (fld w 0 3)
        let code := fun i j => outCell q (fld w 0 3) (RM.of (BitVec.ofNat 2 rm)) (((t.core c).acc A).cell i j)
        (t1.slot g).pc = q.pc + 4 ∧ (∀ i j, i < cfgM q → j < cfgN q →
          leNat (t1.mem.readN (operandLoc c a + i * fld w 8 18 + j * sz) sz) =
            if fld w 0 3 = 0 then (((t.core c).acc A).cell i j).toNat else (code i j).1 % 2 ^ (8 * sz)) ∧
        (rd ≠ 0 → ∃ fl : Flags,
          (t1.slot g).xr rd = wd (512 * b2n ((t.core c).acc A).anar + 256 * b2n ((t.core c).acc A).aovf + fl.toNat) ∧
          ∀ b, b < 5 → (fl.getLsbD b = true ↔ fld w 0 3 ≠ 0 ∧ ∃ i j, i < cfgM q ∧ j < cfgN q ∧ (code i j).2.getLsbD b = true)))

/-- R277, R275, R282, R283: KSRESET on a summarised page resets its record by a published write: every low plus infinity, every high minus infinity, TOKENS 0, GEN one
up, and no byte outside the record; KGATHER whose block and list are good, with scoreboard and
copy room, records its two ranges and goes on, its copy of the listed pages in the cluster's copy engine, or ended at once: with BADCMD for a bad
completion word, ANNULLED for a request not LIVE, the completion word's error, or SPACE for a page outside its base's space. R260, R279, R281, R284: KSEL
and DRAW whose block, descriptor, query, output or logits are good enter their cluster's key-selection unit, and the slot waits there. R279-R281: a KSEL
completes by writing to its output the count and the chosen pages, the included ones first and then the best bounds, and answers the count; a record in
error traps MEMERR, one at a peer that answers with a failure traps as a load there does, and one answered NOPROXY is read again later (R404, R425). R284-R286: a DRAW completes with the first index of the greatest score: .g of the logits, .s of the logits scaled with the index's
noise; .v also says in bit 32 whether the draft is that index, and counts a draft beyond the vocabulary in OOVDRAFT up to its maximum. That a KSEL reads
its records as it completes is the model's reading (DEDUCED, log 55), and that a DRAW reads its logits then its choice (DESIGN CHOICE, log 31); which of
KGATHER's errors is given when several apply is its choice too (DESIGN CHOICE, log 54). -/
def Obligations.KeySelection : Prop :=
  (∀ (s s1 s2 s3 s4 s5 s6 s7 : State) (a : RegField) (x : Word) (va pa : Nat) (leaf ext : Word) (w cw l desc : List Word) (u : Unit),
     let k := descOf desc
     let mask := fld (w.getD 4 0) 0 32
     let win := fun (z : Word) => windowOf z = some 0 ∨ (mask = 0 ∧ windowOf z = some 2)
     let pb := pageBytes k.dc k.kf
     let ranges := gatherRanges s6.curCore (w.getD 2 0) (w.getD 3 0) ((cw.getD 0 0).toNat * pb) mask
     let pages := fun (src dst : Word) => l.zipIdx.map (fun z => (src + wd (fld z.1 0 32 * pb), dst + wd (z.2 * pb), pb))
     let plan := pages k.key (w.getD 2 0) ++ pages k.val (w.getD 3 0)
     let tag := fld (w.getD 6 0) 0 18
     let cl := clusterOf s5.curCore
     let sb := ({ s5 with nextId := s5.nextId + 1 }).modCore s5.curCore (fun q => { q with board := q.board ++ ranges.map (fun r => ({ id := s5.nextId, ranges := r } : Board)) })
     (Issued (.ksreset a) s [x] s1 → checkAccess s1 [{ a := x, n := 1 }] .summary false = .go [.global va pa leaf ext] s2 →
       leafSm leaf = true → pa % 65536 % pageBytes (extDc ext) (extKf ext) = 0 →
       exec (.ksreset a) s = .next (advance (publishCells s2 (resetCells s2.mem ext pa) 0 none none) 4) ∧
       (s2.mem.wf = true → let m := (publishCells s2 (resetCells s2.mem ext pa) 0 none none).mem
         let r := recordPa ext (pa % 65536)
         let d := dcChannels (extDc ext)
         read16 m r = (read16 s2.mem r + 1) % 65536 ∧ read16 m (r + 2) = 0 ∧
         (∀ c, c < d → read16 m (r + 16 + 2 * c) = 0x7F80 ∧ read16 m (r + 16 + 2 * d + 2 * c) = 0xFF80) ∧
         ∀ b, b < r ∨ r + 16 + 4 * d ≤ b → m.read b = s2.mem.read b)) ∧
     (Issued (.kgather a) s [x] s1 → readWords s1 0 x 8 = .go w s2 → fld (w.getD 4 0) 33 31 = 0 → fld (w.getD 6 0) 18 46 = 0 → w.getD 7 0 = 0 →
       readDesc s2 8 (w.getD 0 0) x = .go desc s3 → readWords s3 16 (w.getD 1 0) 1 = .go cw s4 → (cw.getD 0 0).toNat ≤ 1024 →
       readWords s4 17 (w.getD 1 0 + 8) (cw.getD 0 0).toNat = .go l s6 → win (w.getD 2 0) → win (w.getD 3 0) →
       tagAllowed s6 s6.me tag = true → s6.here.board.length + ranges.length ≤ 16 → copyRoom s6 (clusterOf s6.curCore) = true →
       (bit (w.getD 4 0) 32 = true → publish s6 .dev = .go u s7) → s5 = (if bit (w.getD 4 0) 32 = true then s7 else s6) →
       (∀ h va, (s5.slot h).wait ≠ some (.fault va)) → (∀ c, (s5.core c).sideLog = []) →
       ∃ t y, exec (.kgather a) s = .next t ∧ t.mine.pc = s5.mine.pc + 4 ∧ t.mine.x = s5.mine.x ∧ OthersSame s5 t s5.me ∧
         (y.id = s5.nextId ∧ y.op = 5 ∧ y.core = s5.curCore ∧ y.g = s5.me ∧ y.words.getD 1 0 = w.getD 5 0 ∧ y.plan = plan ∧ y.planned = true ∧
           y.total = planBytes plan ∧ y.left = List.range (planBytes plan / 128) ∧ y.rtag = (if tag = 0 then s5.mine.rtag else tag) ∧
           y.mask = (if mask = 0 then none else some (wd mask))) ∧
         (badCompletion sb y = true → t = advance (endCmd sb y 3 2 0) 4) ∧
         (badCompletion sb y = false → sb.liveTag y.rtag = false → t = advance (endCmd sb y 2 0 0) 4) ∧
         (badCompletion sb y = false → sb.liveTag y.rtag = true →
           (∀ e, completionError sb y = some e → t = advance (endCmd sb y 3 e 0) 4) ∧
           (completionError sb y = none →
             ((∃ z ∈ plan, leavesSpace sb y.core z.1 z.2.2 = true ∨ leavesSpace sb y.core z.2.1 z.2.2 = true) → t = advance (endCmd sb y 3 3 0) 4) ∧
             ((∀ z ∈ plan, leavesSpace sb y.core z.1 z.2.2 = false ∧ leavesSpace sb y.core z.2.1 z.2.2 = false) →
               t.mem = s5.mem ∧ (t.cluster cl).copies = (s5.cluster cl).copies ++ [y] ∧ (t.core s5.curCore).board = (sb.core s5.curCore).board))))) ∧
  (∀ (s s1 s2 s3 s4 s5 : State) (rd a b : RegField) (x y : Word) (w desc : List Word) (recs : List (Nat × List (Elem × Place))) (u : Unit),
     let enters := fun (i : Instr) (s5 : State) (op : KeyOp) => ∃ t, exec i s = .next t ∧ t.mine.wait = some .keyUnit ∧ t.mine.pc = s5.mine.pc ∧
       t.mem = s5.mem ∧ (t.cluster (clusterOf s5.curCore)).keys = (s5.cluster (clusterOf s5.curCore)).keys ++ [(s5.me, op)]
     let k := descOf desc
     let w1 := w.getD 1 0
     let w2 := w.getD 2 0
     let p := fld w2 48 11
     let np := fld w1 32 17
     let d := dcChannels k.dc
     let n := fld w1 0 32
     let e := min (n + np) ((k.len + 63) / 64)
     let inc := includedPages n e (fld w2 0 7) (fld w2 16 9) (fld w2 32 16) p
     let drawn := readWords s1 0 x 6 = .go w s2 ∧ 1 ≤ n ∧ n ≤ fld w1 32 32 ∧ fld w1 32 32 ≤ 262144 ∧ fld w2 32 32 = 0 ∧ w.getD 5 0 = 0 ∧
       regionCheck s2 (w.getD 0 0) 1 0 n 4 .load = .go u s5
     (Issued (.ksel rd a b) s [x, y] s1 → markedLane s1.mine [y.toNat % 32] (List.range 32) = none → readWords s1 0 x 4 = .go w s2 → readDesc s2 4 (w.getD 0 0) x = .go desc s3 →
       fld w1 49 15 = 0 → 1 ≤ np → np ≤ 65536 → fld w2 7 9 = 0 → fld w2 25 7 = 0 → fld w2 59 5 = 0 → fld w2 0 7 ≤ 64 → fld w2 16 9 ≤ 256 → 1 ≤ p → p ≤ 1024 →
       regionCheck s3 (w.getD 3 0) 1 0 (1 + p) 8 .store = .go u s4 → y.toNat < 32 → min d 128 ≤ s4.mine.grant → y.toNat + (d - 1) / 128 ≤ 31 →
       markedLane s4.mine ((List.range ((d + 127) / 128)).map (y.toNat + ·)) (List.range (min d 128)) = none →
       recordPlaces s4 k (((List.range (e - n)).map (n + ·)).filter (fun i => !inc.contains i)) = .go recs s5 →
       enters (.ksel rd a b) s5 (.select rd.toNat x w desc y recs)) ∧
     (Issued (.drawG rd a) s [x] s1 → drawn → enters (.drawG rd a) s5 (.draw rd.toNat false w none)) ∧
     (Issued (.drawS rd a) s [x] s1 → drawn → enters (.drawS rd a) s5 (.draw rd.toNat true w none)) ∧
     (Issued (.drawV rd a b) s [x, y] s1 → drawn → enters (.drawV rd a b) s5 (.draw rd.toNat true w (some y)))) ∧
  (∀ (s s1 : State) (g rd : Nat) (x y : Word) (w desc : List Word) (recs : List (Nat × List (Elem × Place))) (rs : List (Nat × List Byte)),
     let op := KeyOp.select rd x w desc y recs
     let cl := clusterOf (coreOf g)
     let k := descOf desc
     let w2 := w.getD 2 0
     let p := fld w2 48 11
     let n := fld (w.getD 1 0) 0 32
     let e := min (n + fld (w.getD 1 0) 32 17) ((k.len + 63) / 64)
     let inc := includedPages n e (fld w2 0 7) (fld w2 16 9) (fld w2 32 16) p
     let query := fun (c : Nat) => ((s.slot g).vr (y.toNat % 32 + c / 128) (c % 128)).toNat
     let chosen := choosePages inc ((rs.filter (fun r => recordGood k r.2)).map (fun r => (r.1, pageBound (dcChannels k.dc) query r.2))) p
     let out := wd chosen.length :: chosen.map (fun c => wd (c.1 % 2 ^ 32 + c.2 * 2 ^ 32))
     let loc := operandLoc (coreOf g) (w.getD 3 0)
     g < 32768 → rd < 32 → (s.cluster cl).keys.head? = some (g, op) → keyClear s g op = true →
     (readRecords (leaveKeys s g) g (s.slot g).rtag recs = (.ok rs, s1) →
       ∃ t, exec (.matrixOpComplete g) s = .next t ∧ (t.slot g).pc = (s.slot g).pc + 4 ∧ (t.slot g).wait = none ∧ (∀ z ∈ (t.cluster cl).keys, z.1 ≠ g) ∧
         (rd ≠ 0 → (t.slot g).xr rd = wd chosen.length) ∧ t.mem.readN loc (8 * out.length) = out.flatMap (fun v => leBytes v.toNat 8) ∧
         MemorySame s1 t loc (8 * out.length)) ∧
     (∀ code ea, readRecords (leaveKeys s g) g (s.slot g).rtag recs = (.error (code, ea), s1) →
       exec (.matrixOpComplete g) s = .next (if code = 14 then s1.modSlot g (fun t => { t with wait := some (.peer (.word ea) true), since := s1.time, state := .waiting })
         else trapAt s1 g (if code = 9 then .perm else if code = 8 then .xlate else .memerr) (s1.slot g).pc ea))) ∧
  (∀ (s : State) (g rd : Nat) (noise : Bool) (w : List Word) (draft : Option Word),
     let op := KeyOp.draw rd noise w draft
     let cl := clusterOf (coreOf g)
     let n := fld (w.getD 1 0) 0 32
     let loc := operandLoc (coreOf g) (w.getD 0 0)
     let logit := fun (i : Nat) => leNat (s.mem.readN (loc + 4 * i) 4)
     let noisy := fun (i : Nat) => drawScore true (fld (w.getD 3 0) 0 32) (fld (w.getD 3 0) 32 32) (fld (w.getD 4 0) 0 32)
       ((fld (w.getD 4 0) 32 32 + i) % 2 ^ 32) (fld (w.getD 2 0) 0 32) (logit i)
     let tok := if noise = true then argmax noisy n else argmax logit n
     let oov := (s.slot g).oovdraft
     g < 32768 → rd < 32 → (s.cluster cl).keys.head? = some (g, op) → keyClear s g op = true → s.bad = [] →
     ∃ t, exec (.matrixOpComplete g) s = .next t ∧ (t.slot g).pc = (s.slot g).pc + 4 ∧ (t.slot g).wait = none ∧ (∀ z ∈ (t.cluster cl).keys, z.1 ≠ g) ∧
       t.mem = s.mem ∧ (draft = none → (rd ≠ 0 → (t.slot g).xr rd = wd tok) ∧ (t.slot g).oovdraft = oov) ∧
       (∀ y, draft = some y → (rd ≠ 0 → (t.slot g).xr rd = wd (tok + if y.toNat = tok then 2 ^ 32 else 0)) ∧
         (t.slot g).oovdraft = if n ≤ y.toNat ∧ oov ≠ BitVec.allOnes 32 then oov + 1 else oov))

/-- R345, R346: CSRR answers the CSR; CSRW, and CSRSET and CSRCLR of a register other than x0, answer the old value and write the new one, the bits
set or cleared; of x0 they only read. R346, R347: a CSR reads back what was written to it in its bits that are not reserved, a slot's for the slot and
a core's for its slots; a write of one changes no memory, and VL never exceeds GRANT. STATUS takes NEST, PIE, IE, PDH, PMODE and DH for the slot, AN and slot 0's
SCHED for the core; MSGPEND and FAULTSTAT.OVF are cleared by ones; MSGCFG takes each class's TRP. R77: a write of LMSHARE waits until every core of the cluster
has the new size, one copy after another. R405: PTEMPL0-3, which only firmware writes, keep their values (the model's reading, DEDUCED, log 60). R75, R78,
R79, R237, R346, R347, R354, R376, R381, R412: a CSR's own write event leaves what a CSRW of it does, and one made while firmware configures the device is
noted for measurement 5 (R438) under the model's number for it (DESIGN CHOICE, log 20); a BUDGETLEFT of 0 is no budget in force and gives no trap (DESIGN
CHOICE, log 34). -/
def Obligations.CsrResults : Prop :=
  (∀ (s s1 s2 : State) (rd a : RegField) (csr : BitVec 11) (x : Word) (u : Unit),
     let old := csrRead s1 s1.me csr.toNat
     (Issued (.csrr rd csr) s [] s1 → Answers (.csrr rd csr) s s1 s1 rd old) ∧
     let room := csr.toNat = 0x029 → ∃ s3, Written s1 s1 rd old s3
     (Issued (.csrw rd a csr) s [x] s1 → room → csrWrite s1 csr.toNat x = .go u s2 → Answers (.csrw rd a csr) s s1 s2 rd old) ∧
     (Issued (.csrset rd a csr) s [x] s1 → room → csrWrite s1 csr.toNat (old ||| x) = .go u s2 → Answers (.csrset rd a csr) s s1 s2 rd old) ∧
     (Issued (.csrclr rd a csr) s [x] s1 → room → csrWrite s1 csr.toNat (old &&& ~~~x) = .go u s2 → Answers (.csrclr rd a csr) s s1 s2 rd old) ∧
     (Issued (.csrset rd 0 csr) s [] s1 → Answers (.csrset rd 0 csr) s s1 s1 rd old) ∧
     (Issued (.csrclr rd 0 csr) s [] s1 → Answers (.csrclr rd 0 csr) s s1 s1 rd old)) ∧
  (∀ (s : State) (v : Word) (n : Nat) (mask : Word),
     ((n, mask) ∈ ([(0x011, 0x7), (0x012, 0x1F), (0x013, 0xFFFFFFFF), (0x014, 0xFFFFFFFF), (0x015, 0xFFFFFFFF), (0x016, ~~~1), (0x017, 0xFF),
       (0x018, ~~~1), (0x019, ~~~0), (0x020, 0xFC0FFFFFFFFFFFFF), (0x021, 0xFC0FFFFFFFFFFFFF), (0x022, 0xFC0FFFFFFFFFFFFF), (0x023, 0xFC0FFFFFFFFFFFFF),
       (0x041, 0xFF), (0x042, ~~~1), (0x043, ~~~0), (0x044, ~~~0)] : List (Nat × Word)) →
       ∃ t, csrWrite s n v = .go () t ∧ csrRead t s.me n = v &&& mask ∧ t.mem = s.mem ∧ t.cores = s.cores ∧ OthersSame s t s.me) ∧
     ((n, mask) ∈ ([(0x040, ~~~1), (0x045, ~~~0), (0x04C, 0xF07FFF000)] : List (Nat × Word)) → (n = 0x04C → (freePlace s.here).isSome = true) →
       ∃ t, csrWrite s n v = .go () t ∧ csrRead t (s.curCore * 16) n = v &&& mask ∧ t.mem = s.mem ∧ t.slots = s.slots) ∧
     (n ∈ [0x048, 0x049, 0x04A, 0x04B] → csrWrite s n v = .go () s) ∧
     (∃ t, csrWrite s 0x008 v = .go () t ∧ t.mem = s.mem ∧ OthersSame s t s.me ∧ t.here.an = bit v 8 ∧
       (t.core (coreOf s.me)).sched = (if s.me % 16 = 0 then bit v 9 else (s.core (coreOf s.me)).sched) ∧
       t.mine = { s.mine with nest := bit v 7, pie := bit v 6, ie := bit v 5, pdh := bit v 4, pmode := bit v 3, dh := bit v 2 }) ∧
     csrWrite s 0x046 v = .go () (s.modCore s.curCore (fun k => { k with msgpend := k.msgpend &&& ~~~(v.setWidth 8) })) ∧
     (∃ t, csrWrite s 0x034 v = .go () t ∧ t.faultBuf (dieOf s.curCore) = { s.faultBuf (dieOf s.curCore) with
       ovf := (s.faultBuf (dieOf s.curCore)).ovf && !bit v 32 } ∧ t.mem = s.mem ∧ t.slots = s.slots ∧ t.cores = s.cores) ∧
     (∃ t, csrWrite s 0x030 v = .go () t ∧ t.mem = s.mem ∧ t.slots = s.slots ∧
       ∀ k, k < 8 → t.msgClass s.curCore k = { s.msgClass s.curCore k with trp := bit v (8 * k + 7) }) ∧
     (s.mine.wait = some .share → copiesOld s s.curCore = [] →
       ∃ t, csrWrite s 0x029 v = .go () t ∧ csrRead t (s.curCore * 16) 0x029 = v &&& 0xF ∧ t.mem = s.mem ∧ t.slots = s.slots) ∧
     (copiesOld s s.curCore ≠ [] → (s.mine.wait = some .share ∨ (copiesOld s s.curCore).length = 32) →
       ∃ t, csrWrite s 0x029 v = .stop t ∧ t.mine.wait = some .share ∧ t.here.lmshare = s.here.lmshare ∧ t.mem = s.mem ∧
         (copiesOld t s.curCore).length < (copiesOld s s.curCore).length) ∧
     (∃ t, csrWrite s 0x010 v = .go () t ∧ t.mine.vl = min (fld v 0 8) s.mine.grant ∧ t.mine.grant = s.mine.grant) ∧
     (∃ t, csrWrite s 0x006 v = .go () t ∧ t.here.featmask.toNat = (if fld v 0 8 ≤ s.here.featmask.toNat then fld v 0 8 else s.here.featmask.toNat))) ∧
  (∀ (s : State) (g c t d : Nat) (v : Word) (b : Bool), g < 32768 → c < 2048 → t < 512 → d < 4 →
     let k := s.core c
     let y := s.slot g
     let n := fld v 0 4
     (g % 16 = 0 → exec (.statusSchedWrite g b) s =
       .next (noteConfig (s.modCore (coreOf g) (fun k => { k with sched := b })) (csrSetting (coreOf g) 8) (wd (2 ^ 9 * b2n b)))) ∧
     (g % 16 ≠ 0 → exec (.statusSchedWrite g b) s = .next (noteConfig s (csrSetting (coreOf g) 8) (wd (2 ^ 9 * b2n b)))) ∧
     exec (.timercmpWrite c v) s = .next (s.modCore c (fun k => { k with timercmp := v, timer := false })) ∧
     (8 < n → k.board = [] → k.sideLog = [] → exec (.lmsplitWrite c v) s = .next (noteConfig s (csrSetting c 0x28) v)) ∧
     ((k.board ≠ [] ∨ k.sideLog ≠ []) → exec (.lmsplitWrite c v) s = .next s) ∧
     (n ≤ 8 → k.board = [] → k.sideLog = [] → ∃ u, exec (.lmsplitWrite c v) s = .next u ∧ (u.core c).lmsplit = BitVec.ofNat 4 n ∧ (u.core c).lines = [] ∧
       (∀ a, min n k.lmsplit.toNat * 32768 ≤ a → a < max n k.lmsplit.toNat * 32768 → u.mem.read (locScratch c a) = 0)) ∧
     (∃ u, exec (.lmshareWrite c v) s = .next u ∧ (u.core c).lmshare = BitVec.ofNat 4 n ∧ u.mem = s.mem ∧ u.slots = s.slots ∧
       ∀ d ∈ clusterCores (clusterOf c), ∀ z ∈ (u.core d).csmCopy, z.1 ≠ c) ∧
     (∃ u, exec (.lmgroupWrite t v) s = .next u ∧ ((∀ c ∈ tileCores t, (s.core c).sideLog = []) → (u.tile t).lmgroup = bit v 0)) ∧
     (∃ u, exec (.dsplitWrite d v) s = .next u ∧ look 0 d u.dsplit = fld v 0 3) ∧
     exec (.vgrantWrite g v) s = .next (s.modSlot g (fun t => { t with vl := min (fld v 0 8) y.grant, lost := y.lost && !bit v 16 })) ∧
     exec (.freqreqWrite c v) s = .next (retarget (s.modCore c (fun k => { k with freqreq := BitVec.ofNat 4 n })) (tileOf c)) ∧
     (fld v 0 8 ≤ k.featmask.toNat → exec (.featmaskWrite c v) s =
       .next (noteConfig (s.modCore c (fun k => { k with featmask := BitVec.ofNat 8 (fld v 0 8) })) (csrSetting c 6) v)) ∧
     (k.featmask.toNat < fld v 0 8 → exec (.featmaskWrite c v) s = .next (noteConfig (s.modCore c (fun k => k)) (csrSetting c 6) v)) ∧
     exec (.budgetleftWrite g v) s = .next (s.modSlot g (fun t => { t with budget := BitVec.ofNat 32 (fld v 0 32), inForce := fld v 0 32 != 0 })))

/-- R351, R54, R353: taking a trap. In user mode a delegable cause with DELEG, TVEC and no handler running is delegated; in supervisor mode with NEST
set the slot halts with the D registers as they were, and Valsis is notified; otherwise the trap registers, the saved status, supervisor mode and PC = STVEC, the delegated
handler's trap registers going to the D registers. The trap PC is the instruction's, and no other slot, register or byte of memory changes. -/
def Obligations.TrapEntry : Prop :=
  ∀ (s : State) (g : Nat) (c : Cause) (tpc v : Word),
    let a := s.slot g
    let t := trapAt s g c tpc v
    let b := t.slot g
    let delegated := a.mode = false ∧ c ∈ [Cause.misalign, .waitlimit, .budget, .trapi] ∧ a.deleg = true ∧ a.tvec ≠ 0 ∧ a.dh = false
    let double := a.mode = true ∧ a.nest = true
    b.trapcause = BitVec.ofNat 8 c.code ∧ b.trappc = tpc ∧ b.trapval = v ∧ b.x = a.x ∧ b.v = a.v ∧ b.wait = none ∧
    t.mem = s.mem ∧ t.tags = s.tags ∧ t.reqs = s.reqs ∧ OthersSame s t g ∧ trap s c v = trapAt s s.me c s.mine.pc v ∧
    (delegated → b.dh = true ∧ b.pc = a.tvec ∧ b.mode = false ∧ b.state = .ready ∧ b.ie = a.ie ∧ b.nest = a.nest) ∧
    (double → b.state = .halted ∧ b.mode = true ∧ b.nest = true ∧ b.pc = a.pc ∧ b.dcause = a.dcause ∧ b.dpc = a.dpc ∧ b.dval = a.dval) ∧
    (¬ delegated → ¬ double → b.mode = true ∧ b.dh = false ∧ b.ie = false ∧ b.nest = true ∧ b.pmode = a.mode ∧ b.pdh = a.dh ∧ b.pie = a.ie ∧
      b.pc = (s.core (coreOf g)).stvec ∧ b.state = .ready ∧
      (a.dh = true → b.dcause = a.trapcause ∧ b.dpc = a.trappc ∧ b.dval = a.trapval) ∧
      (a.dh = false → b.dcause = a.dcause ∧ b.dpc = a.dpc ∧ b.dval = a.dval)) ∧
    (double → t.doubleTraps = s.doubleTraps ++ [g]) ∧ (¬ double → t.doubleTraps = s.doubleTraps)

/-- R179, R352, R356: TRAP raises TRAPI with its immediate and the next instruction's PC, BRK raises BRK with 0 at itself; ERET restores PC, mode, DH
and IE, clears PDH and NEST and, with PDH, returns the D registers to the trap registers; TRET of a delegated handler goes to TRAPPC and clears DH,
and is illegal otherwise. -/
def Obligations.TrapAndReturn : Prop :=
  ∀ (s s1 : State) (imm : BitVec 13),
    let a := s1.mine
    (Issued .brk s [] s1 → exec .brk s = .next (trap s1 .brk 0)) ∧
    (Issued (.trapImm imm) s [] s1 → exec (.trapImm imm) s = .next (trapAt s1 s1.me .trapi (a.pc + 4) (imm.setWidth 64))) ∧
    (Issued .eret s [] s1 → ∃ t, exec .eret s = .next t ∧ t.mine.pc = a.trappc &&& ~~~1 ∧ t.mine.mode = a.pmode ∧ t.mine.dh = a.pdh ∧ t.mine.ie = a.pie ∧
      t.mine.pdh = false ∧ t.mine.nest = false ∧ t.mine.x = a.x ∧ t.mem = s1.mem ∧ t.cores = s1.cores ∧ OthersSame s1 t s1.me ∧
      (a.pdh = true → t.mine.trapcause = a.dcause ∧ t.mine.trappc = a.dpc ∧ t.mine.trapval = a.dval) ∧
      (a.pdh = false → t.mine.trapcause = a.trapcause ∧ t.mine.trappc = a.trappc ∧ t.mine.trapval = a.trapval)) ∧
    (Issued .tret s [] s1 → a.mode = false → a.dh = true → ∃ t, exec .tret s = .next t ∧ t.mine.pc = a.trappc &&& ~~~1 ∧ t.mine.dh = false ∧
      t.mine.mode = false ∧ t.mine.x = a.x ∧ t.mine.p = a.p ∧ t.mem = s1.mem ∧ OthersSame s1 t s1.me) ∧
    (Issued .tret s [] s1 → (a.mode = true ∨ a.dh = false) → exec .tret s = .next (trap s1 .illegalOp (encodingOf .tret))) ∧
    decode [0x61, 0x00, 0x00, 0x02] = some (.tret, []) ∧ decode [0x61, 0x00, 0x00, 0x04] = some (.brk, []) ∧
    decode [0x61, 0x00, 0x00, 0x06] = some (.eret, []) ∧ decode32 (imm ++ 0#6 ++ 0#6 ++ 49#6 ++ 1#1) = some (.trapImm imm) ∧
    (s.mine.issued = none → s.mine.mode = false → exec .eret s = .next (trap s .priv (encodingOf .eret)))

/-- R54: delegated traps. A delegable cause of a task with DELEG, TVEC and no handler running is taken in user mode; while the handler runs the task
may read the trap registers, and TRET ends it; any other trap of a task goes to the supervisor; dispatch sets TVEC to 0. -/
def Obligations.DelegatedTraps : Prop :=
  ∀ (s s1 : State) (c : Cause) (v : Word) (imm : BitVec 13) (g : Nat) (cr : CR) (home : Home),
    let a := s.mine
    let able := a.deleg = true ∧ a.tvec ≠ 0 ∧ a.dh = false
    let four := c = .misalign ∨ c = .waitlimit ∨ c = .budget ∨ c = .trapi
    (a.mode = false → four → able → ∃ t, trap s c v = t ∧ t.mine.trappc = a.pc ∧ t.mine.trapcause = BitVec.ofNat 8 c.code ∧ t.mine.trapval = v ∧
      t.mine.dh = true ∧ t.mine.pc = a.tvec ∧ t.mine.mode = false) ∧
    (a.mode = false → able → Issued (.trapImm imm) s [] s → ∃ t, exec (.trapImm imm) s = .next t ∧ t.mine.trappc = a.pc + 4 ∧ t.mine.pc = a.tvec ∧
      t.mine.trapcause = 0x20#8 ∧ t.mine.trapval = imm.setWidth 64 ∧ t.mine.dh = true ∧ t.mine.mode = false) ∧
    (Cause.misalign.code = 0x04 ∧ Cause.waitlimit.code = 0x0C ∧ Cause.budget.code = 0x0D ∧ Cause.trapi.code = 0x20) ∧
    (csrUser 0x017 false true = true ∧ csrUser 0x018 false true = true ∧ csrUser 0x019 false true = true) ∧
    (Issued .tret s [] s1 → s1.mine.mode = false → s1.mine.dh = true → ∃ t, exec .tret s = .next t ∧ t.mine.pc = s1.mine.trappc &&& ~~~1#64 ∧
      t.mine.dh = false) ∧
    (a.mode = false → (¬ four ∨ a.dh = true ∨ a.tvec = 0) → ∃ t, trap s c v = t ∧ t.mine.mode = true ∧ t.mine.pc = (s.core (coreOf s.me)).stvec ∧
      t.mine.trapcause = BitVec.ofNat 8 c.code ∧ t.mine.trappc = a.pc ∧ t.mine.trapval = v) ∧
    ((dispatchCr s g cr home).slot g).tvec = 0

/-- R202, R350, R354, R381, R382: a pending BUDGET, TIMER or MSG is taken, in that order of precedence, at the slot's PC, also in MONWAIT; a budget charged
to zero makes BUDGET pending once; TIME at TIMERCMP, which all ones never is (R12), sets the timer's pending bit of a supervised core. -/
def Obligations.AsynchronousTraps : Prop :=
  ∀ (s : State) (g c n r : Nat) (w : TagOp), g < 32768 → c < 2048 →
    let t := s.slot g
    let k := s.core (coreOf g)
    let open_ := bit t.progress 63 = false ∧ (t.state = .ready ∨ t.state = .waiting) ∧ slotDoomed s g = false
    let due := k.timer = true ∨ (k.timercmp ≠ BitVec.allOnes 64 ∧ k.timercmp.toNat ≤ s.time)
    let kernel := k.sched = true ∧ g % 16 = 0 ∧ t.ie = true ∧ boundaryWait t.wait = true ∧ open_ ∧ t.budgetPending = false
    (open_ → t.budgetPending = true → budgetWithdraws t.wait = true → exec (.takeAsyncTrap g) s = .next
      (trapAt (s.modSlot g (fun t => { t with budgetPending := false })) g .budget t.pc 0)) ∧
    (kernel → due → exec (.takeAsyncTrap g) s = .next (trapAt s g .timer t.pc (wd s.time))) ∧
    (kernel → ¬ due → k.msgpend ≠ 0#8 → exec (.takeAsyncTrap g) s = .next (trapAt s g .msg t.pc (wd k.msgpend.toNat))) ∧
    (asyncCause s g = none → exec (.takeAsyncTrap g) s = .next s) ∧
    (t.inForce = true → t.budget = 0#32 → t.occupied = true →
      (t.wait = none → exec (.budgetExpiry g) s = .next (s.modSlot g (fun t => { t with inForce := false, budgetPending := true }))) ∧
      (t.wait = some (.tagged w true n r) → ∃ u, exec (.budgetExpiry g) s = .next u ∧ (u.slot g).budgetPending = true ∧ (u.slot g).inForce = false ∧
        (u.slot g).wait = some (.withdrawn w .budget) ∧ Event.withdrawalAnswer g ∈ u.pending) ∧
      (t.wait = some (.tagged w false n r) → ∃ u, exec (.budgetExpiry g) s = .next u ∧ (u.slot g).budgetPending = true ∧ (u.slot g).inForce = false ∧
        (u.slot g).wait = none ∧ (u.slot g).pc = t.pc ∧ u.mem = s.mem ∧ u.deferred = s.deferred)) ∧
    ((s.core c).sched = true → (s.core c).timercmp ≠ BitVec.allOnes 64 → (s.core c).timercmp.toNat ≤ s.time →
      exec (.timercmpExpiry c) s = .next (s.modCore c (fun k => { k with timer := true }))) ∧
    (((s.core c).sched = false ∨ (s.core c).timercmp = BitVec.allOnes 64 ∨ s.time < (s.core c).timercmp.toNat) → exec (.timercmpExpiry c) s = .next s)

/-- R357, R358: RQENQ answers OK with the record's CR in its queue, FULL, NOFEAT or ANNULLED; RQDEQ answers INVALID for a bad operand word, EMPTY, or
OK with the first eligible CR out of its queue and in memory. R359: SLOTCTL's operations on a slot that meets their requirement: QUERY reports the
slot's state, mode, request and priority; START dispatches the CR at rs2; PREEMPT starts a preemption and waits, first for one in progress or for a place
that a spill unit can free, and answers NOROOM without one (R379); RESUME, KILL, COPYSTOP and RELEASE answer OK with their effect; where the requirement
fails, BUSY and nothing else. A KILL of a slot that awaits an answer, or is part-way through a vector store, ends it at its boundary (R65). The model's own,
all in log 39: that START and RESUME answer BUSY in a cluster that drains, START too where only saved contexts may
be dispatched (R361), and that such a KILL answers OK at once (DEDUCED); that RQDEQ answers INVALID
before its address check, and RQENQ of a free tag ANNULLED (DESIGN CHOICE). -/
def Obligations.QueuesAndSlots : Prop :=
  (∀ (s s1 s2 s3 s4 s5 : State) (rd a b : RegField) (x y : Word) (q : Nat) (w : List Word) (ps : List Place) (u v : Unit) (l i : Nat) (cr : CR),
     let t := fld (w.getD 2 0) 0 18
     let new := recordCr s4 w t
     let ready := Issued (.rqenq rd a b) s [x, y] s1 ∧ targetQueue s1 y = some q ∧ readCr s1 x = .go w s3 ∧ fld (w.getD 2 0) 29 3 = 0 ∧
       foreignTag s3 t = false ∧ publish s3 .dev = .go u s4
     let found := Issued (.rqdeq rd a b) s [x, y] s1 ∧ fld y 6 58 = 0 ∧ fld y 4 2 ≠ 3 ∧ checkAccess s1 (crElems x) .store false = .go ps s2 ∧
       holdAccess s2 (ps.map (fun p => (p, 8))) true = .go v s3
     let purged := (maskLevels (fld y 0 4)).foldl (fun s l => purge s (scopeQueue s3 (fld y 4 2)) l) s3
     let next := nextCr purged purged.curCore [scopeQueue s3 (fld y 4 2)] (maskLevels (fld y 0 4))
     (ready → s4.liveTag t = false → Answers (.rqenq rd a b) s s1 s4 rd 3) ∧
     (ready → s4.liveTag t = true → scopeReaches s4 q new.feat = false → Answers (.rqenq rd a b) s s1 s4 rd 2) ∧
     (ready → s4.liveTag t = true → scopeReaches s4 q new.feat = true → enqueue s4 q new = some s5 → Answers (.rqenq rd a b) s s1 s5 rd 0) ∧
     (ready → s4.liveTag t = true → scopeReaches s4 q new.feat = true → enqueue s4 q new = none → Answers (.rqenq rd a b) s s1 s4 rd 1) ∧
     (Issued (.rqdeq rd a b) s [x, y] s1 → (fld y 6 58 ≠ 0 ∨ fld y 4 2 = 3) → Answers (.rqdeq rd a b) s s1 s1 rd 8) ∧
     (found → next = none → Answers (.rqdeq rd a b) s s1 purged rd 5) ∧
     (found → next = some (q, l, i, cr) → Answers (.rqdeq rd a b) s s1 (writeCr (takeCr purged q l i) ps (crWords cr)) rd 0)) ∧
  (∀ (s s1 s2 : State) (rd a b : RegField) (x y : Word) (w : List Word) (c : Saved),
     let g := s1.curCore * 16 + fld x 0 4
     let t := s1.slot g
     let good := fld x 7 57 = 0 ∧ fld x 4 3 ≠ 7
     let is := fun (i : Instr) => Issued i s [x, y] s1 ∧ good
     let ok := fun (i : Instr) (s2 : State) => Answers i s s1 s2 rd 0
     let busy := fun (i : Instr) => Answers i s s1 s1 rd 6
     (is (.slotctlQuery rd a b) → Answers (.slotctlQuery rd a b) s s1 s1 rd
       (wd (256 * (slotCode s1 g + at_ (b2n t.mode) 3 + at_ (t.rtag % 2 ^ 18) 4 + at_ (t.prio % 4) 22)))) ∧
     (is (.slotctlStart rd a b) → ((t.occupied = true ∨ draining s1 = true ∨ onlySaved s1.here = true) → busy (.slotctlStart rd a b)) ∧
       (t.occupied = false → draining s1 = false → onlySaved s1.here = false → readCr s1 y = .go w s2 → startStatus s2 (crOf w) = 0 → ok (.slotctlStart rd a b) (dispatchCr s2 g (crOf w) .core))) ∧
     (is (.slotctlPreempt rd a b) → ((t.occupied = false ∨ g = s1.me) → busy (.slotctlPreempt rd a b)) ∧
       (t.occupied = true → g ≠ s1.me → s1.here.preempt = none → canSave s1 g = true → exec (.slotctlPreempt rd a b) s =
         .next (waitSlot (startPreempt s1 g (some (s1.me, rd.toNat)) false) s1.me (.preempting g))) ∧
       (t.occupied = true → g ≠ s1.me → s1.here.preempt ≠ none → exec (.slotctlPreempt rd a b) s = .next (waitSlot s1 s1.me .turn)) ∧
       (t.occupied = true → g ≠ s1.me → s1.here.preempt = none → canSave s1 g = false →
         (freePlace s1.here = none → freeUnits s1.here ≠ [] → exec (.slotctlPreempt rd a b) s = .next (waitSlot s1 s1.me .turn)) ∧
         ((freePlace s1.here ≠ none ∨ freeUnits s1.here = []) → Answers (.slotctlPreempt rd a b) s s1 s1 rd 7))) ∧
     (is (.slotctlResume rd a b) → ((t.occupied = true ∨ draining s1 = true) → busy (.slotctlResume rd a b)) ∧
       (t.occupied = false → namedSaved s1.here y = none → busy (.slotctlResume rd a b)) ∧
       (t.occupied = false → draining s1 = false → namedSaved s1.here y = some c → c.fault = none → canRestore s1 s1.curCore c = true →
         ok (.slotctlResume rd a b) (restore s1 g c))) ∧
     (is (.slotctlKill rd a b) → ((t.occupied = false ∨ g = s1.me) → busy (.slotctlKill rd a b)) ∧
       (t.occupied = true → g ≠ s1.me → endAwaited s1 g = false → ok (.slotctlKill rd a b) (endSlot s1 g false)) ∧
       (t.occupied = true → g ≠ s1.me → endAwaited s1 g = true →
         ok (.slotctlKill rd a b) (s1.modSlot g (fun t => { t with killed := true })))) ∧
     (is (.slotctlCopystop rd a b) → ok (.slotctlCopystop rd a b) (stopCopies s1 g)) ∧
     (is (.slotctlRelease rd a b) → (t.state ≠ .halted → busy (.slotctlRelease rd a b)) ∧
       (t.state = .halted → ∃ s3, ok (.slotctlRelease rd a b) s3 ∧ (s3.slot g).state = .ready ∧ (s3.slot g).doubleHalt = false ∧
         (s3.slot g).pc = (if t.doubleHalt = true then s1.here.stvec else t.pc) ∧ OthersSame s1 s3 g)) ∧
     (Issued (.slotctlQuery rd a b) s [x, y] s1 → ¬ good → Answers (.slotctlQuery rd a b) s s1 s1 rd 8))

/-- R362: CLOSAVE of an empty place answers 0; of a context it writes the image, frees the context's places and answers the length; of one whose fault
is unserviced, 1 with the place kept; the image's address is checked in each case. CLOREST of an invalid header, or of an image that names another partition's request (R406; DEDUCED, log 39), answers INVALID, of a live request's
image takes free places and answers the place, one context moving out of a Closet so filled (R51), and without places, or with those that a started
preemption needs (R361), answers NOROOM. R363, R364: TLBINV drops exactly the entries its extent names from every core and cluster TLB it reaches; that it leaves no held
access there a translation not made since, whichever entries that used, is the model's choice (R363 asks it of those that used the dropped ones; DEDUCED, log 71); CFLUSH publishes a line and drops it from the core's L1 and pool, operation 1 every core's copy of it too,
operation 2 all of the core's; HALT leaves the slot halted at the next instruction. Each goes on, in supervisor mode only. That CLOSAVE checks an empty
place's address and when CLOREST finds no room are the model's readings (DEDUCED, logs 29, 24); so is that a flushed line is read afresh (log 15). -/
def Obligations.ContextsAndMaintenance : Prop :=
  (∀ (s s1 s2 s3 s4 : State) (rd a b : RegField) (x y : Word) (c pl : Saved) (ps : List Place) (w body : List Word) (u : Unit),
     let image := fun (z : Word) => z.toNat % 64 = 0 ∧ (spaceOf z = .global ∨ ∃ n, spaceOf z = .window n ∧ (n = 0 ∨ n = 2 ∨ n = 3))
     let bs := imageBytes s1 s1.curCore c
     let h := w.getD 47 0
     (Issued (.closave rd a b) s [x, y] s1 → image y →
       (namedSaved s1.here x = none → checkAccess s1 (imageElems y 512) .store false = .go ps s3 → Answers (.closave rd a b) s s1 s3 rd 0) ∧
       (namedSaved s1.here x = some c → checkAccess s1 (imageElems y bs.length) .store false = .go ps s3 → unserviced s3.here c = true →
         Answers (.closave rd a b) s s1 s3 rd 1) ∧
       (namedSaved s1.here x = some c → checkAccess s1 (imageElems y bs.length) .store false = .go ps s3 → unserviced s3.here c = false →
         holdAccess s3 (ps.map (fun p => (p, 64))) true = .go u s4 →
         Answers (.closave rd a b) s s1 (dropSaved (untie (writeImage s4 ps bs) s4.curCore c.num) s4.curCore c.num) rd (wd bs.length))) ∧
     (Issued (.clorest rd a) s [x] s1 → image x → readImage s1 0 x 512 = .go w s2 →
       ((bit h 0 = false ∨ fld h 32 32 ≠ 0) → Answers (.clorest rd a) s s1 s2 rd 8) ∧
       (bit h 0 = true → fld h 32 32 = 0 → readImage s2 64 (x + 512) (bodyLength h) = .go body s3 →
         (s3.liveTag (fld (w.getD 32 0) 0 18) = false → Answers (.clorest rd a) s s1 s3 rd 3) ∧
         (s3.liveTag (fld (w.getD 32 0) 0 18) = true → foreignTag s3 (fld (w.getD 32 0) 0 18) = true → Answers (.clorest rd a) s s1 s3 rd 8) ∧
         (s3.liveTag (fld (w.getD 32 0) 0 18) = true → foreignTag s3 (fld (w.getD 32 0) 0 18) = false →
           let got := allotPlaces s3.here (bit h 5) (if bit h 8 = true then (if bit h 24 = true then 2 else 1) else 0)
           let put := moveOne (placeImage s3 w (bytesOfWords body) (imageSaved s3 w pl)) s3.curCore
           (got = none → Answers (.clorest rd a) s s1 s3 rd 7) ∧
           (got = some pl → keepsRoom put put.curCore = false → Answers (.clorest rd a) s s1 s3 rd 7) ∧
           (got = some pl → keepsRoom put put.curCore = true →
             Answers (.clorest rd a) s s1 put rd (wd (256 * (imageSaved s3 w pl).place.getD 0))))))) ∧
  (∀ (s s1 s2 s3 : State) (a b : RegField) (x y : Word) (va pa : Nat) (leaf ext : Word) (u : Unit),
     let ln := lineNo pa
     let gone := fun (t : State) (c : Nat) => ln ∉ (t.core c).lines.map (fun l => l.line) ∧ ln ∉ (t.core c).l1 ∧ ln ∉ (t.core c).coherent
     let out := fun (t : State) (c : Nat) => (c, ln) ∉ (t.tile (tileOf c)).pool
     let flushed := fun (i : Instr) (all : Bool) => Issued i s [x, y] s1 → fld y 0 2 ≠ 3 →
       checkAccess s1 [{ a := x, n := 8 }] .load false = .go [.global va pa leaf ext] s2 → cached leaf = true →
       ∃ t, exec i s = .next t ∧ t.mine.pc = s1.mine.pc + 4 ∧ gone t s1.curCore ∧ out t s1.curCore ∧
         (all = false → t.mem = (publishLine s2 s2.curCore ln).mem) ∧
         (all = true → (∀ c, gone t c) ∧ ∀ c k, (c, k) ∈ s2.cores → out t c)
     let asid := s1.here.asid.toNat
     let reached := fun (c : Nat) => y = 2 ∨ s1.partOf c = s1.partOf s1.curCore
     let named := fun (e : TlbEntry) => y = 2 ∨ (e.asid = asid ∧
       (y = 1 ∨ (spaceOf x = .global ∧ e.base ≤ fld x 0 56 ∧ fld x 0 56 < e.base + 2 ^ e.log2 ∧ e.base % 2 ^ e.log2 = 0)))
     (Issued (.tlbinv a b) s [x, y] s1 → y.toNat < 3 → ∃ t, exec (.tlbinv a b) s = .next t ∧ t.mine.pc = s1.mine.pc + 4 ∧ t.mem = s1.mem ∧
       (∀ c e, e ∈ (t.core c).tlb ↔ e ∈ (s1.core c).tlb ∧ ¬ (reached c ∧ named e)) ∧
       (∀ k e, e ∈ (t.cluster k).tlb ↔ e ∈ (s1.cluster k).tlb ∧ ¬ (reached (coreAt k 0) ∧ named e)) ∧
       (∀ g l va pa leaf ext, reached (coreOf g) → (t.slot g).checked = some l → Place.global va pa leaf ext ∉ l)) ∧
     (Issued (.tlbinv a b) s [x, y] s1 → 3 ≤ y.toNat → exec (.tlbinv a b) s = .next (trap s1 .illegalOp (encodingOf (.tlbinv a b)))) ∧
     flushed (.cflushLine a b) false ∧ flushed (.cflushWriteback a b) true ∧
     (Issued (.cflushAll a b) s [x, y] s1 → fld y 0 2 ≠ 3 → publish s1 .dev = .go u s3 →
       ∃ t, exec (.cflushAll a b) s = .next t ∧ t.mine.pc = s1.mine.pc + 4 ∧ (t.core s1.curCore).lines = [] ∧ (t.core s1.curCore).coherent = [] ∧
         (t.core s1.curCore).l1 = [] ∧ (∀ z ∈ (t.tile (tileOf s1.curCore)).pool, z.1 ≠ s1.curCore) ∧ s3 = publishLines s1 s1.curCore ∧ t.mem = s3.mem ∧
         (t.core s1.curCore).refresh = s3.history.length) ∧
     (Issued .halt s [] s1 → ∃ t, exec .halt s = .next t ∧ t.mine.state = .halted ∧ t.mine.pc = s1.mine.pc + 4 ∧ t.mine.x = s1.mine.x ∧ t.mem = s1.mem ∧
       OthersSame s1 t s1.me))

/-- R32, R36, R37, R49, R50, R369, R372, R378: hardware gives a free slot its next CR or saved context; starts a preemption of the victim of demand or
of the timer, and saves it; refills a level from its ring; takes whole records into a launch queue, counting the rest; and accepts a record as a live
request. -/
def Obligations.SchedulingEvents : Prop :=
  ∀ (s s1 s2 s3 : State) (c g q l i d p off t : Nat) (cr : CR) (r : List Nat) (x : Saved) (bs : List Byte) (w : List Word) (ws : List (List Word)) (pr : Preemption),
    c < 2048 → d < 4 → p < 16 →
    let s0 := purgeFor s c
    let lq := s.launchQ d p
    let u := dispatchCr s2 g cr .core
    let free := hardwareCore s c = true ∧ freeSlots s c false ≠ []
    (free → nextWork s0 c = some (.inr (q, l, i, cr)) → pickFree s0 c false = some (g, s1) →
      exec (.dispatch c) s = .next (dispatchCr (takeCr s1 q l i) g cr (homeOfQueue q))) ∧
    ((u.slot g).pc = cr.pc &&& ~~~1#64 ∧ (u.slot g).rtag = cr.rtag ∧ (u.slot g).mode = false ∧
      (u.slot g).tvec = 0 ∧ (u.slot g).state = .ready ∧ (∀ j, j < 5 → (u.slot g).xr (j + 1) = cr.x.getD j 0) ∧
      (∀ j, 6 ≤ j → (u.slot g).xr j = 0) ∧ u.mem = s2.mem) ∧
    (free → resumeNext s c = true → nextWork s0 c = some (.inl x) → pickFree s0 c false = some (g, s1) →
      exec (.resumeContext c) s = .next (restore s1 g x)) ∧
    (mayPreempt s c = true → demandVictim s c = some g → exec (.demandPreemption c) s = .next (startPreempt s g none false)) ∧
    (mayPreempt s c = true → demandVictim s c = none → timerVictim s c = some g → exec (.timerPreemption c) s = .next (startPreempt s g none true)) ∧
    ((s.core c).preempt = some pr → (s.slot pr.victim).occupied = true → saveReady s pr.victim = true → canSave s pr.victim = true →
      exec (.preemptionComplete c) s = .next (preemptSave s pr)) ∧
    (q < 2176 → l < 4 → (s.level q l).ring = i :: r → ringCr s q l i = cr → (s.level q l).entries.length < qCapacity q → exec (.ringMove q l) s =
      .next (parkedDown (s.setLevel q l
        { entries := if s.liveTag cr.rtag then (s.level q l).entries ++ [cr] else (s.level q l).entries, ring := r }) cr.rtag)) ∧
    (64 ≤ off → exec (.launchQueueWrite d p off bs) s = .next s) ∧
    (off < 64 → s.ready = true → (off ≠ 0 ∨ bs.length ≠ 64) →
      exec (.launchQueueWrite d p off bs) s = .next (s.setLaunchQ d p { lq with disc := min (lq.disc + 1) 65535 })) ∧
    (s.ready = true → bs.length = 64 → 256 ≤ lq.records.length →
      exec (.launchQueueWrite d p 0 bs) s = .next (s.setLaunchQ d p { lq with fulls := min (lq.fulls + 1) 65535 })) ∧
    (s.ready = true → bs.length = 64 → lq.records.length < 256 →
      exec (.launchQueueWrite d p 0 bs) s = .next (s.setLaunchQ d p { lq with records := lq.records ++ [wordsOf bs] })) ∧
    (s.ready = false → off < 64 → exec (.launchQueueWrite d p off bs) s = .next (s.setLaunchQ d p { lq with fulls := min (lq.fulls + 1) 65535 })) ∧
    (s.ready = true → lq.records = w :: ws → recordWaits s d p w = false →
      (((w.getD 1 0 ≠ BitVec.allOnes 64 ∧ (w.getD 1 0).toNat ≤ s.time) ∨ fld (w.getD 2 0) 0 18 ≠ 0 ∨ fld (w.getD 2 0) 29 3 ≠ 0) →
        exec (.launchAccept d p) s = .next (s.setLaunchQ d p { lq with records := ws, disc := min (lq.disc + 1) 65535 })) ∧
      ((w.getD 1 0 = BitVec.allOnes 64 ∨ s.time < (w.getD 1 0).toNat) → fld (w.getD 2 0) 0 18 = 0 → fld (w.getD 2 0) 29 3 = 0 →
        allocate (s.setLaunchQ d p { lq with records := ws }) d
          { state := .live, instant := w.getD 1 0, cls := fld (w.getD 2 0) 18 2, part := p } = some (t, s2) →
        enqueue s2 (qDie d p) { crOf w with rtag := t } = some s3 → exec (.launchAccept d p) s = .next s3))

/-- R24, R60, R61, R63-R65, R70, R231, R359, R386: the scanner annuls a live request whose instant has passed, all-ones being never; a notice sweeps a die once;
a slot whose notice has come, or which SLOTCTL KILL has ended, ends and is free once it awaits no answer and is not part-way through a store, telling its
core only in the first case; an acknowledgement counts a die's sweep; resumed waiters are enqueued as room comes; RTFREE frees an entry that may be, in
the same step, and reports. That code 2 covers a proxy whose own marker has not come, and that the freeing takes no time, are the model's choice (DEDUCED, log 38). -/
def Obligations.AnnulmentEvents : Prop :=
  ∀ (s s1 : State) (r d g p q : Nat) (cr : CR) (v : Word), 0 < r → r < 2 ^ 18 → d < 4 → g < 32768 → p < 16 →
    let e := s.req r
    ((e.state = .live → e.instant ≠ BitVec.allOnes 64 → e.instant.toNat ≤ s.time → exec (.requestExpiry r) s = .next (leave s r 0 .annulled)) ∧
      ((e.state ≠ .live ∨ e.instant = BitVec.allOnes 64 ∨ s.time < e.instant.toNat) → exec (.requestExpiry r) s = .next s)) ∧
    (exec (.annulNoticeArrival d r) s = .next (notice s d r) ∧
      ((e.state = .live ∨ e.state = .free ∨ d ∈ e.noticed) → notice s d r = s) ∧
      (∀ l, l < 4 → qDieOf q = d → ((sweepQueues s r d).level q l).entries = (s.level q l).entries.filter (fun cr => cr.rtag != r))) ∧
    ((s.slot g).occupied = true →
      let due := (s.slot g).rtag ≠ 0 ∧ annulKnown s (s.slot g).rtag (dieOf (coreOf g)) = true
      (endAwaited s g = false → (s.slot g).killed = false → due → exec (.slotAnnul g) s = .next (endSlot s g true)) ∧
      (endAwaited s g = false → (s.slot g).killed = true → exec (.slotAnnul g) s = .next (endSlot s g false)) ∧
      ((endAwaited s g = true ∨ ((s.slot g).killed = false ∧ ¬ due)) → exec (.slotAnnul g) s = .next s)) ∧
    (endSlot s g true).slot g = {} ∧ (endSlot s g false).slot g = {} ∧
    (e.state ≠ .live → d ∈ e.noticed → dieClear s r d = true →
      exec (.annulAckArrival r d) s = .next (tryFree (s.setReq r { e with swept := addNat d e.swept }) r)) ∧
    ((s.larder p).stalled = [(cr, q)] → s.liveTag cr.rtag = true →
      (enqueue s q cr = some s1 → ∃ u, exec (.larderDeferredEnqueue p) s = .next u ∧ (u.larder p).stalled = [] ∧ u.levels = s1.levels) ∧
      (enqueue s q cr = none → exec (.larderDeferredEnqueue p) s = .next (s.setLarder p (s.larder p)))) ∧
    (∃ u, exec (.rtfreeWrite d v) s = .next u ∧
      let t := fld v 0 18
      let n := if t = 0 ∨ (s.req t).state = .free then 3 else if (s.req t).state = .live then 1
        else if mayRelease s t = true ∧ inRing s t = false then 0 else 2
      look 0 d u.rtfree = n ∧ (n = 0 → u.req t = {}) ∧ (n ≠ 0 → u.reqs = s.reqs))

/-- R59, R64, R106, R404, R422, R424-R426: work of a peer is performed under its proxy, which its first work allocates, waits behind earlier work of its
slot, or is refused with its count and answer; work of a proxy no longer LIVE is dropped and counted, and without an entry for a proxy NOPROXY is answered.
Cancel notice, drain marker and acknowledgement end a proxy, a notice that comes first being remembered so that the work is dropped; an answer completes the
load, atomic or word read that waits, sends it again after NOPROXY, or traps, and one to a slot that is to end is discarded; a failed link ends what crosses
it. That a peer's access is a user's (`reach`, log 18), that a marker with no proxy is acknowledged at once and dropped work has no answer (log 43), and the
form of a peer's message and its answer (log 46) are the model's own (DESIGN CHOICE). R44, R45, R56: a message whose turn has come enters a bound
class's queue while it has room, and leaves its sender's interface; a full class refuses it, and an OFF one discards it, counted; a freed place offers
the refused one again. -/
def Obligations.PeersAndMessages : Prop :=
  (∀ (s : State) (w : PeerWork) (p g r dev tag peer port rd n : Nat) (a : Word) (data : BitVec 128) (old : Word) (pa q : Nat) (ext : Word) (s0 s1 : State),
     g < 32768 → w.port < 12 → port < 12 → 0 < r → r < 2 ^ 18 →
     let t := s.slot g
     let fresh := s.ready = true ∧ (∀ x ∈ s.inbox, x.1 ≠ w)
     let here := fresh ∧ streamBusy s.inbox w = false ∧ s.cancelled.contains (w.dev, w.rtag) = false
     let under := (w.rtag = 0 ∧ s0 = s ∧ q = 0) ∨ (w.rtag ≠ 0 ∧ proxyFor s w.dev w.rtag = some q ∧ s0 = s ∧ s.liveTag q = true) ∨
       (w.rtag ≠ 0 ∧ proxyFor s w.dev w.rtag = none ∧ s0.liveTag q = true ∧ allocate s (w.port / 3)
         { state := .live, instant := wd w.instant, cls := w.cls, part := p, proxyOf := some (w.dev, w.rtag) } = some (q, s0))
     let global := under ∧ w.addr / 2 ^ 48 % 256 ≠ 0xFF ∧ peerPart s w = some p
     (s.ready = false → exec (.peerWorkArrival w) s = .next s) ∧
     (here → peerControl s w = none → peerPart s w = none → ∃ u, exec (.peerWorkArrival w) s = .next u ∧ u.dropped = s.dropped + 1 ∧ u.mem = s.mem ∧
       (opAnswered w = true → u.replies = s.replies ++ [(w.dev, w.rtag, .failed 0x09)])) ∧
     (here → global → w.op = .load n → reach s0 p w.addr .load = (.at pa ext, s1) → (∀ i, i < n → s1.bad.contains (pa + i) = false) →
       ∃ u, exec (.peerWorkArrival w) s = .next u ∧ u.replies = s1.replies ++ [(w.dev, w.rtag, .value (s1.mem.readN pa n))] ∧ u.mem = s1.mem) ∧
     (here → global → w.op = .store n → w.addr % 65536 + n ≤ 65536 → reach s0 p w.addr .store = (.at pa ext, s1) →
       let u := publishCells s1 (cellsAt pa (leBytes (leNat (w.data.take n)) n)) ext none none
       exec (.peerWorkArrival w) s =
         .next (if w.slot = 32768 then { u with replies := u.replies ++ [(w.dev, w.rtag, .value [])] } else u)) ∧
     (here → w.rtag ≠ 0 → peerControl s w = none → peerPart s w = some p → proxyFor s w.dev w.rtag = some q → s.liveTag q = false →
       exec (.peerWorkArrival w) s = .next { s with dropped := s.dropped + 1 }) ∧
     (here → w.rtag ≠ 0 → peerControl s w = none → peerPart s w = some p → proxyFor s w.dev w.rtag = none → quotaSpent s p = true →
       ∃ u, exec (.peerWorkArrival w) s = .next u ∧ u.dropped = s.dropped + 1 ∧ u.mem = s.mem ∧ u.reqs = s.reqs ∧
         (opAnswered w = true → u.replies = s.replies ++ [(w.dev, w.rtag, .noproxy)])) ∧
     (fresh → peerControl s w = none → peerPart s w = some p → s.cancelled.contains (w.dev, w.rtag) = true →
       exec (.peerWorkArrival w) s = .next { s with dropped := s.dropped + 1 }) ∧
     (fresh → peerPart s w = some p → w.rtag = 0 → s.cancelled.contains (w.dev, 0) = false → streamBusy s.inbox w = true → w.op = .load n →
       exec (.peerWorkArrival w) s = .next { s with inbox := s.inbox ++ [(w, [])] }) ∧
     ((s.ready = false → exec (.peerCancelNotice dev tag) s = .next s ∧ exec (.drainMarker dev tag) s = .next s) ∧
      (s.ready = true → proxyFor s dev tag = some r →
        ((s.req r).state = .live → exec (.peerCancelNotice dev tag) s = .next (leave s r 3 .annulled)) ∧
        exec (.drainMarker dev tag) s = .next (tryFree (s.setReq r { s.req r with marker := true }) r)) ∧
      (s.ready = true → proxyFor s dev tag = none →
        (s.cancelled.contains (dev, tag) = false → exec (.peerCancelNotice dev tag) s = .next { s with cancelled := s.cancelled ++ [(dev, tag)] }) ∧
        ∃ u, exec (.drainMarker dev tag) s = .next u ∧ u.replies = s.replies ++ [(dev, tag, .drained)] ∧ u.cancelled.contains (dev, tag) = false ∧
          u.mem = s.mem ∧ u.reqs = s.reqs)) ∧
     ((s.req r).proxies.contains peer = true →
       exec (.drainAck r peer) s = .next (tryFree (s.setReq r { s.req r with acked := addNat peer (s.req r).acked }) r)) ∧
     (t.wait = some (.peer (.load [(rd, 0)] a n false) false) → slotDoomed s g = false → 0 < rd → rd < 32 → n ≤ 8 →
       (∃ u, exec (.loadComplete g data 0) s = .next u ∧ (u.slot g).xr rd = wd (data.toNat % 2 ^ (8 * n)) ∧ (u.slot g).pc = t.pc + 4 ∧
         (u.slot g).wait = none ∧ OthersSame s u g) ∧
       (∃ u, exec (.loadComplete g data 14) s = .next u ∧ (u.slot g).wait = some (.peer (.load [(rd, 0)] a n false) true) ∧
         (u.slot g).since = s.time ∧ (u.slot g).x = t.x) ∧
       exec (.loadComplete g data 9) s = .next (trapAt s g .perm t.pc a) ∧
       exec (.loadComplete g data 8) s = .next (trapAt s g .xlate t.pc a) ∧
       exec (.loadComplete g data 11) s = .next (trapAt s g .memerr t.pc a)) ∧
     (t.wait = some (.peer (.load [(rd, 0)] a n false) false) → slotDoomed s g = true →
       ∃ u, exec (.loadComplete g data 0) s = .next u ∧ (u.slot g).wait = none ∧ (u.slot g).x = t.x ∧ (u.slot g).pc = t.pc + 4 ∧ OthersSame s u g) ∧
     (t.wait = some (.peer (.word a) false) → slotDoomed s g = false →
       (∃ u, exec (.loadComplete g data 0) s = .next u ∧ (u.slot g).read = t.read ++ [data.setWidth 64] ∧ (u.slot g).pc = t.pc ∧ (u.slot g).x = t.x ∧
         (u.slot g).state = .ready ∧ OthersSame s u g) ∧
       exec (.loadComplete g data 9) s = .next (trapAt s g .perm t.pc a) ∧ exec (.loadComplete g data 11) s = .next (trapAt s g .memerr t.pc a)) ∧
     (t.wait = some (.peer (.atomic rd a n 0) false) → slotDoomed s g = false → 0 < rd → rd < 32 →
       (∃ u, exec (.atomicComplete g old 0) s = .next u ∧ (u.slot g).xr rd = wd (old.toNat % 2 ^ (8 * n)) ∧ (u.slot g).pc = t.pc + 4 ∧
         OthersSame s u g) ∧
       exec (.atomicComplete g old 9) s = .next (trapAt s g .perm t.pc a)) ∧
     (∀ op, t.wait = some (.peer op true) → t.since + nsOf 4096 ≤ s.time →
       exec (.noproxyResend g) s = .next (s.modSlot g (fun t => { t with wait := if t.inst.isSome then some .turn else none, state := .ready }))) ∧
     (∃ u, exec (.linkFailure port) s = .next u ∧ (∀ c e, e ∈ (u.core c).peerOut → e.2 ≠ port) ∧
       (allCmds s = [] → look true port u.ports = false ∧ u.vectors = s.vectors ++ [3] ∧ u.mem = s.mem ∧
         (∀ c m q, m ∈ (u.core c).ni → m.peer = some q → fld (s.reg (peerrouteAddr q)) 0 4 ≠ port) ∧
         (∀ y op, (g, y) ∈ s.slots → y.wait = some (.peer op false) → crosses s port op.addr = true →
           (u.slot g).trapcause = 0x0B#8)))) ∧
  (∀ (s s1 : State) (c k from_ p num : Nat) (m : Msg) (o : Outgoing) (l : List Outgoing) (w : PeerWork), c < 2048 → k < 8 → w.port < 12 →
     let q := s.msgClass c k
     let first := m.score = from_ ∧ m.remote = false ∧ (s.core from_).ni = o :: l ∧ o.dest = c ∧ o.cls = k ∧ o.msg = m ∧ o.peer = none ∧
       (∀ x ∈ l, x.num ≠ o.num)
     let fresh := s.ready = true ∧ (∀ x ∈ s.inbox, x.1 ≠ w)
     let came := { m with rtag := 0, remote := true, peer := peerNumber s w.dev }
     (fresh → peerPart s w = some p → w.rtag = 0 → s.cancelled.contains (w.dev, 0) = false → w.op = .message num c k m → s.partOf c = p →
       (deliver s c k came = some s1 → exec (.peerWorkArrival w) s = .next { s1 with replies := s1.replies ++ [(w.dev, 0, .accepted num)] }) ∧
       (deliver s c k came = none → ∃ u, exec (.peerWorkArrival w) s = .next u ∧ u.replies = s.replies ++ [(w.dev, 0, .refused num)] ∧
         w.dev ∈ (u.core c).turnedAway ∧ u.slots = s.slots ∧ (∀ x j, u.msgClass x j = s.msgClass x j))) ∧
     (fresh → s.cores = [(from_, s.core from_)] → (s.core from_).ni = [o] → o.num = num → o.goesTo s w.dev = true →
       (w.op = .accepted num → ∃ u, exec (.peerWorkArrival w) s = .next u ∧ (u.core from_).ni = [] ∧ u.slots = s.slots ∧ u.mem = s.mem) ∧
       (w.op = .refused num → ∃ u, exec (.peerWorkArrival w) s = .next u ∧ (u.core from_).ni = [{ o with refused := true }] ∧ u.slots = s.slots ∧
         u.mem = s.mem)) ∧
     (first → q.mode = .bound → q.hatch = none → q.trp = false → q.queue.length < 16 → s.liveTag m.rtag = true →
       ∃ u, exec (.messageArrival c k m) s = .next u ∧ (u.msgClass c k).queue = q.queue ++ [m] ∧ (u.core from_).ni = l ∧ u.mem = s.mem ∧
         u.slots = s.slots) ∧
     (first → q.mode = .bound → 16 ≤ q.queue.length → s.liveTag m.rtag = true →
       exec (.messageArrival c k m) s = .next (s.modCore from_ (fun x => { x with ni := { o with refused := true } :: l }))) ∧
     (first → (q.mode = .off ∨ s.liveTag m.rtag = false) → ∃ u, exec (.messageArrival c k m) s = .next u ∧ u.dropped = s.dropped + 1 ∧
       (u.core from_).ni = l ∧ (∀ x j, (u.msgClass x j).queue = (s.msgClass x j).queue)) ∧
     (∃ u, exec (.freeSlotNotice c) s = .next u ∧
       (refusedAt s c = false → u = s) ∧
       (s.cores = [(from_, s.core from_)] → first → o.refused = true → l = [] → u = arriveLocal s from_ o)))

/-- R293-R304, R309, R311, R312: a command its engine can take is checked in order (its header and own fields BADCMD, then its request, then its
completion address; that a malformed command of a request that is not live ends with BADCMD is the model's own choice, log 54) and, accepted, starts as its
operation does; RESUME lets the suspended copy of its address and request go on, and ends done. That its own end writes no word to memory, and gives its DONE
entry state 1, is the model's choice (DEDUCED, log 83). -/
def Obligations.EngineCommands : Prop :=
  ∀ (s s1 : State) (c h er : Nat) (l : List HatchEntry) (x : Cmd) (y : Cmd),
    let takes := fun (i : Instr) (e : Event) (bad : Bool) (t : State) => Takes e s c h l x s1 →
      ((headerBad s1 x (l.any (fun e => e.failed)) = true ∨ bad = true) → exec i s = .next (endCmd s1 x 3 2 0)) ∧
      (headerBad s1 x (l.any (fun e => e.failed)) = false → bad = false → s1.liveTag x.rtag = false →
        exec i s = .next (endCmd s1 x 2 0 0)) ∧
      (headerBad s1 x (l.any (fun e => e.failed)) = false → bad = false → s1.liveTag x.rtag = true →
        completionError s1 x = some er → exec i s = .next (endCmd s1 x 3 er 0)) ∧
      (PassesChecks s1 l x bad → exec i s = .next t)
    takes (.copyLinear c h) (.copyLinear c h) (copyBad s1 x) (startCopy s1 x) ∧
    takes (.copyStrided c h) (.copyStrided c h) (copyBad s1 x) (startCopy s1 x) ∧
    takes (.copyGather c h) (.copyGather c h) (copyBad s1 x) (startCopy s1 x) ∧
    takes (.copyScatter c h) (.copyScatter c h) (copyBad s1 x) (startCopy s1 x) ∧
    takes (.copyResume c h) (.copyResume c h) (copyBad s1 x) (resumeCopy s1 x) ∧
    takes (.collGroup c h) (.collGroup c h) (groupBad s1 x) (({ s1 with colls := s1.colls ++ [x] }).post (.commandCompletion x.id)) ∧
    takes (.cellarRead c h) (.cellarRead c h) (cellarBad s1 x) (startCellar s1 x) ∧
    takes (.cellarWrite c h) (.cellarWrite c h) (cellarBad s1 x) (startCellar s1 x) ∧
    takes (.stairSend c h) (.stairSend c h) (stairBad s1 x) (startSend s1 x) ∧
    takes (.stairReset c h) (.stairReset c h) (stairBad s1 x) (startReset s1 x) ∧
    takes (.stairBuf c h) (.stairBuf c h) (stairBad s1 x) (startBuf s1 x) ∧
    takes (.stairFree c h) (.stairFree c h) (stairBad s1 x) (startFree s1 x) ∧
    (copySpace s1 x = true → startCopy s1 x = endCmd s1 x 3 3 0) ∧
    ((s1.cluster (clusterOf x.core)).copies.find? (fun y => y.suspended && !y.tie && y.words.getD 1 0 = x.words.getD 1 0 && y.rtag = x.rtag)
      = some y →
      let t := (modCmd (payOwed s1 y) y.id (fun z => { z with suspended := false })).post (.commandCompletion y.id)
      (x.done = none → resumeCopy s1 x = t) ∧ (x.done = some h → resumeCopy s1 x = pushDone t x.core h (completionWord 1 0 0))) ∧
    ((∀ y ∈ (s1.cluster (clusterOf x.core)).copies, y.suspended = false) → resumeCopy s1 x = endCmd s1 x 3 2 0)

/-- R298, R302-R304, R308: a command whose end has come writes its completion word and pushes it to its DONE Hatch, a collective's after the bitmap it
waited to write; a suspended copy writes the word it owes; a granule of a copy moves its bytes and
no others; an event at an engine lets the command go on. -/
def Obligations.CommandCompletions : Prop :=
  ∀ (s : State) (x : Cmd) (st err n id src dst h : Nat) (a d : Word),
    let v := completionWord st err n
    let goes := exec (.commandCompletion id) s
    (findCmd s id = none → goes = .next s) ∧
    (findCmd s id = some x →
      (x.ended = true → (x.op < 8 ∨ 11 < x.op ∨ x.left = []) → goes = .next (endCmd s x x.state x.error x.bytes)) ∧
      (x.ended = true → 8 ≤ x.op → x.op ≤ 11 → ∀ k r, x.left = k :: r →
        goes = .next (endMember s { x with left := [] } x.state x.error x.bytes (x.snap.readN 0 k))) ∧
      (x.ended = false → x.owes = true → goes = .next (oweWord s x)) ∧
      (x.ended = false → x.owes = false →
        (x.op ≤ 5 → goes = .next (copyComplete s x)) ∧
        (8 ≤ x.op → x.op ≤ 11 → goes = .next (runCollective s x)) ∧
        (x.op = 12 → goes = .next (runGroup s x)) ∧
        ((x.op = 16 ∨ x.op = 17) → goes = .next (submitPieces s x (x.left.length + 1))) ∧
        (x.op = 20 → x.planned = false → goes = .next (readRecord s x)))) ∧
    (st < 4 → err < 2 ^ 14 → n < 2 ^ 48 → v.toNat = st * 2 ^ 62 + err * 2 ^ 48 + n) ∧
    (x.words.getD 1 0 = a → a ≠ 0 → spaceOf a = .window 0 → a.toNat % 8 = 0 → sizeOk s x.core a 8 = true →
      (endCmd s x st err n).mem.readN (locScratch x.core (fld a 0 18)) 8 = leBytes v.toNat 8) ∧
    (x.words.getD 1 0 = 0 → (endCmd s x st err n).mem = s.mem) ∧
    (x.words.getD 1 0 = 0 → x.done = some h → ((endCmd s x st err n).hatch x.core h).entries = (s.hatch x.core h).entries ++ [{ value := v }]) ∧
    (x.words.getD 1 0 = 0 → findCmd (endCmd s x st err n) x.id = none) ∧
    (x.plan = [(a, d, n)] → x.total = n → 0 < n → n ≤ 128 → x.mask = none → x.wrote = [] → x.left = [0] → sramBase ≤ src → sramBase ≤ dst →
      spans s x.core x.user .engineIn a n = ([.run src 0 0 0 n], s) → spans s x.core x.user .engineOut d n = ([.run dst 0 0 0 n], s) →
      (∀ i, i < n → s.bad.contains (src + i) = false ∧ x.snap.read (src + i) = s.mem.read (src + i)) →
      ∃ t y, granule s x 0 = .done t y ∧ t.mem.readN dst n = s.mem.readN src n ∧ MemorySame s t dst n ∧ y.left = [])

/-- R305-R308: a collective command of a registered core takes its rank's next index and waits until every member's is there, those on peers told of it;
unregistered it fails with GROUP, and its match with the error of a peer that cannot be told. (How a peer is told is the model's own form, log 46; so is what a
peer answers, log 7, and which member of a match that fails gets which error, log 40.) ALLGATHER puts the sources side by side, BCAST gives the root's, ALLREDUCE combines them element by element in rank order, and REDSCAT
gives each rank its part. -/
def Obligations.CollectiveCommands : Prop :=
  ∀ (s s1 : State) (c h r n own : Nat) (l : List HatchEntry) (x : Cmd) (g : Group) (bs : Nat → List Byte),
    let j := indexAhead g r 0
    let s3 : State := { (countIndex s1 g r).2 with colls := s1.colls ++ [{ x with seq := j }] }
    let told := tellPeers s3 g x.rtag r j (matchFields x) false []
    let lives := s1.liveTag x.rtag = true
    let takes := fun (i : Instr) (e : Event) => Takes e s c h l x s1 → headerBad s1 x (l.any (fun e => e.failed)) = false →
      (groupOf s1 x = none → collBad x 0 = false → lives → exec i s = .next (endCmd s1 x 3 8 0)) ∧
      (groupOf s1 x = some g → rankOf g c = some r → collBad x g.members.length = false → lives →
        completionError s3 x = none → routeError s3 g.members = none → (∀ d ∈ g.dead, d.1 ≠ j) → collSpace s3 x g.members.length = false →
        exec i s = .next (match told.1 with
          | none => if matchFull told.2 g j then told.2.post (.commandCompletion x.id) else told.2
          | some e => killMatch told.2 g j 3 e))
    let es := collBytes x
    let parts := fun (k : Nat) => (List.range (collCount x)).flatMap (fun i =>
      (leBytes (combElem (collType x) (collRed x) (elemAt es (bs 0) (k + i)) (elemAt es (bs 1) (k + i))) es).map some)
    takes (.collAllreduce c h) (.collAllreduce c h) ∧ takes (.collAllgather c h) (.collAllgather c h) ∧
    takes (.collRedscat c h) (.collRedscat c h) ∧ takes (.collBcast c h) (.collBcast c h) ∧
    (x.op = 9 → (∀ r, r < n → (bs r).length = collCount x * es) → collResult x own n (fun r => some (bs r)) = ((List.range n).flatMap bs).map some) ∧
    (x.op = 11 → (bs (collRoot x)).length = collCount x * es → collResult x own n (fun r => some (bs r)) = (bs (collRoot x)).map some) ∧
    (x.op = 8 → collResult x own 2 (fun r => some (bs r)) = parts 0) ∧
    (x.op = 10 → collResult x own 2 (fun r => some (bs r)) = parts (own * collCount x)) ∧
    (∀ a b, combElem 2 0 a b = (a + b) % 2 ^ 32)

/-- R309, R310, R399, R429, R430: a Cellar command is refused for a namespace not assigned, blocks beyond it, or a drive that is not ready, and else goes as
pieces of 32 blocks, a READ's submitted as an NVMe command; the drive's completion of a READ's piece writes its data, that of a page service makes the page
resident; a drive late by 30 seconds is reset, and a reset drive is not ready. That a namespace on another engine's drive counts as not assigned (error 9) is the
model's choice (DESIGN CHOICE, log 16), and so is the word that gives a failed service's frame back to the pool's head (DESIGN CHOICE, log 41). -/
def Obligations.StorageEvents : Prop :=
  ∀ (s : State) (x : Cmd) (k q f loc va st i : Nat) (leaf : Word) (data : List Byte) (ns : Namespace) (v : Service),
    let asg := s.reg (nsassignAddr x.part (cellarNs x))
    let inSpace := leavesSpace s x.core (cellarAddr x) (cellarCount x * 4096) = false
    let assigned := bit asg 63 = true ∧ fld asg 32 3 = dieOf x.core * 2 + (s.hatch x.core x.hatch).arg % 2
    let p := x.pieces.getD k (0, 0, 0)
    let landed := landPage s v f data
    (inSpace → ¬ assigned → startCellar s x = endCmd s x 3 9 0) ∧
    (inSpace → assigned → namespaceOf s (fld asg 32 3) (fld asg 0 32) = some ns → ns.format = true →
      (ns.blocks < cellarFirst x + cellarCount x → startCellar s x = endCmd s x 3 10 0) ∧
      (cellarFirst x + cellarCount x ≤ ns.blocks → (s.drive (fld asg 32 3)).ready = false → startCellar s x = endCmd s x 3 15 0)) ∧
    (32 * i < k → (cellarPieces (cellarFirst x) k (cellarAddr x))[i]? =
      some (cellarFirst x + 32 * i, cellarAddr x + wd (131072 * i), min 32 (k - 32 * i))) ∧
    (x.op = 16 → x.left = [k] → (outstanding x).length < 16 → driveLoad (modCmd s x.id (fun _ => x)) x.port < driveSlots →
      queuedServices (modCmd s x.id (fun _ => x)) x.port = [] → (s.drive x.port).ready = true → x.words.getD 1 0 = 0 →
      spans s x.core x.user .engineOut p.2.1 (p.2.2 * 4096) = ([.run loc va leaf 0 (p.2.2 * 4096)], s) →
      (submitPieces s x 2).nvme = s.nvme ++
        [{ id := 4096 * x.id + k, port := x.port, nsid := fld asg 0 32, write := false, first := p.1, blocks := p.2.2, data := [] }]) ∧
    (s.services = [] → s.cellars = [x] → x.id = st → x.ended = false → k < 4096 → (outstanding x).contains k = true → x.op = 16 → x.error = 0 →
      s.liveTag x.rtag = true → x.left = [] → x.words.getD 1 0 = 0 →
      spans s x.core x.user .engineOut p.2.1 (p.2.2 * 4096) = ([.run loc va leaf 0 (p.2.2 * 4096)], s) →
      ∃ u, exec (.nvmeCompletion (4096 * st + k) 0 data) s = .next u ∧
        u.mem.readN loc (p.2.2 * 4096) = (data ++ List.replicate (p.2.2 * 4096) 0).take (p.2.2 * 4096)) ∧
    (s.services = [v] → v.frame = some f →
      (st ≠ 0 → exec (.nvmeCompletion (4096 * v.id) st data) s = .next (serveQueued (failPage (putFrame s v.die v.part f) v.part v.page .storage) v.port)) ∧
      (read64 landed.mem v.leafPa = v.leaf → exec (.nvmeCompletion (4096 * v.id) 0 data) s = .next (serveQueued (serviceOver
        (publishCells landed (cellsAt v.leafPa (leBytes (wd (v.leaf.toNat - fld v.leaf 16 36 * 2 ^ 16 + f) ||| 0x8040#64).toNat 8)) 0 none none) v) v.port))) ∧
    (s.services = [] → s.cellars = [] → exec (.nvmeCompletion k st data) s = .next s) ∧
    (q < 8 →
      (s.services = [] → s.cellars = [x] → x.port = q → x.ended = false → outstanding x = [k] →
        (look 0 k x.times + 30 * 10 ^ 9 ≤ s.time → exec (.driveTimeout q) s = .next (resetDrive s q)) ∧
        (s.time < look 0 k x.times + 30 * 10 ^ 9 → exec (.driveTimeout q) s = .next s)) ∧
      (s.cellars = [] → s.services = [v] → v.port = q →
        (v.frame = some f → v.since + 30 * 10 ^ 9 ≤ s.time → exec (.driveTimeout q) s = .next (resetDrive s q)) ∧
        ((v.frame = none ∨ s.time < v.since + 30 * 10 ^ 9) → exec (.driveTimeout q) s = .next s)) ∧
      ((s.drive q).present = true → exec (.driveLinkDown q) s = .next (resetDrive s q) ∧
        exec (.driveControllerReady q) s = .next { s with drives := put q { s.drive q with ready := true } s.drives }) ∧
      (s.services = [] → s.cellars = [] → resetDrive s q =
        { s with drives := put q { s.drive q with ready := false } s.drives, vectors := s.vectors ++ [4] }))

/-- R69, R311-R314, R431: SEND joins its direction's queue, RESET fails the SENDs pushed before it, in the queue and in the Hatches, and goes to the receiver, BUF
makes the ring, FREE raises the freed number; the receiver answers a record before the expected number DUP, one after it ORDER, counts one of a dead
request, and writes and announces the one it expects, and lets one that finds no ring or no room wait; a RESET gives a ring, made or not, its numbers, and takes the
arrival words past the committed number from its Hatch (R314). That what another partition sends to a ring is refused (R406) with PERM (log 17), and that a failed
die link ends only Stair commands (log 66), are the model's choice (DESIGN CHOICE). -/
def Obligations.StairEvents : Prop :=
  ∀ (s : State) (x : Cmd) (loc : Nat), 
    let d := dirOf s x
    let up := look false (d / 2) s.dieLinks = true
    let inSpace := leavesSpace s x.core (stairAddr x) 256 = false
    let t := s.stair d
    let n := sendNumber x
    (leavesSpace s x.core (stairAddr x) 256 = true → startSend s x = endCmd s x 3 3 0) ∧
    (inSpace → ¬ up → startSend s x = endCmd s x 3 15 0) ∧
    (inSpace → up → startSend s x = readRecord (({ s with sends := s.sends ++ [x] }).modStair d (fun t => { t with queue := t.queue ++ [x.id] })) x) ∧
    (¬ up → startReset s x = endCmd s x 3 15 0) ∧
    (∀ y ys, up → (s.sends = [] ∨ (s.sends = [y] ∧ (s.stair d).queue = y.id :: ys ∧ y.ended = false)) →
      startReset s x = (let t := resetQueued (if s.sends = [] ∨ x.pushed ≤ y.pushed then s else endSend s y 3 13 0) d x
        ({ t with sends := t.sends ++ [{ x with seq := d }] }).post (.stairResetArrival d x.id))) ∧
    (∀ c h before e l f, l.length = 3 → hNw e.value = 3 → hOp e.value = 20 →
      let y := cmdOf s c h (e :: l)
      let t := endCmd { s with nextId := s.nextId + 1 } y 3 13 0
      resetFrom s c h before (e :: l) [] (f + 2) = if y.pushed < before then t.setHatch c h { t.hatch c h with cmd := [] }
        else s.setHatch c h { s.hatch c h with cmd := e :: l }) ∧
    (leavesSpace s x.core (stairAddr x) (256 * bufSlots x) = false → startBuf s x = endCmd (s.modStair d (fun t =>
      { t with made := true, base := stairAddr x, core := x.core, hatch := x.hatch, user := x.user, n := bufSlots x, e := bufFirst x,
               f := (bufFirst x + 2 ^ 32 - 1) % 2 ^ 32 })) x 1 0 0) ∧
    (t.made = true → s.partOf t.core ≠ x.part → startFree s x = endCmd s x 3 5 0) ∧
    (0 < (BitVec.ofNat 32 (stairNumber x) - BitVec.ofNat 32 t.f).toInt → (t.made = false ∨ s.partOf t.core = x.part) →
      startFree s x = endCmd (s.modStair d (fun t => { t with f := stairNumber x })) x 1 0 0) ∧
    (∀ d, d < 8 → headRecord s d = some x →
      let t := s.stair d
      let arrives := exec (.stairRecordArrival d) s
      let ahead := (BitVec.ofNat 32 n - BitVec.ofNat 32 t.e).toInt
      let room := (BitVec.ofNat 32 n - BitVec.ofNat 32 t.f).toInt ≤ t.n ∧ arrivalRoom s d = true
      (t.made = false → arrives = .next s) ∧
      let own := t.made = true ∧ s.partOf t.core = x.part
      (t.made = true → s.partOf t.core ≠ x.part → arrives = .next (endSend s x 3 5 0)) ∧
      (own → ahead < 0 → arrives = .next (endSend s x 3 11 0)) ∧
      (own → 0 < ahead → arrives = .next (endSend s x 3 12 0)) ∧
      (own → ahead = 0 → s.liveTag x.rtag = false →
        arrives = .next (endSend (s.modStair d (fun t => { t with e := (t.e + 1) % 2 ^ 32 })) x 2 0 0)) ∧
      (own → ahead = 0 → s.liveTag x.rtag = true → ¬ room → arrives = .next s) ∧
      (own → ahead = 0 → s.liveTag x.rtag = true → room → x.words.getD 1 0 = 0 → x.done = none → sramBase ≤ loc →
        spans s t.core t.user .engineOut (t.base + wd (n % t.n * 256)) 256 = ([.run loc 0 0 0 256], s) →
        ∃ u, arrives = .next u ∧ (u.stair d).e = (t.e + 1) % 2 ^ 32 ∧ u.mem.readN loc 256 = x.snap.readN 0 256 ∧ MemorySame s u loc 256 ∧
          (u.hatch t.core t.hatch).entries = (s.hatch t.core t.hatch).entries ++
            [{ value := wd (n * 2 ^ 32 + x.rtag % 2 ^ 18), rtag := x.rtag }])) ∧
    (∀ d, d < 8 → s.sends = [x] → x.op = 21 → x.seq = d → x.ended = false → (s.stair d).made = false →
      exec (.stairResetArrival d x.id) s = .next (endCmd (s.modStair d (fun t =>
        { t with e := (stairNumber x + 1) % 2 ^ 32, f := stairNumber x })) x 1 0 0)) ∧
    (∀ d, d < 8 → s.sends = [x] → x.op = 21 → x.seq = d → x.ended = false → (s.stair d).made = true →
      let t := s.stair d
      let h := s.hatch t.core t.hatch
      let z := s.modStair d (fun t => { t with e := (stairNumber x + 1) % 2 ^ 32, f := stairNumber x })
      (s.partOf t.core ≠ x.part → exec (.stairResetArrival d x.id) s = .next (endCmd s x 3 5 0)) ∧
      (s.partOf t.core = x.part → h.kind = 5 → bit (wd h.arg) 1 = true → exec (.stairResetArrival d x.id) s = .next (endCmd (z.setHatch t.core t.hatch
        { h with entries := h.entries.filter (fun e => decide ((BitVec.ofNat 32 (fld e.value 32 32) - BitVec.ofNat 32 (stairNumber x)).toInt ≤ 0)) }) x 1 0 0)) ∧
      (s.partOf t.core = x.part → (h.kind ≠ 5 ∨ bit (wd h.arg) 1 = false) → exec (.stairResetArrival d x.id) s = .next (endCmd z x 1 0 0))) ∧
    (∀ k, k < 4 → s.sends = [] → exec (.dieToDieLinkFailure k) s = .next { s with dieLinks := put k false s.dieLinks }) ∧
    (∀ k, k < 4 → exec (.dieToDieLinkFailure k) s = .next (failStair s k))

/-- R139, R140, R395-R403: a walk that ends well makes its held slot ready, with no record of its fault held at its core, and a fault it meets is in the
fault buffer once; dirty logs merge, by one core or by GO, which reads 1 until it is done, and stores that waited for their room are replayed;
FBHEAD returns each entry once; RETRY lets the held accesses try again, FAIL traps them, once, with the address, or that of the lowest of the context's discarded
entries (R398; the one trap for both is the model's reading, DEDUCED, log 13); an encoding that is no instruction, and a fetch outside
memory, trap. -/
def Obligations.TranslationEvents : Prop :=
  ∀ (s : State) (g c cl d va l r i : Nat) (e : FaultEntry) (es : List FaultEntry) (enc : Word),
    g < 32768 → c < 2048 → cl < 64 → d < 4 →
    let t := s.slot g
    let b := s.faultBuf d
    let page := e.va / 65536
    let goesOn := fun (s : State) => s.modSlot g (fun t => { t with wait := if t.inst.isSome then some .turn else none, state := .ready })
    let held := t.wait = some (.fault va) ∧ va / 65536 = page ∧ s.partOf (coreOf g) = e.part ∧ dieOf (coreOf g) = d ∧
      b.entries.find? (fun x => x.index = i) = some e ∧ (g, t) ∈ s.slots ∧ (∀ y, (g, y) ∈ s.slots → y = t)
    (t.wait = some (.fault va) →
      ((tlbFind s (coreOf g) va).isSome = true →
        exec (.walkComplete g) s = .next (goesOn (dropRecord s (coreOf g) t.ctx va))) ∧
      (tlbFind s (coreOf g) va = none → walk s (s.partOf (coreOf g)) va = .fault l r → d = dieOf (coreOf g) →
        let p := s.partOf (coreOf g)
        (b.entries.any (fun e => e.covers p va) = true → exec (.walkComplete g) s = .next (dropRecord s (coreOf g) t.ctx va)) ∧
        (b.entries.any (fun e => e.covers p va) = false → b.entries.length < 1024 → ∃ u x, exec (.walkComplete g) s = .next u ∧
          (u.faultBuf d).entries = b.entries ++ [x] ∧ x.va = va ∧ x.part = p ∧ x.asid = s.asidOf p ∧ x.level = l ∧ x.reason = r ∧ x.kind = t.fkind ∧
          x.rtag = t.rtag ∧ x.core = coreOf g ∧ x.shown = false ∧ u.slots = s.slots ∧ u.mem = s.mem))) ∧
    (exec (.dirtyLogMerge c) s = .next (mergeLog s c) ∧ ((mergeDirty s c).core c).dirtyLog = [] ∧
      ((s.core c).sideLog = [] → mergeLog s c = mergeDirty s c)) ∧
    (∃ u, exec (.dharvestGo cl) s = .next u ∧ (u.cluster cl).harvest = true ∧ Event.harvestComplete cl ∈ u.pending ∧
      ((∀ k ∈ clusterCores cl, (s.core k).sideLog = []) → ∀ k ∈ clusterCores cl, (u.core k).dirtyLog = [])) ∧
    exec (.harvestComplete cl) s = .next (s.modCluster cl (fun k => { k with harvest := false })) ∧
    (b.entries = e :: es → e.shown = false → (∀ x ∈ es, x.index ≠ e.index) → ∃ u, exec (.fbheadRead d) s = .next u ∧ u.fbhead = faultWord e ∧
      (u.faultBuf d).entries = { e with shown := true } :: es) ∧
    ((∀ x ∈ b.entries, x.shown = true) → ∃ u, exec (.fbheadRead d) s = .next u ∧ u.fbhead = BitVec.ofNat 128 (3 * 2 ^ 116) ∧
      (u.faultBuf d).entries = b.entries) ∧
    ((∀ x ∈ b.entries, x.index ≠ i) → exec (.fbrespRetry d i) s = .next s ∧ exec (.fbrespFailXlate d i) s = .next s ∧
      exec (.fbrespFailPerm d i) s = .next s) ∧
    let gone := goneOf (s.core (coreOf g)) t.ctx page
    let fails := fun (ev : Instr) (code : BitVec 8) => ∃ u, exec ev s = .next u ∧ (u.slot g).logFailed = none ∧ (u.slot g).trapcause = code ∧ (u.slot g).trappc = t.pc ∧
      (gone = [] → (u.slot g).trapval = wd va) ∧ (∀ a ∈ gone, (∀ b ∈ gone, a ≤ b ∧ b < 2 ^ 64) → (u.slot g).trapval = wd a)
    (held →
      (b.held = [] → s.services = [] → (∀ k ∈ s.cores, k.2.sideLog = []) → ∃ u, exec (.fbrespRetry d i) s = .next u ∧ (u.slot g).state = .ready ∧
        (u.slot g).wait = (if t.inst.isSome = true then some .turn else none) ∧ (u.slot g).pc = t.pc ∧ (u.faultBuf d).entries = b.entries.filter (fun x => x.index != e.index) ∧ u.mem = s.mem) ∧
      (t.occupied = true → t.logFailed = none → fails (.fbrespFailXlate d i) 0x08#8 ∧ fails (.fbrespFailPerm d i) 0x09#8)) ∧
    (t.occupied = true → decodeHalves (enc.setWidth 16) ((enc >>> 16).setWidth 16) = none →
      exec (.illegalOp g enc) s = .next (trapAt s g .illegalOp t.pc enc)) ∧
    (t.occupied = true → (spaceOf t.pc = .none ∨ ∃ n, spaceOf t.pc = .window n ∨ spaceOf t.pc = .peer n) →
      ∃ u, exec (.fetchFault g) s = .next u ∧ (u.slot g).trapcause = (if spaceOf t.pc = .none then 0x06#8 else 0x05#8) ∧ (u.slot g).trappc = t.pc ∧
        (u.slot g).trapval = t.pc ∧ OthersSame s u g ∧ u.mem = s.mem)

/-- R366-R373, R383, R387, R394, R407-R412: firmware's writes: each register keeps the bits it has, NSMAP, PLARDER, PWRLIM and PEERIN among them, and
where the manual ignores a value nothing changes; a write made while firmware configures the device is noted for measurement 5 (R438; what is noted of an
ignored one is the model's own, log 20); DRAIN begins only in RUN and ASSIGN acts only in IDLE. -/
def Obligations.ConfigurationWrites : Prop :=
  ∀ (s : State) (d p q l cl t a : Nat) (v : Word), d < 4 → p < 16 → q < 2176 → l < 4 → cl < 64 → t < 512 →
    let n := poolSize s d p
    let x := fld v 0 12
    let heldNow := (poolTail s d p + n - poolHead s d p) % n
    let added := (x + n - poolTail s d p) % n
    let shares := sumN (((List.range 16).filter (· != p)).map (fun q => fld (s.reg (walkshareAddr cl q)) 0 5))
    let sets := fun (i : Instr) (at_ : Nat) (u : State) => exec i s = .next (noteConfig u at_ v)
    let plain := fun (off : Nat) (mask : Word) => sets (.registerWrite (busAddr d off) v) (busAddr d off) (s.setReg (busAddr d off) (v &&& mask))
    (∃ u, sets (.dqctlWrite d p v) (dqctlAddr d p) u ∧ (s.levels = [] → u = s.setReg (dqctlAddr d p) (v &&& 0x000000FFFFFFFF7F#64))) ∧
    ((s.level q l).entries = [] → (s.level q l).ring = [] →
      sets (.ringdWrite q l v) (ringdAddr q l) (s.setReg (ringdAddr q l) (v &&& 0x00FFFFFFFFFFFFC0#64))) ∧
    (((s.level q l).entries ≠ [] ∨ (s.level q l).ring ≠ []) → sets (.ringdWrite q l v) (ringdAddr q l) s) ∧
    sets (.ffpoolWrite d p v) (ffpoolAddr d p)
      (((s.setReg (ffpoolAddr d p) (v &&& 0xFFFFFFFFFFFFE000#64)).setReg (ffheadAddr d p) 0).setReg (fftailAddr d p) 0) ∧
    ((n ≤ x ∨ n ≤ heldNow + added) → sets (.fftailWrite d p v) (fftailAddr d p) s) ∧
    (x < n → heldNow + added < n → sets (.fftailWrite d p v) (fftailAddr d p) (s.setReg (fftailAddr d p) (wd x))) ∧
    (shares + fld v 0 5 ≤ 16 → sets (.walkshareWrite cl p v) (walkshareAddr cl p) (s.setReg (walkshareAddr cl p) (v &&& 31#64))) ∧
    (16 < shares + fld v 0 5 → sets (.walkshareWrite cl p v) (walkshareAddr cl p) s) ∧
    sets (.tilecapWrite t v) (tilecapAddr t) (retarget (s.setReg (tilecapAddr t) (v &&& 15#64)) t) ∧
    plain 0x108 0x000FFFFFFFFFF000#64 ∧ plain 0x110 3#64 ∧
    sets (.registerWrite (busAddr d (0x80 + 8 * p)) v) (busAddr d (0x80 + 8 * p))
      (s.setLaunchQ d p { s.launchQ d p with disc := fld v 32 16, fulls := fld v 16 16 }) ∧
    (∀ off, off % 8 = 0 → ((0x20000 ≤ off ∧ off < 0x30000 ∧ off % 128 < 64) ∨ (0x30000 ≤ off ∧ off < 0x30020) ∨ (0x30100 ≤ off ∧ off < 0x30130)) →
      plain off 0xEFEFEFEFEFEFEFEF#64) ∧
    (d = 0 → plain (0x40000 + 8 * p) 0x000FFFFFFFFFE001#64 ∧ plain (0x40080 + 8 * p) 0x3FFFF#64 ∧
      (fld v 0 5 ≠ 1 → fld v 0 5 ≠ 2 → fld v 0 5 < 25 → plain (0x40100 + 8 * p) 0x1FFFFFFFFFFF001F#64) ∧
      ((fld v 0 5 = 1 ∨ fld v 0 5 = 2 ∨ 25 ≤ fld v 0 5) → sets (.registerWrite (busAddr 0 (0x40100 + 8 * p)) v) (busAddr 0 (0x40100 + 8 * p)) s) ∧
      sets (.registerWrite (busAddr 0 0x40180) v) (busAddr 0 0x40180) (s.setReg (busAddr 0 0x40180) (wd (min (fld v 0 12) 2400))) ∧
      (∀ k, k < 64 → plain (0x41000 + 8 * k) 0x8000FFFF0000000F#64) ∧ (∀ k, k < 256 → plain (0x41200 + 8 * k) 0x8000FFFF000F000F#64) ∧
      (∀ k, k < 4096 → plain (0x42000 + 8 * k) 0x80000007FFFFFFFF#64)) ∧
    (registerOf a = .none → sets (.registerWrite a v) a s) ∧
    ((s.cluster cl).state ≠ 0 → exec (.clustctlDrain cl) s = .next s) ∧
    ((s.cluster cl).state = 0 → exec (.clustctlDrain cl) s = .next (drainStep (s.modCluster cl (fun k => { k with state := 1, drained := 0 })) cl)) ∧
    ((s.cluster cl).state ≠ 2 → exec (.clustctlAssign cl p) s = .next s) ∧
    ((s.cluster cl).state = 2 → ∃ u, exec (.clustctlAssign cl p) s = .next u ∧ (u.cluster cl).state = 0 ∧
      ∀ k ∈ clusterCores cl, (u.core k).part = BitVec.ofNat 4 p)

/-- R412-R419, R427, R428: a voltage step settles or goes on; a period above PWRLIM acts and ten raise vector 5; ten bad measurements in a row, or a
failed route, set TSLOST and ten good ones clear it, each with vector 1; a period wholly below 95 % of PWRLIM undoes the last action; an invalidated translation
is dropped, and its invalidation completes once no access uses it; a host write enters memory, and a host read is given what stands there. In what order the
controller undoes its actions, that a cap is kept until it comes back to 255, and that the greater of a period's total and its peak is what is held against 95 %
of PWRLIM, are the model's readings (DEDUCED, log 22). -/
def Obligations.PowerTimeAndHost : Prop :=
  ∀ (s : State) (t done page a : Nat) (up route w : Bool) (off : Int) (r : PowerReading) (bs : List Byte), t < 512 →
    let k := s.tile t
    let good := route = true ∧ -20 ≤ off ∧ off ≤ 20
    (k.moving = some (up, done) → done ≤ s.time → exec (.dvfsStep t) s = .next
      (retarget (s.modTile t (fun k => { k with voltage := if up then k.voltage + 1 else k.voltage - 1, moving := none })) t)) ∧
    ((k.moving = none ∨ ∃ m, k.moving = some m ∧ s.time < m.2) → exec (.dvfsStep t) s = .next s) ∧
    (k.moving = none →
      (k.voltage = levelVoltage (targetLevel s t) → ((retarget s t).tile t).level = targetLevel s t) ∧
      (k.voltage < levelVoltage (targetLevel s t) → ((retarget s t).tile t).moving = some (true, s.time + 100)) ∧
      (levelVoltage (targetLevel s t) < k.voltage → ((retarget s t).tile t).moving = some (false, s.time + 100))) ∧
    ((k.moving ≠ none ∨ k.voltage ≠ levelVoltage (targetLevel s t)) → ((retarget s t).tile t).level = min k.settled (targetLevel s t)) ∧
    (r.total ≤ powerLimit s → 100 * r.total < 95 * powerLimit s → 100 * r.peak < 95 * powerLimit s → r.tiles = [] →
      (∀ cl, s.actions = [.cap cl] → let cap := (s.cluster cl).memcap
        ∃ u, exec (.powerPeriod r) s = .next u ∧ (cap = 255 → (u.cluster cl).memcap = 0 ∧ u.actions = []) ∧
          (0 < cap → cap ≠ 255 → (u.cluster cl).memcap = min 255 (2 * cap) ∧ u.actions = [.cap cl])) ∧
      (∀ c, s.actions = [.removal [c]] → ∃ u, exec (.powerPeriod r) s = .next u ∧ (u.core c).removed = (s.core c).removed - 1 ∧ u.actions = [])) ∧
    (r.total ≤ powerLimit s → 95 * powerLimit s ≤ 100 * max r.peak r.total → r.tiles = [] → exec (.powerPeriod r) s = .next { s with power := r.total, overTime := 0 }) ∧
    (powerLimit s < r.total → r.tiles = [] → (s.cluster 0).memcap = 0 → s.actions = [] → ∃ u, exec (.powerPeriod r) s = .next u ∧
      u.power = r.total ∧ u.overTime = s.overTime + 1 ∧ (u.cluster 0).memcap = 127 ∧ u.actions = [.cap 0] ∧
      u.vectors = s.vectors ++ (if s.overTime = 9 then [5] else [])) ∧
    (good → ∃ u, exec (.timeSync off route) s = .next u ∧ u.goodRuns = s.goodRuns + 1 ∧ u.badRuns = 0 ∧
      u.tslost = (s.tslost && decide (s.goodRuns + 1 < 10)) ∧ u.vectors = s.vectors ++ (if s.tslost && decide (10 ≤ s.goodRuns + 1) then [1] else [])) ∧
    (¬ good → ∃ u, exec (.timeSync off route) s = .next u ∧ u.goodRuns = 0 ∧ u.badRuns = s.badRuns + 1 ∧
      u.tslost = (s.tslost || !route || decide (10 ≤ s.badRuns + 1)) ∧
      u.vectors = s.vectors ++ (if !s.tslost && (!route || decide (10 ≤ s.badRuns + 1)) then [1] else [])) ∧
    (∃ u, exec (.atsInvalidation page) s = .next u ∧ (∀ x, x ≠ page → (x ∈ u.atc ↔ x ∈ s.atc)) ∧ page ∉ u.atc ∧ u.mem = s.mem ∧
      (pageUsed s page = false → page ∈ u.atsDone) ∧ (pageUsed s page = true → page ∈ u.atsWaits)) ∧
    (∃ u, exec (.hostMemAccess w a bs) s = .next u ∧
      (w = true → a + bs.length ≤ s.hdm → u.mem.readN a bs.length = bs ∧ MemorySame s u a bs.length) ∧
      (w = false → u.mem = s.mem ∧ (a + bs.length ≤ s.hdm → s.hostLag = [] → u.hostData = s.hostData ++ [s.mem.readN a bs.length])) ∧
      (s.hdm < a + bs.length → (a < 2 ^ 51 ∨ 2 ^ 52 < a + bs.length) → u = s))

/-- R63, R419, R435-R441: reset returns to stage 0 and keeps flash, fuses and the host's memory (the model's choice, log 45), all other memory reading
zero (log 2); each stage is entered only after the one before, and one that fails sets FAIL and vector 0; READY comes last. An image is accepted for its
lengths, key digest, signature and security version alone; a delivered one goes to the slot not in use, and the rollback counter only rises. R438, R439:
measurements once recorded stay; every attestation request is answered: with Busy before stage 3, as unexpected out of SPDM's order, as unsupported if it is
none of R439's six, and else with its own content, digests and signatures only of the algorithms settled. The bytes of the errors, the parts of an answer and their order are the model's own (log
10). -/
def Obligations.BringUpAndAttestation : Prop :=
  (∀ (s : State) (ok : Bool) (cal : Calibration) (oks : List Bool) (ptm : Word) (img : Image) (n : Nat) (ws : List (Nat × Word)),
     let at_stage := fun (k : Nat) => s.stage = k ∧ s.failed = false
     let notAt := fun (k : Nat) => s.stage ≠ k ∨ s.failed = true
     let enters := fun (i : Instr) (k : Nat) (ok : Bool) => ∃ u, exec i s = .next u ∧ u.stage = k ∧ u.failed = !ok ∧ u.ready = s.ready ∧
       u.vectors = s.vectors ++ (if ok then [] else [0])
     (∃ u, exec .deviceReset s = .next u ∧ u.stage = 0 ∧ u.ready = false ∧ u.failed = false ∧ u.primary = s.primary ∧ u.backup = s.backup ∧
       u.keyDigest = s.keyDigest ∧ u.rollback = s.rollback ∧ u.slots = [] ∧ u.cores = [] ∧
       (s.hostLag = [] → (∀ a, 2 ^ 51 ≤ a → a < 2 ^ 52 → u.mem.read a = s.mem.read a) ∧ (∀ a, a < 2 ^ 51 → u.mem.read a = 0)) ∧
       (∀ x, s.hostLag = [x] → u.mem.read x.1 = x.2.1)) ∧
     (at_stage 0 → enters (.romSelfCheck ok) 1 ok) ∧ (notAt 0 → exec (.romSelfCheck ok) s = .next s) ∧
     (at_stage 1 → enters .firmwareVerify 2 (chosen s).isSome) ∧ (notAt 1 → exec .firmwareVerify s = .next s) ∧
     (accepts s img = true ↔ img.svn < 64 ∧ img.publicKey.length = 48 ∧ img.signature.length = 16224 ∧ sha256 img.publicKey = s.keyDigest ∧
       Slh.verify img.publicKey (imageText img) img.signature = true ∧ s.rollback ≤ img.svn) ∧
     (s.primary = some img → accepts s img = true → chosen s = some (false, img)) ∧
     (s.primary = none → s.backup = some img → accepts s img = true → chosen s = some (true, img)) ∧
     (at_stage 2 → enters (.calibration cal) 3 (cal.hbm && cal.links.getD 0 false && cal.links.getD 1 false && cal.links.getD 2 false && cal.links.getD 3 false)) ∧
     (notAt 2 → exec (.calibration cal) s = .next s) ∧
     (at_stage 3 → (∃ u, exec (.memoryInit oks) s = .next u ∧ u.tags = [] ∧ u.bad = [] ∧ u.reqs = [] ∧ u.levels = [] ∧ u.larders = [] ∧
         (∀ a, a < 2 ^ 51 → u.mem.read a = 0)) ∧
       enters (.memoryInit oks) 4 ((List.range 8).all (fun i => oks.getD i false))) ∧
     (notAt 3 → exec (.memoryInit oks) s = .next s) ∧
     (at_stage 4 → enters (.firmwareConfig ok ptm []) 5 ok ∧
       exec (.firmwareConfig ok ptm ws) s = .next (enter (ws.foldl firmwareWrite { s with stage := 5, time := ptm.toNat, configured := ws }) 5 ok)) ∧
     (notAt 4 → exec (.firmwareConfig ok ptm ws) s = .next s) ∧
     (at_stage 5 → ∃ u, exec .setReady s = .next u ∧ u.stage = 6 ∧ u.ready = true ∧ u.vectors = s.vectors ++ [0]) ∧
     (notAt 5 → exec .setReady s = .next s) ∧
     (3 ≤ s.stage → exec (.firmwareDelivery img) s = .next (if s.usedBackup then { s with primary := some img } else { s with backup := some img })) ∧
     (3 ≤ s.stage → n < 64 → exec (.rollbackRaise n) s = .next { s with rollback := max s.rollback n })) ∧
  (∀ (s : State) (sha slh signed : Bool) (off len i : Nat) (m nonce : List Byte),
     let out := fun (m : List Byte) => { s with spdm := s.spdm ++ [m] }
     let answers := fun (i : Instr) (need : Nat) (u : State) =>
       (s.stage < 3 → exec i s = .next (out spdmBusy)) ∧
       (3 ≤ s.stage → s.spdmStage < need → exec i s = .next (out spdmUnexpected)) ∧
       (3 ≤ s.stage → need ≤ s.spdmStage → exec i s = .next u)
     let asked := (if i = 0 then [BitVec.ofNat 8 s.measured.length]
       else (s.measured.filter (fun m => i = 255 || m.1 = i)).flatMap (fun m => BitVec.ofNat 8 m.1 :: m.2)) ++ nonce
     (s.stage < 3 → runEvent (.spdmRequest i) s = .next (out spdmBusy)) ∧
     (3 ≤ s.stage → runEvent (.spdmRequest i) s = .next (out [0x13, 0x7F, 0x07, BitVec.ofNat 8 i])) ∧
     answers .getVersion 0 { out (Config.spdmPayload 0 ++ [0x13]) with spdmStage := 1 } ∧
     answers .getCapabilities 1 { out capabilities with spdmStage := 2 } ∧
     answers (.negotiateAlgorithms sha slh) 2
       { out (Config.spdmPayload 2 ++ [if sha then 1 else 0, if slh then 1 else 0]) with spdmStage := 3, spdmHash := sha, spdmSlh := slh } ∧
     answers .getDigests 3 (out (if s.spdmHash = true then Config.spdmPayload 3 ++ sha256 Config.certificateChain else spdmInvalid)) ∧
     answers (.getCertificate off len) 3 (out (Config.spdmPayload 4 ++ (Config.certificateChain.drop off).take len)) ∧
     answers (.getMeasurements i false nonce) 3 { out (Config.spdmPayload 6 ++ asked) with free := s.free + 1 } ∧
     answers (.getMeasurements i true nonce) 3 (if s.spdmSlh = true
       then { out (Config.spdmPayload 6 ++ (asked ++ Slh.sign identityKey (slhBytes (Config.slhRandom s.free)) asked)) with free := s.free + 1 } else out spdmInvalid) ∧
     (∃ u, exec (.getMeasurements i signed nonce) s = .next u ∧ u.spdm.length = s.spdm.length + 1) ∧
     ((∃ x ∈ s.measured, x.1 = i) → (record s i m).measured = s.measured) ∧
     ((∀ x ∈ s.measured, x.1 ≠ i) → look [] i (record s i m).measured = sha256 m))
end

