-- ==== Sys2Proof/Laws/Maps.lean ====
section
/-! SUPPORT. What reading, putting and dropping do to a map by number, and the canonical form of memory under every memory operation. -/

namespace Sys2Proof.Machine

/-! Maps. -/

@[simp] theorem look_nil {α : Type} (d : α) (k : Nat) : look d k [] = d := rfl

theorem look_put_same {α : Type} (d : α) (k : Nat) (v : α) (m : List (Nat × α)) : look d k (put k v m) = v := by
  induction m with
  | nil => simp [put, look]
  | cons c r ih =>
    obtain ⟨j, w⟩ := c
    unfold put
    split
    · simp [look, ih]; omega
    · split <;> simp [look]

theorem look_put_other {α : Type} (d : α) {j k : Nat} (v : α) (m : List (Nat × α)) (h : j ≠ k) : look d j (put k v m) = look d j m := by
  induction m with
  | nil => simp [put, look]; omega
  | cons c r ih =>
    obtain ⟨i, w⟩ := c
    unfold put
    split
    · simp [look, ih]
    · split
      · simp [look]; split <;> first | omega | (split <;> first | rfl | omega)
      · simp [look]; omega

/-- Reading a map after a put: the value put, or what stood there. -/
theorem look_put {α : Type} (d : α) (j k : Nat) (v : α) (m : List (Nat × α)) :
    look d j (put k v m) = if j = k then v else look d j m := by
  split
  · subst_vars; exact look_put_same d _ v m
  · exact look_put_other d v m (by assumption)

theorem look_drop {α : Type} (d : α) (j k : Nat) (m : List (Nat × α)) : look d j (drop k m) = if j = k then d else look d j m := by
  induction m with
  | nil => simp [drop, look]
  | cons c r ih =>
    obtain ⟨i, w⟩ := c
    simp only [drop, List.filter_cons] at ih ⊢
    by_cases hi : i = k
    · subst hi
      by_cases hj : j = i <;> simp_all [look]
      omega
    · by_cases hj : i = j <;> simp_all [look]

/-! Rising keys. -/

theorem rising_tail {α : Type} {c : Nat × α} {r : List (Nat × α)} (h : rising (c :: r) = true) : rising r = true := by
  cases r with
  | nil => rfl
  | cons b t => simp [rising] at h; exact h.2

theorem rising_cons {α : Type} {c : Nat × α} {r : List (Nat × α)} :
    rising (c :: r) = true ↔ (∀ b ∈ r, c.1 < b.1) ∧ rising r = true := by
  induction r generalizing c with
  | nil => simp [rising]
  | cons b t ih =>
    simp only [rising, Bool.and_eq_true, decide_eq_true_eq, List.mem_cons, forall_eq_or_imp]
    rw [ih]
    constructor
    · rintro ⟨h, h1, h2⟩; exact ⟨⟨h, fun x hx => Nat.lt_trans h (h1 x hx)⟩, h1, h2⟩
    · rintro ⟨⟨h, -⟩, h1, h2⟩; exact ⟨h, h1, h2⟩

theorem mem_put {α : Type} {k : Nat} {v : α} {m : List (Nat × α)} {c : Nat × α} (h : c ∈ put k v m) : c = (k, v) ∨ c ∈ m := by
  induction m with
  | nil => simp [put] at h; exact .inl h
  | cons b r ih =>
    obtain ⟨j, w⟩ := b
    unfold put at h
    split at h
    · rcases List.mem_cons.1 h with h | h
      · exact .inr (h ▸ List.mem_cons_self ..)
      · exact (ih h).imp_right (List.mem_cons_of_mem _)
    · split at h <;> rcases List.mem_cons.1 h with h | h
      · exact .inl h
      · exact .inr (List.mem_cons_of_mem _ h)
      · exact .inl h
      · exact .inr h

theorem rising_put {α : Type} {k : Nat} {v : α} {m : List (Nat × α)} (h : rising m = true) : rising (put k v m) = true := by
  induction m with
  | nil => rfl
  | cons b r ih =>
    obtain ⟨j, w⟩ := b
    have hr := rising_cons.1 h
    unfold put
    split
    · refine rising_cons.2 ⟨fun c hc => ?_, ih hr.2⟩
      rcases mem_put hc with rfl | hc
      · assumption
      · exact hr.1 c hc
    · split
      · subst_vars; exact rising_cons.2 hr
      · refine rising_cons.2 ⟨fun c hc => ?_, h⟩
        rcases List.mem_cons.1 hc with rfl | hc
        · simp; omega
        · have := hr.1 c hc; simp at this ⊢; omega

theorem rising_filter {α : Type} (p : Nat × α → Bool) {m : List (Nat × α)} (h : rising m = true) : rising (m.filter p) = true := by
  induction m with
  | nil => rfl
  | cons b r ih =>
    have hr := rising_cons.1 h
    simp only [List.filter_cons]
    split
    · exact rising_cons.2 ⟨fun c hc => hr.1 c (List.mem_filter.1 hc).1, ih hr.2⟩
    · exact ih hr.2

/-! Memory: the canonical form is kept. -/

theorem Memory.wf_nil : Memory.wf [] = true := rfl

theorem Memory.wf_filter (p : Host.Cell → Bool) {m : Memory} (h : m.wf = true) : Memory.wf (m.filter p) = true := by
  simp only [Memory.wf, Bool.and_eq_true] at h ⊢
  exact ⟨rising_filter p h.1, List.all_eq_true.2 fun c hc => List.all_eq_true.1 h.2 c (List.mem_filter.1 hc).1⟩

theorem Memory.wf_write {m : Memory} (a : Nat) (v : Byte) (h : m.wf = true) : (m.write a v).wf = true := by
  unfold Memory.write
  split
  · exact wf_filter _ h
  · simp only [Memory.wf, Bool.and_eq_true] at h ⊢
    refine ⟨rising_put h.1, List.all_eq_true.2 fun c hc => ?_⟩
    rcases mem_put hc with rfl | hc
    · simp; assumption
    · exact List.all_eq_true.1 h.2 c hc

theorem Memory.wf_writes {m : Memory} (l : List Host.Cell) (h : m.wf = true) : (m.writes l).wf = true := by
  induction l generalizing m with
  | nil => exact h
  | cons c r ih => exact ih (wf_write c.1 c.2 h)

/-! Memory: reading after writing. -/

theorem Memory.read_write (m : Memory) (a b : Nat) (v : Byte) : (m.write a v).read b = if b = a then v else m.read b := by
  unfold Memory.write Memory.read
  split
  · subst_vars; rw [look_drop]
  · rw [look_put]

theorem Memory.read_writes_outside {m : Memory} {l : List Host.Cell} {b : Nat} (h : ∀ c ∈ l, c.1 ≠ b) : (m.writes l).read b = m.read b := by
  induction l generalizing m with
  | nil => rfl
  | cons c r ih =>
    obtain ⟨a, v⟩ := c
    rw [Memory.writes, ih (fun x hx => h x (List.mem_cons_of_mem _ hx)), Memory.read_write, if_neg]
    exact fun e => h (a, v) (List.mem_cons_self ..) e.symm

theorem mem_cellsAt {a : Nat} {bs : List Byte} {c : Host.Cell} (h : c ∈ cellsAt a bs) : a ≤ c.1 ∧ c.1 < a + bs.length := by
  induction bs generalizing a with
  | nil => simp [cellsAt] at h
  | cons b r ih =>
    rcases List.mem_cons.1 h with rfl | h
    · simp
    · have := ih h; simp; omega

/-- Bytes outside a written range read as before. -/
theorem Memory.read_writes_cellsAt_outside {m : Memory} {a b : Nat} {bs : List Byte} (h : b < a ∨ a + bs.length ≤ b) :
    (m.writes (cellsAt a bs)).read b = m.read b :=
  read_writes_outside fun c hc e => by have := mem_cellsAt hc; omega

/-- A written range reads back as written. -/
theorem Memory.readN_writes_cellsAt (m : Memory) (a : Nat) (bs : List Byte) : (m.writes (cellsAt a bs)).readN a bs.length = bs := by
  induction bs generalizing m a with
  | nil => rfl
  | cons b r ih =>
    simp only [cellsAt, Memory.writes, List.length_cons, Memory.readN]
    rw [ih, read_writes_cellsAt_outside (by omega), read_write, if_pos rfl]

@[simp] theorem length_leBytes (v n : Nat) : (leBytes v n).length = n := by
  induction n generalizing v with
  | zero => rfl
  | succ n ih => simp [leBytes, ih]

/-- A number's bytes give the number back, modulo their range. -/
theorem leNat_leBytes (v n : Nat) : leNat (leBytes v n) = v % 256 ^ n := by
  induction n generalizing v with
  | zero => simp [leBytes, leNat, Nat.mod_one]
  | succ n ih =>
    have e : v % 256 ^ (n + 1) = v % 256 + 256 * (v / 256 % 256 ^ n) := by rw [Nat.pow_succ', Nat.mod_mul]
    rw [leBytes, leNat, ih, BitVec.toNat_ofNat, e]

end Sys2Proof.Machine
end

