-- ==== Sys2Proof/Laws/State.lean ====
section
/-! SUPPORT. One lemma per field per update of the state and of a slot, so that no proof unfolds a record update, and what each accessor reads after
each update. -/

namespace Sys2Proof.Machine

/-! setCore. -/

@[simp] theorem State.setCore_stage (s : State) (c : Nat) (k : Core) : (s.setCore c k).stage = s.stage := rfl
@[simp] theorem State.setCore_ready (s : State) (c : Nat) (k : Core) : (s.setCore c k).ready = s.ready := rfl
@[simp] theorem State.setCore_failed (s : State) (c : Nat) (k : Core) : (s.setCore c k).failed = s.failed := rfl
@[simp] theorem State.setCore_tslost (s : State) (c : Nat) (k : Core) : (s.setCore c k).tslost = s.tslost := rfl
@[simp] theorem State.setCore_vectors (s : State) (c : Nat) (k : Core) : (s.setCore c k).vectors = s.vectors := rfl
@[simp] theorem State.setCore_primary (s : State) (c : Nat) (k : Core) : (s.setCore c k).primary = s.primary := rfl
@[simp] theorem State.setCore_backup (s : State) (c : Nat) (k : Core) : (s.setCore c k).backup = s.backup := rfl
@[simp] theorem State.setCore_usedBackup (s : State) (c : Nat) (k : Core) : (s.setCore c k).usedBackup = s.usedBackup := rfl
@[simp] theorem State.setCore_keyDigest (s : State) (c : Nat) (k : Core) : (s.setCore c k).keyDigest = s.keyDigest := rfl
@[simp] theorem State.setCore_rollback (s : State) (c : Nat) (k : Core) : (s.setCore c k).rollback = s.rollback := rfl
@[simp] theorem State.setCore_measured (s : State) (c : Nat) (k : Core) : (s.setCore c k).measured = s.measured := rfl
@[simp] theorem State.setCore_configured (s : State) (c : Nat) (k : Core) : (s.setCore c k).configured = s.configured := rfl
@[simp] theorem State.setCore_spdm (s : State) (c : Nat) (k : Core) : (s.setCore c k).spdm = s.spdm := rfl
@[simp] theorem State.setCore_spdmStage (s : State) (c : Nat) (k : Core) : (s.setCore c k).spdmStage = s.spdmStage := rfl
@[simp] theorem State.setCore_spdmHash (s : State) (c : Nat) (k : Core) : (s.setCore c k).spdmHash = s.spdmHash := rfl
@[simp] theorem State.setCore_spdmSlh (s : State) (c : Nat) (k : Core) : (s.setCore c k).spdmSlh = s.spdmSlh := rfl
@[simp] theorem State.setCore_time (s : State) (c : Nat) (k : Core) : (s.setCore c k).time = s.time := rfl
@[simp] theorem State.setCore_badRuns (s : State) (c : Nat) (k : Core) : (s.setCore c k).badRuns = s.badRuns := rfl
@[simp] theorem State.setCore_goodRuns (s : State) (c : Nat) (k : Core) : (s.setCore c k).goodRuns = s.goodRuns := rfl
@[simp] theorem State.setCore_slew (s : State) (c : Nat) (k : Core) : (s.setCore c k).slew = s.slew := rfl
@[simp] theorem State.setCore_hdm (s : State) (c : Nat) (k : Core) : (s.setCore c k).hdm = s.hdm := rfl
@[simp] theorem State.setCore_mem (s : State) (c : Nat) (k : Core) : (s.setCore c k).mem = s.mem := rfl
@[simp] theorem State.setCore_tags (s : State) (c : Nat) (k : Core) : (s.setCore c k).tags = s.tags := rfl
@[simp] theorem State.setCore_bad (s : State) (c : Nat) (k : Core) : (s.setCore c k).bad = s.bad := rfl
@[simp] theorem State.setCore_history (s : State) (c : Nat) (k : Core) : (s.setCore c k).history = s.history := rfl
@[simp] theorem State.setCore_hostLag (s : State) (c : Nat) (k : Core) : (s.setCore c k).hostLag = s.hostLag := rfl
@[simp] theorem State.setCore_regs (s : State) (c : Nat) (k : Core) : (s.setCore c k).regs = s.regs := rfl
@[simp] theorem State.setCore_rtfree (s : State) (c : Nat) (k : Core) : (s.setCore c k).rtfree = s.rtfree := rfl
@[simp] theorem State.setCore_launch (s : State) (c : Nat) (k : Core) : (s.setCore c k).launch = s.launch := rfl
@[simp] theorem State.setCore_levels (s : State) (c : Nat) (k : Core) : (s.setCore c k).levels = s.levels := rfl
@[simp] theorem State.setCore_reqs (s : State) (c : Nat) (k : Core) : (s.setCore c k).reqs = s.reqs := rfl
@[simp] theorem State.setCore_pools (s : State) (c : Nat) (k : Core) : (s.setCore c k).pools = s.pools := rfl
@[simp] theorem State.setCore_slots (s : State) (c : Nat) (k : Core) : (s.setCore c k).slots = s.slots := rfl
@[simp] theorem State.setCore_clusters (s : State) (c : Nat) (k : Core) : (s.setCore c k).clusters = s.clusters := rfl
@[simp] theorem State.setCore_tiles (s : State) (c : Nat) (k : Core) : (s.setCore c k).tiles = s.tiles := rfl
@[simp] theorem State.setCore_dsplit (s : State) (c : Nat) (k : Core) : (s.setCore c k).dsplit = s.dsplit := rfl
@[simp] theorem State.setCore_cellars (s : State) (c : Nat) (k : Core) : (s.setCore c k).cellars = s.cellars := rfl
@[simp] theorem State.setCore_colls (s : State) (c : Nat) (k : Core) : (s.setCore c k).colls = s.colls := rfl
@[simp] theorem State.setCore_groups (s : State) (c : Nat) (k : Core) : (s.setCore c k).groups = s.groups := rfl
@[simp] theorem State.setCore_stairs (s : State) (c : Nat) (k : Core) : (s.setCore c k).stairs = s.stairs := rfl
@[simp] theorem State.setCore_sends (s : State) (c : Nat) (k : Core) : (s.setCore c k).sends = s.sends := rfl
@[simp] theorem State.setCore_services (s : State) (c : Nat) (k : Core) : (s.setCore c k).services = s.services := rfl
@[simp] theorem State.setCore_kept (s : State) (c : Nat) (k : Core) : (s.setCore c k).kept = s.kept := rfl
@[simp] theorem State.setCore_nextId (s : State) (c : Nat) (k : Core) : (s.setCore c k).nextId = s.nextId := rfl
@[simp] theorem State.setCore_larders (s : State) (c : Nat) (k : Core) : (s.setCore c k).larders = s.larders := rfl
@[simp] theorem State.setCore_deferred (s : State) (c : Nat) (k : Core) : (s.setCore c k).deferred = s.deferred := rfl
@[simp] theorem State.setCore_faults (s : State) (c : Nat) (k : Core) : (s.setCore c k).faults = s.faults := rfl
@[simp] theorem State.setCore_fbhead (s : State) (c : Nat) (k : Core) : (s.setCore c k).fbhead = s.fbhead := rfl
@[simp] theorem State.setCore_atc (s : State) (c : Nat) (k : Core) : (s.setCore c k).atc = s.atc := rfl
@[simp] theorem State.setCore_actions (s : State) (c : Nat) (k : Core) : (s.setCore c k).actions = s.actions := rfl
@[simp] theorem State.setCore_power (s : State) (c : Nat) (k : Core) : (s.setCore c k).power = s.power := rfl
@[simp] theorem State.setCore_overTime (s : State) (c : Nat) (k : Core) : (s.setCore c k).overTime = s.overTime := rfl
@[simp] theorem State.setCore_ports (s : State) (c : Nat) (k : Core) : (s.setCore c k).ports = s.ports := rfl
@[simp] theorem State.setCore_dieLinks (s : State) (c : Nat) (k : Core) : (s.setCore c k).dieLinks = s.dieLinks := rfl
@[simp] theorem State.setCore_drives (s : State) (c : Nat) (k : Core) : (s.setCore c k).drives = s.drives := rfl
@[simp] theorem State.setCore_outbox (s : State) (c : Nat) (k : Core) : (s.setCore c k).outbox = s.outbox := rfl
@[simp] theorem State.setCore_replies (s : State) (c : Nat) (k : Core) : (s.setCore c k).replies = s.replies := rfl
@[simp] theorem State.setCore_inbox (s : State) (c : Nat) (k : Core) : (s.setCore c k).inbox = s.inbox := rfl
@[simp] theorem State.setCore_notices (s : State) (c : Nat) (k : Core) : (s.setCore c k).notices = s.notices := rfl
@[simp] theorem State.setCore_cancelled (s : State) (c : Nat) (k : Core) : (s.setCore c k).cancelled = s.cancelled := rfl
@[simp] theorem State.setCore_nvme (s : State) (c : Nat) (k : Core) : (s.setCore c k).nvme = s.nvme := rfl
@[simp] theorem State.setCore_hostData (s : State) (c : Nat) (k : Core) : (s.setCore c k).hostData = s.hostData := rfl
@[simp] theorem State.setCore_atsWaits (s : State) (c : Nat) (k : Core) : (s.setCore c k).atsWaits = s.atsWaits := rfl
@[simp] theorem State.setCore_atsDone (s : State) (c : Nat) (k : Core) : (s.setCore c k).atsDone = s.atsDone := rfl
@[simp] theorem State.setCore_doubleTraps (s : State) (c : Nat) (k : Core) : (s.setCore c k).doubleTraps = s.doubleTraps := rfl
@[simp] theorem State.setCore_dropped (s : State) (c : Nat) (k : Core) : (s.setCore c k).dropped = s.dropped := rfl
@[simp] theorem State.setCore_curCore (s : State) (c : Nat) (k : Core) : (s.setCore c k).curCore = s.curCore := rfl
@[simp] theorem State.setCore_curSlot (s : State) (c : Nat) (k : Core) : (s.setCore c k).curSlot = s.curSlot := rfl
@[simp] theorem State.setCore_free (s : State) (c : Nat) (k : Core) : (s.setCore c k).free = s.free := rfl
@[simp] theorem State.setCore_pending (s : State) (c : Nat) (k : Core) : (s.setCore c k).pending = s.pending := rfl
@[simp] theorem State.setCore_schedule (s : State) (c : Nat) (k : Core) : (s.setCore c k).schedule = s.schedule := rfl

/-! setSlot. -/

@[simp] theorem State.setSlot_stage (s : State) (g : Nat) (t : Slot) : (s.setSlot g t).stage = s.stage := rfl
@[simp] theorem State.setSlot_ready (s : State) (g : Nat) (t : Slot) : (s.setSlot g t).ready = s.ready := rfl
@[simp] theorem State.setSlot_failed (s : State) (g : Nat) (t : Slot) : (s.setSlot g t).failed = s.failed := rfl
@[simp] theorem State.setSlot_tslost (s : State) (g : Nat) (t : Slot) : (s.setSlot g t).tslost = s.tslost := rfl
@[simp] theorem State.setSlot_vectors (s : State) (g : Nat) (t : Slot) : (s.setSlot g t).vectors = s.vectors := rfl
@[simp] theorem State.setSlot_primary (s : State) (g : Nat) (t : Slot) : (s.setSlot g t).primary = s.primary := rfl
@[simp] theorem State.setSlot_backup (s : State) (g : Nat) (t : Slot) : (s.setSlot g t).backup = s.backup := rfl
@[simp] theorem State.setSlot_usedBackup (s : State) (g : Nat) (t : Slot) : (s.setSlot g t).usedBackup = s.usedBackup := rfl
@[simp] theorem State.setSlot_keyDigest (s : State) (g : Nat) (t : Slot) : (s.setSlot g t).keyDigest = s.keyDigest := rfl
@[simp] theorem State.setSlot_rollback (s : State) (g : Nat) (t : Slot) : (s.setSlot g t).rollback = s.rollback := rfl
@[simp] theorem State.setSlot_measured (s : State) (g : Nat) (t : Slot) : (s.setSlot g t).measured = s.measured := rfl
@[simp] theorem State.setSlot_configured (s : State) (g : Nat) (t : Slot) : (s.setSlot g t).configured = s.configured := rfl
@[simp] theorem State.setSlot_spdm (s : State) (g : Nat) (t : Slot) : (s.setSlot g t).spdm = s.spdm := rfl
@[simp] theorem State.setSlot_spdmStage (s : State) (g : Nat) (t : Slot) : (s.setSlot g t).spdmStage = s.spdmStage := rfl
@[simp] theorem State.setSlot_spdmHash (s : State) (g : Nat) (t : Slot) : (s.setSlot g t).spdmHash = s.spdmHash := rfl
@[simp] theorem State.setSlot_spdmSlh (s : State) (g : Nat) (t : Slot) : (s.setSlot g t).spdmSlh = s.spdmSlh := rfl
@[simp] theorem State.setSlot_time (s : State) (g : Nat) (t : Slot) : (s.setSlot g t).time = s.time := rfl
@[simp] theorem State.setSlot_badRuns (s : State) (g : Nat) (t : Slot) : (s.setSlot g t).badRuns = s.badRuns := rfl
@[simp] theorem State.setSlot_goodRuns (s : State) (g : Nat) (t : Slot) : (s.setSlot g t).goodRuns = s.goodRuns := rfl
@[simp] theorem State.setSlot_slew (s : State) (g : Nat) (t : Slot) : (s.setSlot g t).slew = s.slew := rfl
@[simp] theorem State.setSlot_hdm (s : State) (g : Nat) (t : Slot) : (s.setSlot g t).hdm = s.hdm := rfl
@[simp] theorem State.setSlot_mem (s : State) (g : Nat) (t : Slot) : (s.setSlot g t).mem = s.mem := rfl
@[simp] theorem State.setSlot_tags (s : State) (g : Nat) (t : Slot) : (s.setSlot g t).tags = s.tags := rfl
@[simp] theorem State.setSlot_bad (s : State) (g : Nat) (t : Slot) : (s.setSlot g t).bad = s.bad := rfl
@[simp] theorem State.setSlot_history (s : State) (g : Nat) (t : Slot) : (s.setSlot g t).history = s.history := rfl
@[simp] theorem State.setSlot_hostLag (s : State) (g : Nat) (t : Slot) : (s.setSlot g t).hostLag = s.hostLag := rfl
@[simp] theorem State.setSlot_regs (s : State) (g : Nat) (t : Slot) : (s.setSlot g t).regs = s.regs := rfl
@[simp] theorem State.setSlot_rtfree (s : State) (g : Nat) (t : Slot) : (s.setSlot g t).rtfree = s.rtfree := rfl
@[simp] theorem State.setSlot_launch (s : State) (g : Nat) (t : Slot) : (s.setSlot g t).launch = s.launch := rfl
@[simp] theorem State.setSlot_levels (s : State) (g : Nat) (t : Slot) : (s.setSlot g t).levels = s.levels := rfl
@[simp] theorem State.setSlot_reqs (s : State) (g : Nat) (t : Slot) : (s.setSlot g t).reqs = s.reqs := rfl
@[simp] theorem State.setSlot_pools (s : State) (g : Nat) (t : Slot) : (s.setSlot g t).pools = s.pools := rfl
@[simp] theorem State.setSlot_cores (s : State) (g : Nat) (t : Slot) : (s.setSlot g t).cores = s.cores := rfl
@[simp] theorem State.setSlot_clusters (s : State) (g : Nat) (t : Slot) : (s.setSlot g t).clusters = s.clusters := rfl
@[simp] theorem State.setSlot_tiles (s : State) (g : Nat) (t : Slot) : (s.setSlot g t).tiles = s.tiles := rfl
@[simp] theorem State.setSlot_dsplit (s : State) (g : Nat) (t : Slot) : (s.setSlot g t).dsplit = s.dsplit := rfl
@[simp] theorem State.setSlot_cellars (s : State) (g : Nat) (t : Slot) : (s.setSlot g t).cellars = s.cellars := rfl
@[simp] theorem State.setSlot_colls (s : State) (g : Nat) (t : Slot) : (s.setSlot g t).colls = s.colls := rfl
@[simp] theorem State.setSlot_groups (s : State) (g : Nat) (t : Slot) : (s.setSlot g t).groups = s.groups := rfl
@[simp] theorem State.setSlot_stairs (s : State) (g : Nat) (t : Slot) : (s.setSlot g t).stairs = s.stairs := rfl
@[simp] theorem State.setSlot_sends (s : State) (g : Nat) (t : Slot) : (s.setSlot g t).sends = s.sends := rfl
@[simp] theorem State.setSlot_services (s : State) (g : Nat) (t : Slot) : (s.setSlot g t).services = s.services := rfl
@[simp] theorem State.setSlot_kept (s : State) (g : Nat) (t : Slot) : (s.setSlot g t).kept = s.kept := rfl
@[simp] theorem State.setSlot_nextId (s : State) (g : Nat) (t : Slot) : (s.setSlot g t).nextId = s.nextId := rfl
@[simp] theorem State.setSlot_larders (s : State) (g : Nat) (t : Slot) : (s.setSlot g t).larders = s.larders := rfl
@[simp] theorem State.setSlot_deferred (s : State) (g : Nat) (t : Slot) : (s.setSlot g t).deferred = s.deferred := rfl
@[simp] theorem State.setSlot_faults (s : State) (g : Nat) (t : Slot) : (s.setSlot g t).faults = s.faults := rfl
@[simp] theorem State.setSlot_fbhead (s : State) (g : Nat) (t : Slot) : (s.setSlot g t).fbhead = s.fbhead := rfl
@[simp] theorem State.setSlot_atc (s : State) (g : Nat) (t : Slot) : (s.setSlot g t).atc = s.atc := rfl
@[simp] theorem State.setSlot_actions (s : State) (g : Nat) (t : Slot) : (s.setSlot g t).actions = s.actions := rfl
@[simp] theorem State.setSlot_power (s : State) (g : Nat) (t : Slot) : (s.setSlot g t).power = s.power := rfl
@[simp] theorem State.setSlot_overTime (s : State) (g : Nat) (t : Slot) : (s.setSlot g t).overTime = s.overTime := rfl
@[simp] theorem State.setSlot_ports (s : State) (g : Nat) (t : Slot) : (s.setSlot g t).ports = s.ports := rfl
@[simp] theorem State.setSlot_dieLinks (s : State) (g : Nat) (t : Slot) : (s.setSlot g t).dieLinks = s.dieLinks := rfl
@[simp] theorem State.setSlot_drives (s : State) (g : Nat) (t : Slot) : (s.setSlot g t).drives = s.drives := rfl
@[simp] theorem State.setSlot_outbox (s : State) (g : Nat) (t : Slot) : (s.setSlot g t).outbox = s.outbox := rfl
@[simp] theorem State.setSlot_replies (s : State) (g : Nat) (t : Slot) : (s.setSlot g t).replies = s.replies := rfl
@[simp] theorem State.setSlot_inbox (s : State) (g : Nat) (t : Slot) : (s.setSlot g t).inbox = s.inbox := rfl
@[simp] theorem State.setSlot_notices (s : State) (g : Nat) (t : Slot) : (s.setSlot g t).notices = s.notices := rfl
@[simp] theorem State.setSlot_cancelled (s : State) (g : Nat) (t : Slot) : (s.setSlot g t).cancelled = s.cancelled := rfl
@[simp] theorem State.setSlot_nvme (s : State) (g : Nat) (t : Slot) : (s.setSlot g t).nvme = s.nvme := rfl
@[simp] theorem State.setSlot_hostData (s : State) (g : Nat) (t : Slot) : (s.setSlot g t).hostData = s.hostData := rfl
@[simp] theorem State.setSlot_atsWaits (s : State) (g : Nat) (t : Slot) : (s.setSlot g t).atsWaits = s.atsWaits := rfl
@[simp] theorem State.setSlot_atsDone (s : State) (g : Nat) (t : Slot) : (s.setSlot g t).atsDone = s.atsDone := rfl
@[simp] theorem State.setSlot_doubleTraps (s : State) (g : Nat) (t : Slot) : (s.setSlot g t).doubleTraps = s.doubleTraps := rfl
@[simp] theorem State.setSlot_dropped (s : State) (g : Nat) (t : Slot) : (s.setSlot g t).dropped = s.dropped := rfl
@[simp] theorem State.setSlot_curCore (s : State) (g : Nat) (t : Slot) : (s.setSlot g t).curCore = s.curCore := rfl
@[simp] theorem State.setSlot_curSlot (s : State) (g : Nat) (t : Slot) : (s.setSlot g t).curSlot = s.curSlot := rfl
@[simp] theorem State.setSlot_free (s : State) (g : Nat) (t : Slot) : (s.setSlot g t).free = s.free := rfl
@[simp] theorem State.setSlot_pending (s : State) (g : Nat) (t : Slot) : (s.setSlot g t).pending = s.pending := rfl
@[simp] theorem State.setSlot_schedule (s : State) (g : Nat) (t : Slot) : (s.setSlot g t).schedule = s.schedule := rfl

/-! setReq. -/

@[simp] theorem State.setReq_stage (s : State) (r : Nat) (v : Req) : (s.setReq r v).stage = s.stage := rfl
@[simp] theorem State.setReq_ready (s : State) (r : Nat) (v : Req) : (s.setReq r v).ready = s.ready := rfl
@[simp] theorem State.setReq_failed (s : State) (r : Nat) (v : Req) : (s.setReq r v).failed = s.failed := rfl
@[simp] theorem State.setReq_tslost (s : State) (r : Nat) (v : Req) : (s.setReq r v).tslost = s.tslost := rfl
@[simp] theorem State.setReq_vectors (s : State) (r : Nat) (v : Req) : (s.setReq r v).vectors = s.vectors := rfl
@[simp] theorem State.setReq_primary (s : State) (r : Nat) (v : Req) : (s.setReq r v).primary = s.primary := rfl
@[simp] theorem State.setReq_backup (s : State) (r : Nat) (v : Req) : (s.setReq r v).backup = s.backup := rfl
@[simp] theorem State.setReq_usedBackup (s : State) (r : Nat) (v : Req) : (s.setReq r v).usedBackup = s.usedBackup := rfl
@[simp] theorem State.setReq_keyDigest (s : State) (r : Nat) (v : Req) : (s.setReq r v).keyDigest = s.keyDigest := rfl
@[simp] theorem State.setReq_rollback (s : State) (r : Nat) (v : Req) : (s.setReq r v).rollback = s.rollback := rfl
@[simp] theorem State.setReq_measured (s : State) (r : Nat) (v : Req) : (s.setReq r v).measured = s.measured := rfl
@[simp] theorem State.setReq_configured (s : State) (r : Nat) (v : Req) : (s.setReq r v).configured = s.configured := rfl
@[simp] theorem State.setReq_spdm (s : State) (r : Nat) (v : Req) : (s.setReq r v).spdm = s.spdm := rfl
@[simp] theorem State.setReq_spdmStage (s : State) (r : Nat) (v : Req) : (s.setReq r v).spdmStage = s.spdmStage := rfl
@[simp] theorem State.setReq_spdmHash (s : State) (r : Nat) (v : Req) : (s.setReq r v).spdmHash = s.spdmHash := rfl
@[simp] theorem State.setReq_spdmSlh (s : State) (r : Nat) (v : Req) : (s.setReq r v).spdmSlh = s.spdmSlh := rfl
@[simp] theorem State.setReq_time (s : State) (r : Nat) (v : Req) : (s.setReq r v).time = s.time := rfl
@[simp] theorem State.setReq_badRuns (s : State) (r : Nat) (v : Req) : (s.setReq r v).badRuns = s.badRuns := rfl
@[simp] theorem State.setReq_goodRuns (s : State) (r : Nat) (v : Req) : (s.setReq r v).goodRuns = s.goodRuns := rfl
@[simp] theorem State.setReq_slew (s : State) (r : Nat) (v : Req) : (s.setReq r v).slew = s.slew := rfl
@[simp] theorem State.setReq_hdm (s : State) (r : Nat) (v : Req) : (s.setReq r v).hdm = s.hdm := rfl
@[simp] theorem State.setReq_mem (s : State) (r : Nat) (v : Req) : (s.setReq r v).mem = s.mem := rfl
@[simp] theorem State.setReq_tags (s : State) (r : Nat) (v : Req) : (s.setReq r v).tags = s.tags := rfl
@[simp] theorem State.setReq_bad (s : State) (r : Nat) (v : Req) : (s.setReq r v).bad = s.bad := rfl
@[simp] theorem State.setReq_history (s : State) (r : Nat) (v : Req) : (s.setReq r v).history = s.history := rfl
@[simp] theorem State.setReq_hostLag (s : State) (r : Nat) (v : Req) : (s.setReq r v).hostLag = s.hostLag := rfl
@[simp] theorem State.setReq_regs (s : State) (r : Nat) (v : Req) : (s.setReq r v).regs = s.regs := rfl
@[simp] theorem State.setReq_rtfree (s : State) (r : Nat) (v : Req) : (s.setReq r v).rtfree = s.rtfree := rfl
@[simp] theorem State.setReq_launch (s : State) (r : Nat) (v : Req) : (s.setReq r v).launch = s.launch := rfl
@[simp] theorem State.setReq_levels (s : State) (r : Nat) (v : Req) : (s.setReq r v).levels = s.levels := rfl
@[simp] theorem State.setReq_pools (s : State) (r : Nat) (v : Req) : (s.setReq r v).pools = s.pools := rfl
@[simp] theorem State.setReq_cores (s : State) (r : Nat) (v : Req) : (s.setReq r v).cores = s.cores := rfl
@[simp] theorem State.setReq_slots (s : State) (r : Nat) (v : Req) : (s.setReq r v).slots = s.slots := rfl
@[simp] theorem State.setReq_clusters (s : State) (r : Nat) (v : Req) : (s.setReq r v).clusters = s.clusters := rfl
@[simp] theorem State.setReq_tiles (s : State) (r : Nat) (v : Req) : (s.setReq r v).tiles = s.tiles := rfl
@[simp] theorem State.setReq_dsplit (s : State) (r : Nat) (v : Req) : (s.setReq r v).dsplit = s.dsplit := rfl
@[simp] theorem State.setReq_cellars (s : State) (r : Nat) (v : Req) : (s.setReq r v).cellars = s.cellars := rfl
@[simp] theorem State.setReq_colls (s : State) (r : Nat) (v : Req) : (s.setReq r v).colls = s.colls := rfl
@[simp] theorem State.setReq_groups (s : State) (r : Nat) (v : Req) : (s.setReq r v).groups = s.groups := rfl
@[simp] theorem State.setReq_stairs (s : State) (r : Nat) (v : Req) : (s.setReq r v).stairs = s.stairs := rfl
@[simp] theorem State.setReq_sends (s : State) (r : Nat) (v : Req) : (s.setReq r v).sends = s.sends := rfl
@[simp] theorem State.setReq_services (s : State) (r : Nat) (v : Req) : (s.setReq r v).services = s.services := rfl
@[simp] theorem State.setReq_kept (s : State) (r : Nat) (v : Req) : (s.setReq r v).kept = s.kept := rfl
@[simp] theorem State.setReq_nextId (s : State) (r : Nat) (v : Req) : (s.setReq r v).nextId = s.nextId := rfl
@[simp] theorem State.setReq_larders (s : State) (r : Nat) (v : Req) : (s.setReq r v).larders = s.larders := rfl
@[simp] theorem State.setReq_deferred (s : State) (r : Nat) (v : Req) : (s.setReq r v).deferred = s.deferred := rfl
@[simp] theorem State.setReq_faults (s : State) (r : Nat) (v : Req) : (s.setReq r v).faults = s.faults := rfl
@[simp] theorem State.setReq_fbhead (s : State) (r : Nat) (v : Req) : (s.setReq r v).fbhead = s.fbhead := rfl
@[simp] theorem State.setReq_atc (s : State) (r : Nat) (v : Req) : (s.setReq r v).atc = s.atc := rfl
@[simp] theorem State.setReq_actions (s : State) (r : Nat) (v : Req) : (s.setReq r v).actions = s.actions := rfl
@[simp] theorem State.setReq_power (s : State) (r : Nat) (v : Req) : (s.setReq r v).power = s.power := rfl
@[simp] theorem State.setReq_overTime (s : State) (r : Nat) (v : Req) : (s.setReq r v).overTime = s.overTime := rfl
@[simp] theorem State.setReq_ports (s : State) (r : Nat) (v : Req) : (s.setReq r v).ports = s.ports := rfl
@[simp] theorem State.setReq_dieLinks (s : State) (r : Nat) (v : Req) : (s.setReq r v).dieLinks = s.dieLinks := rfl
@[simp] theorem State.setReq_drives (s : State) (r : Nat) (v : Req) : (s.setReq r v).drives = s.drives := rfl
@[simp] theorem State.setReq_outbox (s : State) (r : Nat) (v : Req) : (s.setReq r v).outbox = s.outbox := rfl
@[simp] theorem State.setReq_replies (s : State) (r : Nat) (v : Req) : (s.setReq r v).replies = s.replies := rfl
@[simp] theorem State.setReq_inbox (s : State) (r : Nat) (v : Req) : (s.setReq r v).inbox = s.inbox := rfl
@[simp] theorem State.setReq_notices (s : State) (r : Nat) (v : Req) : (s.setReq r v).notices = s.notices := rfl
@[simp] theorem State.setReq_cancelled (s : State) (r : Nat) (v : Req) : (s.setReq r v).cancelled = s.cancelled := rfl
@[simp] theorem State.setReq_nvme (s : State) (r : Nat) (v : Req) : (s.setReq r v).nvme = s.nvme := rfl
@[simp] theorem State.setReq_hostData (s : State) (r : Nat) (v : Req) : (s.setReq r v).hostData = s.hostData := rfl
@[simp] theorem State.setReq_atsWaits (s : State) (r : Nat) (v : Req) : (s.setReq r v).atsWaits = s.atsWaits := rfl
@[simp] theorem State.setReq_atsDone (s : State) (r : Nat) (v : Req) : (s.setReq r v).atsDone = s.atsDone := rfl
@[simp] theorem State.setReq_doubleTraps (s : State) (r : Nat) (v : Req) : (s.setReq r v).doubleTraps = s.doubleTraps := rfl
@[simp] theorem State.setReq_dropped (s : State) (r : Nat) (v : Req) : (s.setReq r v).dropped = s.dropped := rfl
@[simp] theorem State.setReq_curCore (s : State) (r : Nat) (v : Req) : (s.setReq r v).curCore = s.curCore := rfl
@[simp] theorem State.setReq_curSlot (s : State) (r : Nat) (v : Req) : (s.setReq r v).curSlot = s.curSlot := rfl
@[simp] theorem State.setReq_free (s : State) (r : Nat) (v : Req) : (s.setReq r v).free = s.free := rfl
@[simp] theorem State.setReq_pending (s : State) (r : Nat) (v : Req) : (s.setReq r v).pending = s.pending := rfl
@[simp] theorem State.setReq_schedule (s : State) (r : Nat) (v : Req) : (s.setReq r v).schedule = s.schedule := rfl

/-! setReg. -/

@[simp] theorem State.setReg_stage (s : State) (a : Nat) (v : Word) : (s.setReg a v).stage = s.stage := rfl
@[simp] theorem State.setReg_ready (s : State) (a : Nat) (v : Word) : (s.setReg a v).ready = s.ready := rfl
@[simp] theorem State.setReg_failed (s : State) (a : Nat) (v : Word) : (s.setReg a v).failed = s.failed := rfl
@[simp] theorem State.setReg_tslost (s : State) (a : Nat) (v : Word) : (s.setReg a v).tslost = s.tslost := rfl
@[simp] theorem State.setReg_vectors (s : State) (a : Nat) (v : Word) : (s.setReg a v).vectors = s.vectors := rfl
@[simp] theorem State.setReg_primary (s : State) (a : Nat) (v : Word) : (s.setReg a v).primary = s.primary := rfl
@[simp] theorem State.setReg_backup (s : State) (a : Nat) (v : Word) : (s.setReg a v).backup = s.backup := rfl
@[simp] theorem State.setReg_usedBackup (s : State) (a : Nat) (v : Word) : (s.setReg a v).usedBackup = s.usedBackup := rfl
@[simp] theorem State.setReg_keyDigest (s : State) (a : Nat) (v : Word) : (s.setReg a v).keyDigest = s.keyDigest := rfl
@[simp] theorem State.setReg_rollback (s : State) (a : Nat) (v : Word) : (s.setReg a v).rollback = s.rollback := rfl
@[simp] theorem State.setReg_measured (s : State) (a : Nat) (v : Word) : (s.setReg a v).measured = s.measured := rfl
@[simp] theorem State.setReg_configured (s : State) (a : Nat) (v : Word) : (s.setReg a v).configured = s.configured := rfl
@[simp] theorem State.setReg_spdm (s : State) (a : Nat) (v : Word) : (s.setReg a v).spdm = s.spdm := rfl
@[simp] theorem State.setReg_spdmStage (s : State) (a : Nat) (v : Word) : (s.setReg a v).spdmStage = s.spdmStage := rfl
@[simp] theorem State.setReg_spdmHash (s : State) (a : Nat) (v : Word) : (s.setReg a v).spdmHash = s.spdmHash := rfl
@[simp] theorem State.setReg_spdmSlh (s : State) (a : Nat) (v : Word) : (s.setReg a v).spdmSlh = s.spdmSlh := rfl
@[simp] theorem State.setReg_time (s : State) (a : Nat) (v : Word) : (s.setReg a v).time = s.time := rfl
@[simp] theorem State.setReg_badRuns (s : State) (a : Nat) (v : Word) : (s.setReg a v).badRuns = s.badRuns := rfl
@[simp] theorem State.setReg_goodRuns (s : State) (a : Nat) (v : Word) : (s.setReg a v).goodRuns = s.goodRuns := rfl
@[simp] theorem State.setReg_slew (s : State) (a : Nat) (v : Word) : (s.setReg a v).slew = s.slew := rfl
@[simp] theorem State.setReg_hdm (s : State) (a : Nat) (v : Word) : (s.setReg a v).hdm = s.hdm := rfl
@[simp] theorem State.setReg_mem (s : State) (a : Nat) (v : Word) : (s.setReg a v).mem = s.mem := rfl
@[simp] theorem State.setReg_tags (s : State) (a : Nat) (v : Word) : (s.setReg a v).tags = s.tags := rfl
@[simp] theorem State.setReg_bad (s : State) (a : Nat) (v : Word) : (s.setReg a v).bad = s.bad := rfl
@[simp] theorem State.setReg_history (s : State) (a : Nat) (v : Word) : (s.setReg a v).history = s.history := rfl
@[simp] theorem State.setReg_hostLag (s : State) (a : Nat) (v : Word) : (s.setReg a v).hostLag = s.hostLag := rfl
@[simp] theorem State.setReg_rtfree (s : State) (a : Nat) (v : Word) : (s.setReg a v).rtfree = s.rtfree := rfl
@[simp] theorem State.setReg_launch (s : State) (a : Nat) (v : Word) : (s.setReg a v).launch = s.launch := rfl
@[simp] theorem State.setReg_levels (s : State) (a : Nat) (v : Word) : (s.setReg a v).levels = s.levels := rfl
@[simp] theorem State.setReg_reqs (s : State) (a : Nat) (v : Word) : (s.setReg a v).reqs = s.reqs := rfl
@[simp] theorem State.setReg_pools (s : State) (a : Nat) (v : Word) : (s.setReg a v).pools = s.pools := rfl
@[simp] theorem State.setReg_cores (s : State) (a : Nat) (v : Word) : (s.setReg a v).cores = s.cores := rfl
@[simp] theorem State.setReg_slots (s : State) (a : Nat) (v : Word) : (s.setReg a v).slots = s.slots := rfl
@[simp] theorem State.setReg_clusters (s : State) (a : Nat) (v : Word) : (s.setReg a v).clusters = s.clusters := rfl
@[simp] theorem State.setReg_tiles (s : State) (a : Nat) (v : Word) : (s.setReg a v).tiles = s.tiles := rfl
@[simp] theorem State.setReg_dsplit (s : State) (a : Nat) (v : Word) : (s.setReg a v).dsplit = s.dsplit := rfl
@[simp] theorem State.setReg_cellars (s : State) (a : Nat) (v : Word) : (s.setReg a v).cellars = s.cellars := rfl
@[simp] theorem State.setReg_colls (s : State) (a : Nat) (v : Word) : (s.setReg a v).colls = s.colls := rfl
@[simp] theorem State.setReg_groups (s : State) (a : Nat) (v : Word) : (s.setReg a v).groups = s.groups := rfl
@[simp] theorem State.setReg_stairs (s : State) (a : Nat) (v : Word) : (s.setReg a v).stairs = s.stairs := rfl
@[simp] theorem State.setReg_sends (s : State) (a : Nat) (v : Word) : (s.setReg a v).sends = s.sends := rfl
@[simp] theorem State.setReg_services (s : State) (a : Nat) (v : Word) : (s.setReg a v).services = s.services := rfl
@[simp] theorem State.setReg_kept (s : State) (a : Nat) (v : Word) : (s.setReg a v).kept = s.kept := rfl
@[simp] theorem State.setReg_nextId (s : State) (a : Nat) (v : Word) : (s.setReg a v).nextId = s.nextId := rfl
@[simp] theorem State.setReg_larders (s : State) (a : Nat) (v : Word) : (s.setReg a v).larders = s.larders := rfl
@[simp] theorem State.setReg_deferred (s : State) (a : Nat) (v : Word) : (s.setReg a v).deferred = s.deferred := rfl
@[simp] theorem State.setReg_faults (s : State) (a : Nat) (v : Word) : (s.setReg a v).faults = s.faults := rfl
@[simp] theorem State.setReg_fbhead (s : State) (a : Nat) (v : Word) : (s.setReg a v).fbhead = s.fbhead := rfl
@[simp] theorem State.setReg_atc (s : State) (a : Nat) (v : Word) : (s.setReg a v).atc = s.atc := rfl
@[simp] theorem State.setReg_actions (s : State) (a : Nat) (v : Word) : (s.setReg a v).actions = s.actions := rfl
@[simp] theorem State.setReg_power (s : State) (a : Nat) (v : Word) : (s.setReg a v).power = s.power := rfl
@[simp] theorem State.setReg_overTime (s : State) (a : Nat) (v : Word) : (s.setReg a v).overTime = s.overTime := rfl
@[simp] theorem State.setReg_ports (s : State) (a : Nat) (v : Word) : (s.setReg a v).ports = s.ports := rfl
@[simp] theorem State.setReg_dieLinks (s : State) (a : Nat) (v : Word) : (s.setReg a v).dieLinks = s.dieLinks := rfl
@[simp] theorem State.setReg_drives (s : State) (a : Nat) (v : Word) : (s.setReg a v).drives = s.drives := rfl
@[simp] theorem State.setReg_outbox (s : State) (a : Nat) (v : Word) : (s.setReg a v).outbox = s.outbox := rfl
@[simp] theorem State.setReg_replies (s : State) (a : Nat) (v : Word) : (s.setReg a v).replies = s.replies := rfl
@[simp] theorem State.setReg_inbox (s : State) (a : Nat) (v : Word) : (s.setReg a v).inbox = s.inbox := rfl
@[simp] theorem State.setReg_notices (s : State) (a : Nat) (v : Word) : (s.setReg a v).notices = s.notices := rfl
@[simp] theorem State.setReg_cancelled (s : State) (a : Nat) (v : Word) : (s.setReg a v).cancelled = s.cancelled := rfl
@[simp] theorem State.setReg_nvme (s : State) (a : Nat) (v : Word) : (s.setReg a v).nvme = s.nvme := rfl
@[simp] theorem State.setReg_hostData (s : State) (a : Nat) (v : Word) : (s.setReg a v).hostData = s.hostData := rfl
@[simp] theorem State.setReg_atsWaits (s : State) (a : Nat) (v : Word) : (s.setReg a v).atsWaits = s.atsWaits := rfl
@[simp] theorem State.setReg_atsDone (s : State) (a : Nat) (v : Word) : (s.setReg a v).atsDone = s.atsDone := rfl
@[simp] theorem State.setReg_doubleTraps (s : State) (a : Nat) (v : Word) : (s.setReg a v).doubleTraps = s.doubleTraps := rfl
@[simp] theorem State.setReg_dropped (s : State) (a : Nat) (v : Word) : (s.setReg a v).dropped = s.dropped := rfl
@[simp] theorem State.setReg_curCore (s : State) (a : Nat) (v : Word) : (s.setReg a v).curCore = s.curCore := rfl
@[simp] theorem State.setReg_curSlot (s : State) (a : Nat) (v : Word) : (s.setReg a v).curSlot = s.curSlot := rfl
@[simp] theorem State.setReg_free (s : State) (a : Nat) (v : Word) : (s.setReg a v).free = s.free := rfl
@[simp] theorem State.setReg_pending (s : State) (a : Nat) (v : Word) : (s.setReg a v).pending = s.pending := rfl
@[simp] theorem State.setReg_schedule (s : State) (a : Nat) (v : Word) : (s.setReg a v).schedule = s.schedule := rfl

/-! setLevel. -/

@[simp] theorem State.setLevel_stage (s : State) (q l : Nat) (v : Level) : (s.setLevel q l v).stage = s.stage := rfl
@[simp] theorem State.setLevel_ready (s : State) (q l : Nat) (v : Level) : (s.setLevel q l v).ready = s.ready := rfl
@[simp] theorem State.setLevel_failed (s : State) (q l : Nat) (v : Level) : (s.setLevel q l v).failed = s.failed := rfl
@[simp] theorem State.setLevel_tslost (s : State) (q l : Nat) (v : Level) : (s.setLevel q l v).tslost = s.tslost := rfl
@[simp] theorem State.setLevel_vectors (s : State) (q l : Nat) (v : Level) : (s.setLevel q l v).vectors = s.vectors := rfl
@[simp] theorem State.setLevel_primary (s : State) (q l : Nat) (v : Level) : (s.setLevel q l v).primary = s.primary := rfl
@[simp] theorem State.setLevel_backup (s : State) (q l : Nat) (v : Level) : (s.setLevel q l v).backup = s.backup := rfl
@[simp] theorem State.setLevel_usedBackup (s : State) (q l : Nat) (v : Level) : (s.setLevel q l v).usedBackup = s.usedBackup := rfl
@[simp] theorem State.setLevel_keyDigest (s : State) (q l : Nat) (v : Level) : (s.setLevel q l v).keyDigest = s.keyDigest := rfl
@[simp] theorem State.setLevel_rollback (s : State) (q l : Nat) (v : Level) : (s.setLevel q l v).rollback = s.rollback := rfl
@[simp] theorem State.setLevel_measured (s : State) (q l : Nat) (v : Level) : (s.setLevel q l v).measured = s.measured := rfl
@[simp] theorem State.setLevel_configured (s : State) (q l : Nat) (v : Level) : (s.setLevel q l v).configured = s.configured := rfl
@[simp] theorem State.setLevel_spdm (s : State) (q l : Nat) (v : Level) : (s.setLevel q l v).spdm = s.spdm := rfl
@[simp] theorem State.setLevel_spdmStage (s : State) (q l : Nat) (v : Level) : (s.setLevel q l v).spdmStage = s.spdmStage := rfl
@[simp] theorem State.setLevel_spdmHash (s : State) (q l : Nat) (v : Level) : (s.setLevel q l v).spdmHash = s.spdmHash := rfl
@[simp] theorem State.setLevel_spdmSlh (s : State) (q l : Nat) (v : Level) : (s.setLevel q l v).spdmSlh = s.spdmSlh := rfl
@[simp] theorem State.setLevel_time (s : State) (q l : Nat) (v : Level) : (s.setLevel q l v).time = s.time := rfl
@[simp] theorem State.setLevel_badRuns (s : State) (q l : Nat) (v : Level) : (s.setLevel q l v).badRuns = s.badRuns := rfl
@[simp] theorem State.setLevel_goodRuns (s : State) (q l : Nat) (v : Level) : (s.setLevel q l v).goodRuns = s.goodRuns := rfl
@[simp] theorem State.setLevel_slew (s : State) (q l : Nat) (v : Level) : (s.setLevel q l v).slew = s.slew := rfl
@[simp] theorem State.setLevel_hdm (s : State) (q l : Nat) (v : Level) : (s.setLevel q l v).hdm = s.hdm := rfl
@[simp] theorem State.setLevel_mem (s : State) (q l : Nat) (v : Level) : (s.setLevel q l v).mem = s.mem := rfl
@[simp] theorem State.setLevel_tags (s : State) (q l : Nat) (v : Level) : (s.setLevel q l v).tags = s.tags := rfl
@[simp] theorem State.setLevel_bad (s : State) (q l : Nat) (v : Level) : (s.setLevel q l v).bad = s.bad := rfl
@[simp] theorem State.setLevel_history (s : State) (q l : Nat) (v : Level) : (s.setLevel q l v).history = s.history := rfl
@[simp] theorem State.setLevel_hostLag (s : State) (q l : Nat) (v : Level) : (s.setLevel q l v).hostLag = s.hostLag := rfl
@[simp] theorem State.setLevel_regs (s : State) (q l : Nat) (v : Level) : (s.setLevel q l v).regs = s.regs := rfl
@[simp] theorem State.setLevel_rtfree (s : State) (q l : Nat) (v : Level) : (s.setLevel q l v).rtfree = s.rtfree := rfl
@[simp] theorem State.setLevel_launch (s : State) (q l : Nat) (v : Level) : (s.setLevel q l v).launch = s.launch := rfl
@[simp] theorem State.setLevel_reqs (s : State) (q l : Nat) (v : Level) : (s.setLevel q l v).reqs = s.reqs := rfl
@[simp] theorem State.setLevel_pools (s : State) (q l : Nat) (v : Level) : (s.setLevel q l v).pools = s.pools := rfl
@[simp] theorem State.setLevel_cores (s : State) (q l : Nat) (v : Level) : (s.setLevel q l v).cores = s.cores := rfl
@[simp] theorem State.setLevel_slots (s : State) (q l : Nat) (v : Level) : (s.setLevel q l v).slots = s.slots := rfl
@[simp] theorem State.setLevel_clusters (s : State) (q l : Nat) (v : Level) : (s.setLevel q l v).clusters = s.clusters := rfl
@[simp] theorem State.setLevel_tiles (s : State) (q l : Nat) (v : Level) : (s.setLevel q l v).tiles = s.tiles := rfl
@[simp] theorem State.setLevel_dsplit (s : State) (q l : Nat) (v : Level) : (s.setLevel q l v).dsplit = s.dsplit := rfl
@[simp] theorem State.setLevel_cellars (s : State) (q l : Nat) (v : Level) : (s.setLevel q l v).cellars = s.cellars := rfl
@[simp] theorem State.setLevel_colls (s : State) (q l : Nat) (v : Level) : (s.setLevel q l v).colls = s.colls := rfl
@[simp] theorem State.setLevel_groups (s : State) (q l : Nat) (v : Level) : (s.setLevel q l v).groups = s.groups := rfl
@[simp] theorem State.setLevel_stairs (s : State) (q l : Nat) (v : Level) : (s.setLevel q l v).stairs = s.stairs := rfl
@[simp] theorem State.setLevel_sends (s : State) (q l : Nat) (v : Level) : (s.setLevel q l v).sends = s.sends := rfl
@[simp] theorem State.setLevel_services (s : State) (q l : Nat) (v : Level) : (s.setLevel q l v).services = s.services := rfl
@[simp] theorem State.setLevel_kept (s : State) (q l : Nat) (v : Level) : (s.setLevel q l v).kept = s.kept := rfl
@[simp] theorem State.setLevel_nextId (s : State) (q l : Nat) (v : Level) : (s.setLevel q l v).nextId = s.nextId := rfl
@[simp] theorem State.setLevel_larders (s : State) (q l : Nat) (v : Level) : (s.setLevel q l v).larders = s.larders := rfl
@[simp] theorem State.setLevel_deferred (s : State) (q l : Nat) (v : Level) : (s.setLevel q l v).deferred = s.deferred := rfl
@[simp] theorem State.setLevel_faults (s : State) (q l : Nat) (v : Level) : (s.setLevel q l v).faults = s.faults := rfl
@[simp] theorem State.setLevel_fbhead (s : State) (q l : Nat) (v : Level) : (s.setLevel q l v).fbhead = s.fbhead := rfl
@[simp] theorem State.setLevel_atc (s : State) (q l : Nat) (v : Level) : (s.setLevel q l v).atc = s.atc := rfl
@[simp] theorem State.setLevel_actions (s : State) (q l : Nat) (v : Level) : (s.setLevel q l v).actions = s.actions := rfl
@[simp] theorem State.setLevel_power (s : State) (q l : Nat) (v : Level) : (s.setLevel q l v).power = s.power := rfl
@[simp] theorem State.setLevel_overTime (s : State) (q l : Nat) (v : Level) : (s.setLevel q l v).overTime = s.overTime := rfl
@[simp] theorem State.setLevel_ports (s : State) (q l : Nat) (v : Level) : (s.setLevel q l v).ports = s.ports := rfl
@[simp] theorem State.setLevel_dieLinks (s : State) (q l : Nat) (v : Level) : (s.setLevel q l v).dieLinks = s.dieLinks := rfl
@[simp] theorem State.setLevel_drives (s : State) (q l : Nat) (v : Level) : (s.setLevel q l v).drives = s.drives := rfl
@[simp] theorem State.setLevel_outbox (s : State) (q l : Nat) (v : Level) : (s.setLevel q l v).outbox = s.outbox := rfl
@[simp] theorem State.setLevel_replies (s : State) (q l : Nat) (v : Level) : (s.setLevel q l v).replies = s.replies := rfl
@[simp] theorem State.setLevel_inbox (s : State) (q l : Nat) (v : Level) : (s.setLevel q l v).inbox = s.inbox := rfl
@[simp] theorem State.setLevel_notices (s : State) (q l : Nat) (v : Level) : (s.setLevel q l v).notices = s.notices := rfl
@[simp] theorem State.setLevel_cancelled (s : State) (q l : Nat) (v : Level) : (s.setLevel q l v).cancelled = s.cancelled := rfl
@[simp] theorem State.setLevel_nvme (s : State) (q l : Nat) (v : Level) : (s.setLevel q l v).nvme = s.nvme := rfl
@[simp] theorem State.setLevel_hostData (s : State) (q l : Nat) (v : Level) : (s.setLevel q l v).hostData = s.hostData := rfl
@[simp] theorem State.setLevel_atsWaits (s : State) (q l : Nat) (v : Level) : (s.setLevel q l v).atsWaits = s.atsWaits := rfl
@[simp] theorem State.setLevel_atsDone (s : State) (q l : Nat) (v : Level) : (s.setLevel q l v).atsDone = s.atsDone := rfl
@[simp] theorem State.setLevel_doubleTraps (s : State) (q l : Nat) (v : Level) : (s.setLevel q l v).doubleTraps = s.doubleTraps := rfl
@[simp] theorem State.setLevel_dropped (s : State) (q l : Nat) (v : Level) : (s.setLevel q l v).dropped = s.dropped := rfl
@[simp] theorem State.setLevel_curCore (s : State) (q l : Nat) (v : Level) : (s.setLevel q l v).curCore = s.curCore := rfl
@[simp] theorem State.setLevel_curSlot (s : State) (q l : Nat) (v : Level) : (s.setLevel q l v).curSlot = s.curSlot := rfl
@[simp] theorem State.setLevel_free (s : State) (q l : Nat) (v : Level) : (s.setLevel q l v).free = s.free := rfl
@[simp] theorem State.setLevel_pending (s : State) (q l : Nat) (v : Level) : (s.setLevel q l v).pending = s.pending := rfl
@[simp] theorem State.setLevel_schedule (s : State) (q l : Nat) (v : Level) : (s.setLevel q l v).schedule = s.schedule := rfl

/-! setLaunchQ. -/

@[simp] theorem State.setLaunchQ_stage (s : State) (d p : Nat) (v : LaunchQueue) : (s.setLaunchQ d p v).stage = s.stage := rfl
@[simp] theorem State.setLaunchQ_ready (s : State) (d p : Nat) (v : LaunchQueue) : (s.setLaunchQ d p v).ready = s.ready := rfl
@[simp] theorem State.setLaunchQ_failed (s : State) (d p : Nat) (v : LaunchQueue) : (s.setLaunchQ d p v).failed = s.failed := rfl
@[simp] theorem State.setLaunchQ_tslost (s : State) (d p : Nat) (v : LaunchQueue) : (s.setLaunchQ d p v).tslost = s.tslost := rfl
@[simp] theorem State.setLaunchQ_vectors (s : State) (d p : Nat) (v : LaunchQueue) : (s.setLaunchQ d p v).vectors = s.vectors := rfl
@[simp] theorem State.setLaunchQ_primary (s : State) (d p : Nat) (v : LaunchQueue) : (s.setLaunchQ d p v).primary = s.primary := rfl
@[simp] theorem State.setLaunchQ_backup (s : State) (d p : Nat) (v : LaunchQueue) : (s.setLaunchQ d p v).backup = s.backup := rfl
@[simp] theorem State.setLaunchQ_usedBackup (s : State) (d p : Nat) (v : LaunchQueue) : (s.setLaunchQ d p v).usedBackup = s.usedBackup := rfl
@[simp] theorem State.setLaunchQ_keyDigest (s : State) (d p : Nat) (v : LaunchQueue) : (s.setLaunchQ d p v).keyDigest = s.keyDigest := rfl
@[simp] theorem State.setLaunchQ_rollback (s : State) (d p : Nat) (v : LaunchQueue) : (s.setLaunchQ d p v).rollback = s.rollback := rfl
@[simp] theorem State.setLaunchQ_measured (s : State) (d p : Nat) (v : LaunchQueue) : (s.setLaunchQ d p v).measured = s.measured := rfl
@[simp] theorem State.setLaunchQ_configured (s : State) (d p : Nat) (v : LaunchQueue) : (s.setLaunchQ d p v).configured = s.configured := rfl
@[simp] theorem State.setLaunchQ_spdm (s : State) (d p : Nat) (v : LaunchQueue) : (s.setLaunchQ d p v).spdm = s.spdm := rfl
@[simp] theorem State.setLaunchQ_spdmStage (s : State) (d p : Nat) (v : LaunchQueue) : (s.setLaunchQ d p v).spdmStage = s.spdmStage := rfl
@[simp] theorem State.setLaunchQ_spdmHash (s : State) (d p : Nat) (v : LaunchQueue) : (s.setLaunchQ d p v).spdmHash = s.spdmHash := rfl
@[simp] theorem State.setLaunchQ_spdmSlh (s : State) (d p : Nat) (v : LaunchQueue) : (s.setLaunchQ d p v).spdmSlh = s.spdmSlh := rfl
@[simp] theorem State.setLaunchQ_time (s : State) (d p : Nat) (v : LaunchQueue) : (s.setLaunchQ d p v).time = s.time := rfl
@[simp] theorem State.setLaunchQ_badRuns (s : State) (d p : Nat) (v : LaunchQueue) : (s.setLaunchQ d p v).badRuns = s.badRuns := rfl
@[simp] theorem State.setLaunchQ_goodRuns (s : State) (d p : Nat) (v : LaunchQueue) : (s.setLaunchQ d p v).goodRuns = s.goodRuns := rfl
@[simp] theorem State.setLaunchQ_slew (s : State) (d p : Nat) (v : LaunchQueue) : (s.setLaunchQ d p v).slew = s.slew := rfl
@[simp] theorem State.setLaunchQ_hdm (s : State) (d p : Nat) (v : LaunchQueue) : (s.setLaunchQ d p v).hdm = s.hdm := rfl
@[simp] theorem State.setLaunchQ_mem (s : State) (d p : Nat) (v : LaunchQueue) : (s.setLaunchQ d p v).mem = s.mem := rfl
@[simp] theorem State.setLaunchQ_tags (s : State) (d p : Nat) (v : LaunchQueue) : (s.setLaunchQ d p v).tags = s.tags := rfl
@[simp] theorem State.setLaunchQ_bad (s : State) (d p : Nat) (v : LaunchQueue) : (s.setLaunchQ d p v).bad = s.bad := rfl
@[simp] theorem State.setLaunchQ_history (s : State) (d p : Nat) (v : LaunchQueue) : (s.setLaunchQ d p v).history = s.history := rfl
@[simp] theorem State.setLaunchQ_hostLag (s : State) (d p : Nat) (v : LaunchQueue) : (s.setLaunchQ d p v).hostLag = s.hostLag := rfl
@[simp] theorem State.setLaunchQ_regs (s : State) (d p : Nat) (v : LaunchQueue) : (s.setLaunchQ d p v).regs = s.regs := rfl
@[simp] theorem State.setLaunchQ_rtfree (s : State) (d p : Nat) (v : LaunchQueue) : (s.setLaunchQ d p v).rtfree = s.rtfree := rfl
@[simp] theorem State.setLaunchQ_levels (s : State) (d p : Nat) (v : LaunchQueue) : (s.setLaunchQ d p v).levels = s.levels := rfl
@[simp] theorem State.setLaunchQ_reqs (s : State) (d p : Nat) (v : LaunchQueue) : (s.setLaunchQ d p v).reqs = s.reqs := rfl
@[simp] theorem State.setLaunchQ_pools (s : State) (d p : Nat) (v : LaunchQueue) : (s.setLaunchQ d p v).pools = s.pools := rfl
@[simp] theorem State.setLaunchQ_cores (s : State) (d p : Nat) (v : LaunchQueue) : (s.setLaunchQ d p v).cores = s.cores := rfl
@[simp] theorem State.setLaunchQ_slots (s : State) (d p : Nat) (v : LaunchQueue) : (s.setLaunchQ d p v).slots = s.slots := rfl
@[simp] theorem State.setLaunchQ_clusters (s : State) (d p : Nat) (v : LaunchQueue) : (s.setLaunchQ d p v).clusters = s.clusters := rfl
@[simp] theorem State.setLaunchQ_tiles (s : State) (d p : Nat) (v : LaunchQueue) : (s.setLaunchQ d p v).tiles = s.tiles := rfl
@[simp] theorem State.setLaunchQ_dsplit (s : State) (d p : Nat) (v : LaunchQueue) : (s.setLaunchQ d p v).dsplit = s.dsplit := rfl
@[simp] theorem State.setLaunchQ_cellars (s : State) (d p : Nat) (v : LaunchQueue) : (s.setLaunchQ d p v).cellars = s.cellars := rfl
@[simp] theorem State.setLaunchQ_colls (s : State) (d p : Nat) (v : LaunchQueue) : (s.setLaunchQ d p v).colls = s.colls := rfl
@[simp] theorem State.setLaunchQ_groups (s : State) (d p : Nat) (v : LaunchQueue) : (s.setLaunchQ d p v).groups = s.groups := rfl
@[simp] theorem State.setLaunchQ_stairs (s : State) (d p : Nat) (v : LaunchQueue) : (s.setLaunchQ d p v).stairs = s.stairs := rfl
@[simp] theorem State.setLaunchQ_sends (s : State) (d p : Nat) (v : LaunchQueue) : (s.setLaunchQ d p v).sends = s.sends := rfl
@[simp] theorem State.setLaunchQ_services (s : State) (d p : Nat) (v : LaunchQueue) : (s.setLaunchQ d p v).services = s.services := rfl
@[simp] theorem State.setLaunchQ_kept (s : State) (d p : Nat) (v : LaunchQueue) : (s.setLaunchQ d p v).kept = s.kept := rfl
@[simp] theorem State.setLaunchQ_nextId (s : State) (d p : Nat) (v : LaunchQueue) : (s.setLaunchQ d p v).nextId = s.nextId := rfl
@[simp] theorem State.setLaunchQ_larders (s : State) (d p : Nat) (v : LaunchQueue) : (s.setLaunchQ d p v).larders = s.larders := rfl
@[simp] theorem State.setLaunchQ_deferred (s : State) (d p : Nat) (v : LaunchQueue) : (s.setLaunchQ d p v).deferred = s.deferred := rfl
@[simp] theorem State.setLaunchQ_faults (s : State) (d p : Nat) (v : LaunchQueue) : (s.setLaunchQ d p v).faults = s.faults := rfl
@[simp] theorem State.setLaunchQ_fbhead (s : State) (d p : Nat) (v : LaunchQueue) : (s.setLaunchQ d p v).fbhead = s.fbhead := rfl
@[simp] theorem State.setLaunchQ_atc (s : State) (d p : Nat) (v : LaunchQueue) : (s.setLaunchQ d p v).atc = s.atc := rfl
@[simp] theorem State.setLaunchQ_actions (s : State) (d p : Nat) (v : LaunchQueue) : (s.setLaunchQ d p v).actions = s.actions := rfl
@[simp] theorem State.setLaunchQ_power (s : State) (d p : Nat) (v : LaunchQueue) : (s.setLaunchQ d p v).power = s.power := rfl
@[simp] theorem State.setLaunchQ_overTime (s : State) (d p : Nat) (v : LaunchQueue) : (s.setLaunchQ d p v).overTime = s.overTime := rfl
@[simp] theorem State.setLaunchQ_ports (s : State) (d p : Nat) (v : LaunchQueue) : (s.setLaunchQ d p v).ports = s.ports := rfl
@[simp] theorem State.setLaunchQ_dieLinks (s : State) (d p : Nat) (v : LaunchQueue) : (s.setLaunchQ d p v).dieLinks = s.dieLinks := rfl
@[simp] theorem State.setLaunchQ_drives (s : State) (d p : Nat) (v : LaunchQueue) : (s.setLaunchQ d p v).drives = s.drives := rfl
@[simp] theorem State.setLaunchQ_outbox (s : State) (d p : Nat) (v : LaunchQueue) : (s.setLaunchQ d p v).outbox = s.outbox := rfl
@[simp] theorem State.setLaunchQ_replies (s : State) (d p : Nat) (v : LaunchQueue) : (s.setLaunchQ d p v).replies = s.replies := rfl
@[simp] theorem State.setLaunchQ_inbox (s : State) (d p : Nat) (v : LaunchQueue) : (s.setLaunchQ d p v).inbox = s.inbox := rfl
@[simp] theorem State.setLaunchQ_notices (s : State) (d p : Nat) (v : LaunchQueue) : (s.setLaunchQ d p v).notices = s.notices := rfl
@[simp] theorem State.setLaunchQ_cancelled (s : State) (d p : Nat) (v : LaunchQueue) : (s.setLaunchQ d p v).cancelled = s.cancelled := rfl
@[simp] theorem State.setLaunchQ_nvme (s : State) (d p : Nat) (v : LaunchQueue) : (s.setLaunchQ d p v).nvme = s.nvme := rfl
@[simp] theorem State.setLaunchQ_hostData (s : State) (d p : Nat) (v : LaunchQueue) : (s.setLaunchQ d p v).hostData = s.hostData := rfl
@[simp] theorem State.setLaunchQ_atsWaits (s : State) (d p : Nat) (v : LaunchQueue) : (s.setLaunchQ d p v).atsWaits = s.atsWaits := rfl
@[simp] theorem State.setLaunchQ_atsDone (s : State) (d p : Nat) (v : LaunchQueue) : (s.setLaunchQ d p v).atsDone = s.atsDone := rfl
@[simp] theorem State.setLaunchQ_doubleTraps (s : State) (d p : Nat) (v : LaunchQueue) : (s.setLaunchQ d p v).doubleTraps = s.doubleTraps := rfl
@[simp] theorem State.setLaunchQ_dropped (s : State) (d p : Nat) (v : LaunchQueue) : (s.setLaunchQ d p v).dropped = s.dropped := rfl
@[simp] theorem State.setLaunchQ_curCore (s : State) (d p : Nat) (v : LaunchQueue) : (s.setLaunchQ d p v).curCore = s.curCore := rfl
@[simp] theorem State.setLaunchQ_curSlot (s : State) (d p : Nat) (v : LaunchQueue) : (s.setLaunchQ d p v).curSlot = s.curSlot := rfl
@[simp] theorem State.setLaunchQ_free (s : State) (d p : Nat) (v : LaunchQueue) : (s.setLaunchQ d p v).free = s.free := rfl
@[simp] theorem State.setLaunchQ_pending (s : State) (d p : Nat) (v : LaunchQueue) : (s.setLaunchQ d p v).pending = s.pending := rfl
@[simp] theorem State.setLaunchQ_schedule (s : State) (d p : Nat) (v : LaunchQueue) : (s.setLaunchQ d p v).schedule = s.schedule := rfl

/-! setFaultBuf. -/

@[simp] theorem State.setFaultBuf_stage (s : State) (d : Nat) (v : FaultBuffer) : (s.setFaultBuf d v).stage = s.stage := rfl
@[simp] theorem State.setFaultBuf_ready (s : State) (d : Nat) (v : FaultBuffer) : (s.setFaultBuf d v).ready = s.ready := rfl
@[simp] theorem State.setFaultBuf_failed (s : State) (d : Nat) (v : FaultBuffer) : (s.setFaultBuf d v).failed = s.failed := rfl
@[simp] theorem State.setFaultBuf_tslost (s : State) (d : Nat) (v : FaultBuffer) : (s.setFaultBuf d v).tslost = s.tslost := rfl
@[simp] theorem State.setFaultBuf_vectors (s : State) (d : Nat) (v : FaultBuffer) : (s.setFaultBuf d v).vectors = s.vectors := rfl
@[simp] theorem State.setFaultBuf_primary (s : State) (d : Nat) (v : FaultBuffer) : (s.setFaultBuf d v).primary = s.primary := rfl
@[simp] theorem State.setFaultBuf_backup (s : State) (d : Nat) (v : FaultBuffer) : (s.setFaultBuf d v).backup = s.backup := rfl
@[simp] theorem State.setFaultBuf_usedBackup (s : State) (d : Nat) (v : FaultBuffer) : (s.setFaultBuf d v).usedBackup = s.usedBackup := rfl
@[simp] theorem State.setFaultBuf_keyDigest (s : State) (d : Nat) (v : FaultBuffer) : (s.setFaultBuf d v).keyDigest = s.keyDigest := rfl
@[simp] theorem State.setFaultBuf_rollback (s : State) (d : Nat) (v : FaultBuffer) : (s.setFaultBuf d v).rollback = s.rollback := rfl
@[simp] theorem State.setFaultBuf_measured (s : State) (d : Nat) (v : FaultBuffer) : (s.setFaultBuf d v).measured = s.measured := rfl
@[simp] theorem State.setFaultBuf_configured (s : State) (d : Nat) (v : FaultBuffer) : (s.setFaultBuf d v).configured = s.configured := rfl
@[simp] theorem State.setFaultBuf_spdm (s : State) (d : Nat) (v : FaultBuffer) : (s.setFaultBuf d v).spdm = s.spdm := rfl
@[simp] theorem State.setFaultBuf_spdmStage (s : State) (d : Nat) (v : FaultBuffer) : (s.setFaultBuf d v).spdmStage = s.spdmStage := rfl
@[simp] theorem State.setFaultBuf_spdmHash (s : State) (d : Nat) (v : FaultBuffer) : (s.setFaultBuf d v).spdmHash = s.spdmHash := rfl
@[simp] theorem State.setFaultBuf_spdmSlh (s : State) (d : Nat) (v : FaultBuffer) : (s.setFaultBuf d v).spdmSlh = s.spdmSlh := rfl
@[simp] theorem State.setFaultBuf_time (s : State) (d : Nat) (v : FaultBuffer) : (s.setFaultBuf d v).time = s.time := rfl
@[simp] theorem State.setFaultBuf_badRuns (s : State) (d : Nat) (v : FaultBuffer) : (s.setFaultBuf d v).badRuns = s.badRuns := rfl
@[simp] theorem State.setFaultBuf_goodRuns (s : State) (d : Nat) (v : FaultBuffer) : (s.setFaultBuf d v).goodRuns = s.goodRuns := rfl
@[simp] theorem State.setFaultBuf_slew (s : State) (d : Nat) (v : FaultBuffer) : (s.setFaultBuf d v).slew = s.slew := rfl
@[simp] theorem State.setFaultBuf_hdm (s : State) (d : Nat) (v : FaultBuffer) : (s.setFaultBuf d v).hdm = s.hdm := rfl
@[simp] theorem State.setFaultBuf_mem (s : State) (d : Nat) (v : FaultBuffer) : (s.setFaultBuf d v).mem = s.mem := rfl
@[simp] theorem State.setFaultBuf_tags (s : State) (d : Nat) (v : FaultBuffer) : (s.setFaultBuf d v).tags = s.tags := rfl
@[simp] theorem State.setFaultBuf_bad (s : State) (d : Nat) (v : FaultBuffer) : (s.setFaultBuf d v).bad = s.bad := rfl
@[simp] theorem State.setFaultBuf_history (s : State) (d : Nat) (v : FaultBuffer) : (s.setFaultBuf d v).history = s.history := rfl
@[simp] theorem State.setFaultBuf_hostLag (s : State) (d : Nat) (v : FaultBuffer) : (s.setFaultBuf d v).hostLag = s.hostLag := rfl
@[simp] theorem State.setFaultBuf_regs (s : State) (d : Nat) (v : FaultBuffer) : (s.setFaultBuf d v).regs = s.regs := rfl
@[simp] theorem State.setFaultBuf_rtfree (s : State) (d : Nat) (v : FaultBuffer) : (s.setFaultBuf d v).rtfree = s.rtfree := rfl
@[simp] theorem State.setFaultBuf_launch (s : State) (d : Nat) (v : FaultBuffer) : (s.setFaultBuf d v).launch = s.launch := rfl
@[simp] theorem State.setFaultBuf_levels (s : State) (d : Nat) (v : FaultBuffer) : (s.setFaultBuf d v).levels = s.levels := rfl
@[simp] theorem State.setFaultBuf_reqs (s : State) (d : Nat) (v : FaultBuffer) : (s.setFaultBuf d v).reqs = s.reqs := rfl
@[simp] theorem State.setFaultBuf_pools (s : State) (d : Nat) (v : FaultBuffer) : (s.setFaultBuf d v).pools = s.pools := rfl
@[simp] theorem State.setFaultBuf_cores (s : State) (d : Nat) (v : FaultBuffer) : (s.setFaultBuf d v).cores = s.cores := rfl
@[simp] theorem State.setFaultBuf_slots (s : State) (d : Nat) (v : FaultBuffer) : (s.setFaultBuf d v).slots = s.slots := rfl
@[simp] theorem State.setFaultBuf_clusters (s : State) (d : Nat) (v : FaultBuffer) : (s.setFaultBuf d v).clusters = s.clusters := rfl
@[simp] theorem State.setFaultBuf_tiles (s : State) (d : Nat) (v : FaultBuffer) : (s.setFaultBuf d v).tiles = s.tiles := rfl
@[simp] theorem State.setFaultBuf_dsplit (s : State) (d : Nat) (v : FaultBuffer) : (s.setFaultBuf d v).dsplit = s.dsplit := rfl
@[simp] theorem State.setFaultBuf_cellars (s : State) (d : Nat) (v : FaultBuffer) : (s.setFaultBuf d v).cellars = s.cellars := rfl
@[simp] theorem State.setFaultBuf_colls (s : State) (d : Nat) (v : FaultBuffer) : (s.setFaultBuf d v).colls = s.colls := rfl
@[simp] theorem State.setFaultBuf_groups (s : State) (d : Nat) (v : FaultBuffer) : (s.setFaultBuf d v).groups = s.groups := rfl
@[simp] theorem State.setFaultBuf_stairs (s : State) (d : Nat) (v : FaultBuffer) : (s.setFaultBuf d v).stairs = s.stairs := rfl
@[simp] theorem State.setFaultBuf_sends (s : State) (d : Nat) (v : FaultBuffer) : (s.setFaultBuf d v).sends = s.sends := rfl
@[simp] theorem State.setFaultBuf_services (s : State) (d : Nat) (v : FaultBuffer) : (s.setFaultBuf d v).services = s.services := rfl
@[simp] theorem State.setFaultBuf_kept (s : State) (d : Nat) (v : FaultBuffer) : (s.setFaultBuf d v).kept = s.kept := rfl
@[simp] theorem State.setFaultBuf_nextId (s : State) (d : Nat) (v : FaultBuffer) : (s.setFaultBuf d v).nextId = s.nextId := rfl
@[simp] theorem State.setFaultBuf_larders (s : State) (d : Nat) (v : FaultBuffer) : (s.setFaultBuf d v).larders = s.larders := rfl
@[simp] theorem State.setFaultBuf_deferred (s : State) (d : Nat) (v : FaultBuffer) : (s.setFaultBuf d v).deferred = s.deferred := rfl
@[simp] theorem State.setFaultBuf_fbhead (s : State) (d : Nat) (v : FaultBuffer) : (s.setFaultBuf d v).fbhead = s.fbhead := rfl
@[simp] theorem State.setFaultBuf_atc (s : State) (d : Nat) (v : FaultBuffer) : (s.setFaultBuf d v).atc = s.atc := rfl
@[simp] theorem State.setFaultBuf_actions (s : State) (d : Nat) (v : FaultBuffer) : (s.setFaultBuf d v).actions = s.actions := rfl
@[simp] theorem State.setFaultBuf_power (s : State) (d : Nat) (v : FaultBuffer) : (s.setFaultBuf d v).power = s.power := rfl
@[simp] theorem State.setFaultBuf_overTime (s : State) (d : Nat) (v : FaultBuffer) : (s.setFaultBuf d v).overTime = s.overTime := rfl
@[simp] theorem State.setFaultBuf_ports (s : State) (d : Nat) (v : FaultBuffer) : (s.setFaultBuf d v).ports = s.ports := rfl
@[simp] theorem State.setFaultBuf_dieLinks (s : State) (d : Nat) (v : FaultBuffer) : (s.setFaultBuf d v).dieLinks = s.dieLinks := rfl
@[simp] theorem State.setFaultBuf_drives (s : State) (d : Nat) (v : FaultBuffer) : (s.setFaultBuf d v).drives = s.drives := rfl
@[simp] theorem State.setFaultBuf_outbox (s : State) (d : Nat) (v : FaultBuffer) : (s.setFaultBuf d v).outbox = s.outbox := rfl
@[simp] theorem State.setFaultBuf_replies (s : State) (d : Nat) (v : FaultBuffer) : (s.setFaultBuf d v).replies = s.replies := rfl
@[simp] theorem State.setFaultBuf_inbox (s : State) (d : Nat) (v : FaultBuffer) : (s.setFaultBuf d v).inbox = s.inbox := rfl
@[simp] theorem State.setFaultBuf_notices (s : State) (d : Nat) (v : FaultBuffer) : (s.setFaultBuf d v).notices = s.notices := rfl
@[simp] theorem State.setFaultBuf_cancelled (s : State) (d : Nat) (v : FaultBuffer) : (s.setFaultBuf d v).cancelled = s.cancelled := rfl
@[simp] theorem State.setFaultBuf_nvme (s : State) (d : Nat) (v : FaultBuffer) : (s.setFaultBuf d v).nvme = s.nvme := rfl
@[simp] theorem State.setFaultBuf_hostData (s : State) (d : Nat) (v : FaultBuffer) : (s.setFaultBuf d v).hostData = s.hostData := rfl
@[simp] theorem State.setFaultBuf_atsWaits (s : State) (d : Nat) (v : FaultBuffer) : (s.setFaultBuf d v).atsWaits = s.atsWaits := rfl
@[simp] theorem State.setFaultBuf_atsDone (s : State) (d : Nat) (v : FaultBuffer) : (s.setFaultBuf d v).atsDone = s.atsDone := rfl
@[simp] theorem State.setFaultBuf_doubleTraps (s : State) (d : Nat) (v : FaultBuffer) : (s.setFaultBuf d v).doubleTraps = s.doubleTraps := rfl
@[simp] theorem State.setFaultBuf_dropped (s : State) (d : Nat) (v : FaultBuffer) : (s.setFaultBuf d v).dropped = s.dropped := rfl
@[simp] theorem State.setFaultBuf_curCore (s : State) (d : Nat) (v : FaultBuffer) : (s.setFaultBuf d v).curCore = s.curCore := rfl
@[simp] theorem State.setFaultBuf_curSlot (s : State) (d : Nat) (v : FaultBuffer) : (s.setFaultBuf d v).curSlot = s.curSlot := rfl
@[simp] theorem State.setFaultBuf_free (s : State) (d : Nat) (v : FaultBuffer) : (s.setFaultBuf d v).free = s.free := rfl
@[simp] theorem State.setFaultBuf_pending (s : State) (d : Nat) (v : FaultBuffer) : (s.setFaultBuf d v).pending = s.pending := rfl
@[simp] theorem State.setFaultBuf_schedule (s : State) (d : Nat) (v : FaultBuffer) : (s.setFaultBuf d v).schedule = s.schedule := rfl

/-! setLarder. -/

@[simp] theorem State.setLarder_stage (s : State) (p : Nat) (v : Larder) : (s.setLarder p v).stage = s.stage := rfl
@[simp] theorem State.setLarder_ready (s : State) (p : Nat) (v : Larder) : (s.setLarder p v).ready = s.ready := rfl
@[simp] theorem State.setLarder_failed (s : State) (p : Nat) (v : Larder) : (s.setLarder p v).failed = s.failed := rfl
@[simp] theorem State.setLarder_tslost (s : State) (p : Nat) (v : Larder) : (s.setLarder p v).tslost = s.tslost := rfl
@[simp] theorem State.setLarder_vectors (s : State) (p : Nat) (v : Larder) : (s.setLarder p v).vectors = s.vectors := rfl
@[simp] theorem State.setLarder_primary (s : State) (p : Nat) (v : Larder) : (s.setLarder p v).primary = s.primary := rfl
@[simp] theorem State.setLarder_backup (s : State) (p : Nat) (v : Larder) : (s.setLarder p v).backup = s.backup := rfl
@[simp] theorem State.setLarder_usedBackup (s : State) (p : Nat) (v : Larder) : (s.setLarder p v).usedBackup = s.usedBackup := rfl
@[simp] theorem State.setLarder_keyDigest (s : State) (p : Nat) (v : Larder) : (s.setLarder p v).keyDigest = s.keyDigest := rfl
@[simp] theorem State.setLarder_rollback (s : State) (p : Nat) (v : Larder) : (s.setLarder p v).rollback = s.rollback := rfl
@[simp] theorem State.setLarder_measured (s : State) (p : Nat) (v : Larder) : (s.setLarder p v).measured = s.measured := rfl
@[simp] theorem State.setLarder_configured (s : State) (p : Nat) (v : Larder) : (s.setLarder p v).configured = s.configured := rfl
@[simp] theorem State.setLarder_spdm (s : State) (p : Nat) (v : Larder) : (s.setLarder p v).spdm = s.spdm := rfl
@[simp] theorem State.setLarder_spdmStage (s : State) (p : Nat) (v : Larder) : (s.setLarder p v).spdmStage = s.spdmStage := rfl
@[simp] theorem State.setLarder_spdmHash (s : State) (p : Nat) (v : Larder) : (s.setLarder p v).spdmHash = s.spdmHash := rfl
@[simp] theorem State.setLarder_spdmSlh (s : State) (p : Nat) (v : Larder) : (s.setLarder p v).spdmSlh = s.spdmSlh := rfl
@[simp] theorem State.setLarder_time (s : State) (p : Nat) (v : Larder) : (s.setLarder p v).time = s.time := rfl
@[simp] theorem State.setLarder_badRuns (s : State) (p : Nat) (v : Larder) : (s.setLarder p v).badRuns = s.badRuns := rfl
@[simp] theorem State.setLarder_goodRuns (s : State) (p : Nat) (v : Larder) : (s.setLarder p v).goodRuns = s.goodRuns := rfl
@[simp] theorem State.setLarder_slew (s : State) (p : Nat) (v : Larder) : (s.setLarder p v).slew = s.slew := rfl
@[simp] theorem State.setLarder_hdm (s : State) (p : Nat) (v : Larder) : (s.setLarder p v).hdm = s.hdm := rfl
@[simp] theorem State.setLarder_mem (s : State) (p : Nat) (v : Larder) : (s.setLarder p v).mem = s.mem := rfl
@[simp] theorem State.setLarder_tags (s : State) (p : Nat) (v : Larder) : (s.setLarder p v).tags = s.tags := rfl
@[simp] theorem State.setLarder_bad (s : State) (p : Nat) (v : Larder) : (s.setLarder p v).bad = s.bad := rfl
@[simp] theorem State.setLarder_history (s : State) (p : Nat) (v : Larder) : (s.setLarder p v).history = s.history := rfl
@[simp] theorem State.setLarder_hostLag (s : State) (p : Nat) (v : Larder) : (s.setLarder p v).hostLag = s.hostLag := rfl
@[simp] theorem State.setLarder_regs (s : State) (p : Nat) (v : Larder) : (s.setLarder p v).regs = s.regs := rfl
@[simp] theorem State.setLarder_rtfree (s : State) (p : Nat) (v : Larder) : (s.setLarder p v).rtfree = s.rtfree := rfl
@[simp] theorem State.setLarder_launch (s : State) (p : Nat) (v : Larder) : (s.setLarder p v).launch = s.launch := rfl
@[simp] theorem State.setLarder_levels (s : State) (p : Nat) (v : Larder) : (s.setLarder p v).levels = s.levels := rfl
@[simp] theorem State.setLarder_reqs (s : State) (p : Nat) (v : Larder) : (s.setLarder p v).reqs = s.reqs := rfl
@[simp] theorem State.setLarder_pools (s : State) (p : Nat) (v : Larder) : (s.setLarder p v).pools = s.pools := rfl
@[simp] theorem State.setLarder_cores (s : State) (p : Nat) (v : Larder) : (s.setLarder p v).cores = s.cores := rfl
@[simp] theorem State.setLarder_slots (s : State) (p : Nat) (v : Larder) : (s.setLarder p v).slots = s.slots := rfl
@[simp] theorem State.setLarder_clusters (s : State) (p : Nat) (v : Larder) : (s.setLarder p v).clusters = s.clusters := rfl
@[simp] theorem State.setLarder_tiles (s : State) (p : Nat) (v : Larder) : (s.setLarder p v).tiles = s.tiles := rfl
@[simp] theorem State.setLarder_dsplit (s : State) (p : Nat) (v : Larder) : (s.setLarder p v).dsplit = s.dsplit := rfl
@[simp] theorem State.setLarder_cellars (s : State) (p : Nat) (v : Larder) : (s.setLarder p v).cellars = s.cellars := rfl
@[simp] theorem State.setLarder_colls (s : State) (p : Nat) (v : Larder) : (s.setLarder p v).colls = s.colls := rfl
@[simp] theorem State.setLarder_groups (s : State) (p : Nat) (v : Larder) : (s.setLarder p v).groups = s.groups := rfl
@[simp] theorem State.setLarder_stairs (s : State) (p : Nat) (v : Larder) : (s.setLarder p v).stairs = s.stairs := rfl
@[simp] theorem State.setLarder_sends (s : State) (p : Nat) (v : Larder) : (s.setLarder p v).sends = s.sends := rfl
@[simp] theorem State.setLarder_services (s : State) (p : Nat) (v : Larder) : (s.setLarder p v).services = s.services := rfl
@[simp] theorem State.setLarder_kept (s : State) (p : Nat) (v : Larder) : (s.setLarder p v).kept = s.kept := rfl
@[simp] theorem State.setLarder_nextId (s : State) (p : Nat) (v : Larder) : (s.setLarder p v).nextId = s.nextId := rfl
@[simp] theorem State.setLarder_deferred (s : State) (p : Nat) (v : Larder) : (s.setLarder p v).deferred = s.deferred := rfl
@[simp] theorem State.setLarder_faults (s : State) (p : Nat) (v : Larder) : (s.setLarder p v).faults = s.faults := rfl
@[simp] theorem State.setLarder_fbhead (s : State) (p : Nat) (v : Larder) : (s.setLarder p v).fbhead = s.fbhead := rfl
@[simp] theorem State.setLarder_atc (s : State) (p : Nat) (v : Larder) : (s.setLarder p v).atc = s.atc := rfl
@[simp] theorem State.setLarder_actions (s : State) (p : Nat) (v : Larder) : (s.setLarder p v).actions = s.actions := rfl
@[simp] theorem State.setLarder_power (s : State) (p : Nat) (v : Larder) : (s.setLarder p v).power = s.power := rfl
@[simp] theorem State.setLarder_overTime (s : State) (p : Nat) (v : Larder) : (s.setLarder p v).overTime = s.overTime := rfl
@[simp] theorem State.setLarder_ports (s : State) (p : Nat) (v : Larder) : (s.setLarder p v).ports = s.ports := rfl
@[simp] theorem State.setLarder_dieLinks (s : State) (p : Nat) (v : Larder) : (s.setLarder p v).dieLinks = s.dieLinks := rfl
@[simp] theorem State.setLarder_drives (s : State) (p : Nat) (v : Larder) : (s.setLarder p v).drives = s.drives := rfl
@[simp] theorem State.setLarder_outbox (s : State) (p : Nat) (v : Larder) : (s.setLarder p v).outbox = s.outbox := rfl
@[simp] theorem State.setLarder_replies (s : State) (p : Nat) (v : Larder) : (s.setLarder p v).replies = s.replies := rfl
@[simp] theorem State.setLarder_inbox (s : State) (p : Nat) (v : Larder) : (s.setLarder p v).inbox = s.inbox := rfl
@[simp] theorem State.setLarder_notices (s : State) (p : Nat) (v : Larder) : (s.setLarder p v).notices = s.notices := rfl
@[simp] theorem State.setLarder_cancelled (s : State) (p : Nat) (v : Larder) : (s.setLarder p v).cancelled = s.cancelled := rfl
@[simp] theorem State.setLarder_nvme (s : State) (p : Nat) (v : Larder) : (s.setLarder p v).nvme = s.nvme := rfl
@[simp] theorem State.setLarder_hostData (s : State) (p : Nat) (v : Larder) : (s.setLarder p v).hostData = s.hostData := rfl
@[simp] theorem State.setLarder_atsWaits (s : State) (p : Nat) (v : Larder) : (s.setLarder p v).atsWaits = s.atsWaits := rfl
@[simp] theorem State.setLarder_atsDone (s : State) (p : Nat) (v : Larder) : (s.setLarder p v).atsDone = s.atsDone := rfl
@[simp] theorem State.setLarder_doubleTraps (s : State) (p : Nat) (v : Larder) : (s.setLarder p v).doubleTraps = s.doubleTraps := rfl
@[simp] theorem State.setLarder_dropped (s : State) (p : Nat) (v : Larder) : (s.setLarder p v).dropped = s.dropped := rfl
@[simp] theorem State.setLarder_curCore (s : State) (p : Nat) (v : Larder) : (s.setLarder p v).curCore = s.curCore := rfl
@[simp] theorem State.setLarder_curSlot (s : State) (p : Nat) (v : Larder) : (s.setLarder p v).curSlot = s.curSlot := rfl
@[simp] theorem State.setLarder_free (s : State) (p : Nat) (v : Larder) : (s.setLarder p v).free = s.free := rfl
@[simp] theorem State.setLarder_pending (s : State) (p : Nat) (v : Larder) : (s.setLarder p v).pending = s.pending := rfl
@[simp] theorem State.setLarder_schedule (s : State) (p : Nat) (v : Larder) : (s.setLarder p v).schedule = s.schedule := rfl

/-! modCluster. -/

@[simp] theorem State.modCluster_stage (s : State) (c : Nat) (f : Cluster → Cluster) : (s.modCluster c f).stage = s.stage := rfl
@[simp] theorem State.modCluster_ready (s : State) (c : Nat) (f : Cluster → Cluster) : (s.modCluster c f).ready = s.ready := rfl
@[simp] theorem State.modCluster_failed (s : State) (c : Nat) (f : Cluster → Cluster) : (s.modCluster c f).failed = s.failed := rfl
@[simp] theorem State.modCluster_tslost (s : State) (c : Nat) (f : Cluster → Cluster) : (s.modCluster c f).tslost = s.tslost := rfl
@[simp] theorem State.modCluster_vectors (s : State) (c : Nat) (f : Cluster → Cluster) : (s.modCluster c f).vectors = s.vectors := rfl
@[simp] theorem State.modCluster_primary (s : State) (c : Nat) (f : Cluster → Cluster) : (s.modCluster c f).primary = s.primary := rfl
@[simp] theorem State.modCluster_backup (s : State) (c : Nat) (f : Cluster → Cluster) : (s.modCluster c f).backup = s.backup := rfl
@[simp] theorem State.modCluster_usedBackup (s : State) (c : Nat) (f : Cluster → Cluster) : (s.modCluster c f).usedBackup = s.usedBackup := rfl
@[simp] theorem State.modCluster_keyDigest (s : State) (c : Nat) (f : Cluster → Cluster) : (s.modCluster c f).keyDigest = s.keyDigest := rfl
@[simp] theorem State.modCluster_rollback (s : State) (c : Nat) (f : Cluster → Cluster) : (s.modCluster c f).rollback = s.rollback := rfl
@[simp] theorem State.modCluster_measured (s : State) (c : Nat) (f : Cluster → Cluster) : (s.modCluster c f).measured = s.measured := rfl
@[simp] theorem State.modCluster_configured (s : State) (c : Nat) (f : Cluster → Cluster) : (s.modCluster c f).configured = s.configured := rfl
@[simp] theorem State.modCluster_spdm (s : State) (c : Nat) (f : Cluster → Cluster) : (s.modCluster c f).spdm = s.spdm := rfl
@[simp] theorem State.modCluster_spdmStage (s : State) (c : Nat) (f : Cluster → Cluster) : (s.modCluster c f).spdmStage = s.spdmStage := rfl
@[simp] theorem State.modCluster_spdmHash (s : State) (c : Nat) (f : Cluster → Cluster) : (s.modCluster c f).spdmHash = s.spdmHash := rfl
@[simp] theorem State.modCluster_spdmSlh (s : State) (c : Nat) (f : Cluster → Cluster) : (s.modCluster c f).spdmSlh = s.spdmSlh := rfl
@[simp] theorem State.modCluster_time (s : State) (c : Nat) (f : Cluster → Cluster) : (s.modCluster c f).time = s.time := rfl
@[simp] theorem State.modCluster_badRuns (s : State) (c : Nat) (f : Cluster → Cluster) : (s.modCluster c f).badRuns = s.badRuns := rfl
@[simp] theorem State.modCluster_goodRuns (s : State) (c : Nat) (f : Cluster → Cluster) : (s.modCluster c f).goodRuns = s.goodRuns := rfl
@[simp] theorem State.modCluster_slew (s : State) (c : Nat) (f : Cluster → Cluster) : (s.modCluster c f).slew = s.slew := rfl
@[simp] theorem State.modCluster_hdm (s : State) (c : Nat) (f : Cluster → Cluster) : (s.modCluster c f).hdm = s.hdm := rfl
@[simp] theorem State.modCluster_mem (s : State) (c : Nat) (f : Cluster → Cluster) : (s.modCluster c f).mem = s.mem := rfl
@[simp] theorem State.modCluster_tags (s : State) (c : Nat) (f : Cluster → Cluster) : (s.modCluster c f).tags = s.tags := rfl
@[simp] theorem State.modCluster_bad (s : State) (c : Nat) (f : Cluster → Cluster) : (s.modCluster c f).bad = s.bad := rfl
@[simp] theorem State.modCluster_history (s : State) (c : Nat) (f : Cluster → Cluster) : (s.modCluster c f).history = s.history := rfl
@[simp] theorem State.modCluster_hostLag (s : State) (c : Nat) (f : Cluster → Cluster) : (s.modCluster c f).hostLag = s.hostLag := rfl
@[simp] theorem State.modCluster_regs (s : State) (c : Nat) (f : Cluster → Cluster) : (s.modCluster c f).regs = s.regs := rfl
@[simp] theorem State.modCluster_rtfree (s : State) (c : Nat) (f : Cluster → Cluster) : (s.modCluster c f).rtfree = s.rtfree := rfl
@[simp] theorem State.modCluster_launch (s : State) (c : Nat) (f : Cluster → Cluster) : (s.modCluster c f).launch = s.launch := rfl
@[simp] theorem State.modCluster_levels (s : State) (c : Nat) (f : Cluster → Cluster) : (s.modCluster c f).levels = s.levels := rfl
@[simp] theorem State.modCluster_reqs (s : State) (c : Nat) (f : Cluster → Cluster) : (s.modCluster c f).reqs = s.reqs := rfl
@[simp] theorem State.modCluster_pools (s : State) (c : Nat) (f : Cluster → Cluster) : (s.modCluster c f).pools = s.pools := rfl
@[simp] theorem State.modCluster_cores (s : State) (c : Nat) (f : Cluster → Cluster) : (s.modCluster c f).cores = s.cores := rfl
@[simp] theorem State.modCluster_slots (s : State) (c : Nat) (f : Cluster → Cluster) : (s.modCluster c f).slots = s.slots := rfl
@[simp] theorem State.modCluster_tiles (s : State) (c : Nat) (f : Cluster → Cluster) : (s.modCluster c f).tiles = s.tiles := rfl
@[simp] theorem State.modCluster_dsplit (s : State) (c : Nat) (f : Cluster → Cluster) : (s.modCluster c f).dsplit = s.dsplit := rfl
@[simp] theorem State.modCluster_cellars (s : State) (c : Nat) (f : Cluster → Cluster) : (s.modCluster c f).cellars = s.cellars := rfl
@[simp] theorem State.modCluster_colls (s : State) (c : Nat) (f : Cluster → Cluster) : (s.modCluster c f).colls = s.colls := rfl
@[simp] theorem State.modCluster_groups (s : State) (c : Nat) (f : Cluster → Cluster) : (s.modCluster c f).groups = s.groups := rfl
@[simp] theorem State.modCluster_stairs (s : State) (c : Nat) (f : Cluster → Cluster) : (s.modCluster c f).stairs = s.stairs := rfl
@[simp] theorem State.modCluster_sends (s : State) (c : Nat) (f : Cluster → Cluster) : (s.modCluster c f).sends = s.sends := rfl
@[simp] theorem State.modCluster_services (s : State) (c : Nat) (f : Cluster → Cluster) : (s.modCluster c f).services = s.services := rfl
@[simp] theorem State.modCluster_kept (s : State) (c : Nat) (f : Cluster → Cluster) : (s.modCluster c f).kept = s.kept := rfl
@[simp] theorem State.modCluster_nextId (s : State) (c : Nat) (f : Cluster → Cluster) : (s.modCluster c f).nextId = s.nextId := rfl
@[simp] theorem State.modCluster_larders (s : State) (c : Nat) (f : Cluster → Cluster) : (s.modCluster c f).larders = s.larders := rfl
@[simp] theorem State.modCluster_deferred (s : State) (c : Nat) (f : Cluster → Cluster) : (s.modCluster c f).deferred = s.deferred := rfl
@[simp] theorem State.modCluster_faults (s : State) (c : Nat) (f : Cluster → Cluster) : (s.modCluster c f).faults = s.faults := rfl
@[simp] theorem State.modCluster_fbhead (s : State) (c : Nat) (f : Cluster → Cluster) : (s.modCluster c f).fbhead = s.fbhead := rfl
@[simp] theorem State.modCluster_atc (s : State) (c : Nat) (f : Cluster → Cluster) : (s.modCluster c f).atc = s.atc := rfl
@[simp] theorem State.modCluster_actions (s : State) (c : Nat) (f : Cluster → Cluster) : (s.modCluster c f).actions = s.actions := rfl
@[simp] theorem State.modCluster_power (s : State) (c : Nat) (f : Cluster → Cluster) : (s.modCluster c f).power = s.power := rfl
@[simp] theorem State.modCluster_overTime (s : State) (c : Nat) (f : Cluster → Cluster) : (s.modCluster c f).overTime = s.overTime := rfl
@[simp] theorem State.modCluster_ports (s : State) (c : Nat) (f : Cluster → Cluster) : (s.modCluster c f).ports = s.ports := rfl
@[simp] theorem State.modCluster_dieLinks (s : State) (c : Nat) (f : Cluster → Cluster) : (s.modCluster c f).dieLinks = s.dieLinks := rfl
@[simp] theorem State.modCluster_drives (s : State) (c : Nat) (f : Cluster → Cluster) : (s.modCluster c f).drives = s.drives := rfl
@[simp] theorem State.modCluster_outbox (s : State) (c : Nat) (f : Cluster → Cluster) : (s.modCluster c f).outbox = s.outbox := rfl
@[simp] theorem State.modCluster_replies (s : State) (c : Nat) (f : Cluster → Cluster) : (s.modCluster c f).replies = s.replies := rfl
@[simp] theorem State.modCluster_inbox (s : State) (c : Nat) (f : Cluster → Cluster) : (s.modCluster c f).inbox = s.inbox := rfl
@[simp] theorem State.modCluster_notices (s : State) (c : Nat) (f : Cluster → Cluster) : (s.modCluster c f).notices = s.notices := rfl
@[simp] theorem State.modCluster_cancelled (s : State) (c : Nat) (f : Cluster → Cluster) : (s.modCluster c f).cancelled = s.cancelled := rfl
@[simp] theorem State.modCluster_nvme (s : State) (c : Nat) (f : Cluster → Cluster) : (s.modCluster c f).nvme = s.nvme := rfl
@[simp] theorem State.modCluster_hostData (s : State) (c : Nat) (f : Cluster → Cluster) : (s.modCluster c f).hostData = s.hostData := rfl
@[simp] theorem State.modCluster_atsWaits (s : State) (c : Nat) (f : Cluster → Cluster) : (s.modCluster c f).atsWaits = s.atsWaits := rfl
@[simp] theorem State.modCluster_atsDone (s : State) (c : Nat) (f : Cluster → Cluster) : (s.modCluster c f).atsDone = s.atsDone := rfl
@[simp] theorem State.modCluster_doubleTraps (s : State) (c : Nat) (f : Cluster → Cluster) : (s.modCluster c f).doubleTraps = s.doubleTraps := rfl
@[simp] theorem State.modCluster_dropped (s : State) (c : Nat) (f : Cluster → Cluster) : (s.modCluster c f).dropped = s.dropped := rfl
@[simp] theorem State.modCluster_curCore (s : State) (c : Nat) (f : Cluster → Cluster) : (s.modCluster c f).curCore = s.curCore := rfl
@[simp] theorem State.modCluster_curSlot (s : State) (c : Nat) (f : Cluster → Cluster) : (s.modCluster c f).curSlot = s.curSlot := rfl
@[simp] theorem State.modCluster_free (s : State) (c : Nat) (f : Cluster → Cluster) : (s.modCluster c f).free = s.free := rfl
@[simp] theorem State.modCluster_pending (s : State) (c : Nat) (f : Cluster → Cluster) : (s.modCluster c f).pending = s.pending := rfl
@[simp] theorem State.modCluster_schedule (s : State) (c : Nat) (f : Cluster → Cluster) : (s.modCluster c f).schedule = s.schedule := rfl

/-! modTile. -/

@[simp] theorem State.modTile_stage (s : State) (i : Nat) (f : Tile → Tile) : (s.modTile i f).stage = s.stage := rfl
@[simp] theorem State.modTile_ready (s : State) (i : Nat) (f : Tile → Tile) : (s.modTile i f).ready = s.ready := rfl
@[simp] theorem State.modTile_failed (s : State) (i : Nat) (f : Tile → Tile) : (s.modTile i f).failed = s.failed := rfl
@[simp] theorem State.modTile_tslost (s : State) (i : Nat) (f : Tile → Tile) : (s.modTile i f).tslost = s.tslost := rfl
@[simp] theorem State.modTile_vectors (s : State) (i : Nat) (f : Tile → Tile) : (s.modTile i f).vectors = s.vectors := rfl
@[simp] theorem State.modTile_primary (s : State) (i : Nat) (f : Tile → Tile) : (s.modTile i f).primary = s.primary := rfl
@[simp] theorem State.modTile_backup (s : State) (i : Nat) (f : Tile → Tile) : (s.modTile i f).backup = s.backup := rfl
@[simp] theorem State.modTile_usedBackup (s : State) (i : Nat) (f : Tile → Tile) : (s.modTile i f).usedBackup = s.usedBackup := rfl
@[simp] theorem State.modTile_keyDigest (s : State) (i : Nat) (f : Tile → Tile) : (s.modTile i f).keyDigest = s.keyDigest := rfl
@[simp] theorem State.modTile_rollback (s : State) (i : Nat) (f : Tile → Tile) : (s.modTile i f).rollback = s.rollback := rfl
@[simp] theorem State.modTile_measured (s : State) (i : Nat) (f : Tile → Tile) : (s.modTile i f).measured = s.measured := rfl
@[simp] theorem State.modTile_configured (s : State) (i : Nat) (f : Tile → Tile) : (s.modTile i f).configured = s.configured := rfl
@[simp] theorem State.modTile_spdm (s : State) (i : Nat) (f : Tile → Tile) : (s.modTile i f).spdm = s.spdm := rfl
@[simp] theorem State.modTile_spdmStage (s : State) (i : Nat) (f : Tile → Tile) : (s.modTile i f).spdmStage = s.spdmStage := rfl
@[simp] theorem State.modTile_spdmHash (s : State) (i : Nat) (f : Tile → Tile) : (s.modTile i f).spdmHash = s.spdmHash := rfl
@[simp] theorem State.modTile_spdmSlh (s : State) (i : Nat) (f : Tile → Tile) : (s.modTile i f).spdmSlh = s.spdmSlh := rfl
@[simp] theorem State.modTile_time (s : State) (i : Nat) (f : Tile → Tile) : (s.modTile i f).time = s.time := rfl
@[simp] theorem State.modTile_badRuns (s : State) (i : Nat) (f : Tile → Tile) : (s.modTile i f).badRuns = s.badRuns := rfl
@[simp] theorem State.modTile_goodRuns (s : State) (i : Nat) (f : Tile → Tile) : (s.modTile i f).goodRuns = s.goodRuns := rfl
@[simp] theorem State.modTile_slew (s : State) (i : Nat) (f : Tile → Tile) : (s.modTile i f).slew = s.slew := rfl
@[simp] theorem State.modTile_hdm (s : State) (i : Nat) (f : Tile → Tile) : (s.modTile i f).hdm = s.hdm := rfl
@[simp] theorem State.modTile_mem (s : State) (i : Nat) (f : Tile → Tile) : (s.modTile i f).mem = s.mem := rfl
@[simp] theorem State.modTile_tags (s : State) (i : Nat) (f : Tile → Tile) : (s.modTile i f).tags = s.tags := rfl
@[simp] theorem State.modTile_bad (s : State) (i : Nat) (f : Tile → Tile) : (s.modTile i f).bad = s.bad := rfl
@[simp] theorem State.modTile_history (s : State) (i : Nat) (f : Tile → Tile) : (s.modTile i f).history = s.history := rfl
@[simp] theorem State.modTile_hostLag (s : State) (i : Nat) (f : Tile → Tile) : (s.modTile i f).hostLag = s.hostLag := rfl
@[simp] theorem State.modTile_regs (s : State) (i : Nat) (f : Tile → Tile) : (s.modTile i f).regs = s.regs := rfl
@[simp] theorem State.modTile_rtfree (s : State) (i : Nat) (f : Tile → Tile) : (s.modTile i f).rtfree = s.rtfree := rfl
@[simp] theorem State.modTile_launch (s : State) (i : Nat) (f : Tile → Tile) : (s.modTile i f).launch = s.launch := rfl
@[simp] theorem State.modTile_levels (s : State) (i : Nat) (f : Tile → Tile) : (s.modTile i f).levels = s.levels := rfl
@[simp] theorem State.modTile_reqs (s : State) (i : Nat) (f : Tile → Tile) : (s.modTile i f).reqs = s.reqs := rfl
@[simp] theorem State.modTile_pools (s : State) (i : Nat) (f : Tile → Tile) : (s.modTile i f).pools = s.pools := rfl
@[simp] theorem State.modTile_cores (s : State) (i : Nat) (f : Tile → Tile) : (s.modTile i f).cores = s.cores := rfl
@[simp] theorem State.modTile_slots (s : State) (i : Nat) (f : Tile → Tile) : (s.modTile i f).slots = s.slots := rfl
@[simp] theorem State.modTile_clusters (s : State) (i : Nat) (f : Tile → Tile) : (s.modTile i f).clusters = s.clusters := rfl
@[simp] theorem State.modTile_dsplit (s : State) (i : Nat) (f : Tile → Tile) : (s.modTile i f).dsplit = s.dsplit := rfl
@[simp] theorem State.modTile_cellars (s : State) (i : Nat) (f : Tile → Tile) : (s.modTile i f).cellars = s.cellars := rfl
@[simp] theorem State.modTile_colls (s : State) (i : Nat) (f : Tile → Tile) : (s.modTile i f).colls = s.colls := rfl
@[simp] theorem State.modTile_groups (s : State) (i : Nat) (f : Tile → Tile) : (s.modTile i f).groups = s.groups := rfl
@[simp] theorem State.modTile_stairs (s : State) (i : Nat) (f : Tile → Tile) : (s.modTile i f).stairs = s.stairs := rfl
@[simp] theorem State.modTile_sends (s : State) (i : Nat) (f : Tile → Tile) : (s.modTile i f).sends = s.sends := rfl
@[simp] theorem State.modTile_services (s : State) (i : Nat) (f : Tile → Tile) : (s.modTile i f).services = s.services := rfl
@[simp] theorem State.modTile_kept (s : State) (i : Nat) (f : Tile → Tile) : (s.modTile i f).kept = s.kept := rfl
@[simp] theorem State.modTile_nextId (s : State) (i : Nat) (f : Tile → Tile) : (s.modTile i f).nextId = s.nextId := rfl
@[simp] theorem State.modTile_larders (s : State) (i : Nat) (f : Tile → Tile) : (s.modTile i f).larders = s.larders := rfl
@[simp] theorem State.modTile_deferred (s : State) (i : Nat) (f : Tile → Tile) : (s.modTile i f).deferred = s.deferred := rfl
@[simp] theorem State.modTile_faults (s : State) (i : Nat) (f : Tile → Tile) : (s.modTile i f).faults = s.faults := rfl
@[simp] theorem State.modTile_fbhead (s : State) (i : Nat) (f : Tile → Tile) : (s.modTile i f).fbhead = s.fbhead := rfl
@[simp] theorem State.modTile_atc (s : State) (i : Nat) (f : Tile → Tile) : (s.modTile i f).atc = s.atc := rfl
@[simp] theorem State.modTile_actions (s : State) (i : Nat) (f : Tile → Tile) : (s.modTile i f).actions = s.actions := rfl
@[simp] theorem State.modTile_power (s : State) (i : Nat) (f : Tile → Tile) : (s.modTile i f).power = s.power := rfl
@[simp] theorem State.modTile_overTime (s : State) (i : Nat) (f : Tile → Tile) : (s.modTile i f).overTime = s.overTime := rfl
@[simp] theorem State.modTile_ports (s : State) (i : Nat) (f : Tile → Tile) : (s.modTile i f).ports = s.ports := rfl
@[simp] theorem State.modTile_dieLinks (s : State) (i : Nat) (f : Tile → Tile) : (s.modTile i f).dieLinks = s.dieLinks := rfl
@[simp] theorem State.modTile_drives (s : State) (i : Nat) (f : Tile → Tile) : (s.modTile i f).drives = s.drives := rfl
@[simp] theorem State.modTile_outbox (s : State) (i : Nat) (f : Tile → Tile) : (s.modTile i f).outbox = s.outbox := rfl
@[simp] theorem State.modTile_replies (s : State) (i : Nat) (f : Tile → Tile) : (s.modTile i f).replies = s.replies := rfl
@[simp] theorem State.modTile_inbox (s : State) (i : Nat) (f : Tile → Tile) : (s.modTile i f).inbox = s.inbox := rfl
@[simp] theorem State.modTile_notices (s : State) (i : Nat) (f : Tile → Tile) : (s.modTile i f).notices = s.notices := rfl
@[simp] theorem State.modTile_cancelled (s : State) (i : Nat) (f : Tile → Tile) : (s.modTile i f).cancelled = s.cancelled := rfl
@[simp] theorem State.modTile_nvme (s : State) (i : Nat) (f : Tile → Tile) : (s.modTile i f).nvme = s.nvme := rfl
@[simp] theorem State.modTile_hostData (s : State) (i : Nat) (f : Tile → Tile) : (s.modTile i f).hostData = s.hostData := rfl
@[simp] theorem State.modTile_atsWaits (s : State) (i : Nat) (f : Tile → Tile) : (s.modTile i f).atsWaits = s.atsWaits := rfl
@[simp] theorem State.modTile_atsDone (s : State) (i : Nat) (f : Tile → Tile) : (s.modTile i f).atsDone = s.atsDone := rfl
@[simp] theorem State.modTile_doubleTraps (s : State) (i : Nat) (f : Tile → Tile) : (s.modTile i f).doubleTraps = s.doubleTraps := rfl
@[simp] theorem State.modTile_dropped (s : State) (i : Nat) (f : Tile → Tile) : (s.modTile i f).dropped = s.dropped := rfl
@[simp] theorem State.modTile_curCore (s : State) (i : Nat) (f : Tile → Tile) : (s.modTile i f).curCore = s.curCore := rfl
@[simp] theorem State.modTile_curSlot (s : State) (i : Nat) (f : Tile → Tile) : (s.modTile i f).curSlot = s.curSlot := rfl
@[simp] theorem State.modTile_free (s : State) (i : Nat) (f : Tile → Tile) : (s.modTile i f).free = s.free := rfl
@[simp] theorem State.modTile_pending (s : State) (i : Nat) (f : Tile → Tile) : (s.modTile i f).pending = s.pending := rfl
@[simp] theorem State.modTile_schedule (s : State) (i : Nat) (f : Tile → Tile) : (s.modTile i f).schedule = s.schedule := rfl

/-! modStair. -/

@[simp] theorem State.modStair_stage (s : State) (i : Nat) (f : Stair → Stair) : (s.modStair i f).stage = s.stage := rfl
@[simp] theorem State.modStair_ready (s : State) (i : Nat) (f : Stair → Stair) : (s.modStair i f).ready = s.ready := rfl
@[simp] theorem State.modStair_failed (s : State) (i : Nat) (f : Stair → Stair) : (s.modStair i f).failed = s.failed := rfl
@[simp] theorem State.modStair_tslost (s : State) (i : Nat) (f : Stair → Stair) : (s.modStair i f).tslost = s.tslost := rfl
@[simp] theorem State.modStair_vectors (s : State) (i : Nat) (f : Stair → Stair) : (s.modStair i f).vectors = s.vectors := rfl
@[simp] theorem State.modStair_primary (s : State) (i : Nat) (f : Stair → Stair) : (s.modStair i f).primary = s.primary := rfl
@[simp] theorem State.modStair_backup (s : State) (i : Nat) (f : Stair → Stair) : (s.modStair i f).backup = s.backup := rfl
@[simp] theorem State.modStair_usedBackup (s : State) (i : Nat) (f : Stair → Stair) : (s.modStair i f).usedBackup = s.usedBackup := rfl
@[simp] theorem State.modStair_keyDigest (s : State) (i : Nat) (f : Stair → Stair) : (s.modStair i f).keyDigest = s.keyDigest := rfl
@[simp] theorem State.modStair_rollback (s : State) (i : Nat) (f : Stair → Stair) : (s.modStair i f).rollback = s.rollback := rfl
@[simp] theorem State.modStair_measured (s : State) (i : Nat) (f : Stair → Stair) : (s.modStair i f).measured = s.measured := rfl
@[simp] theorem State.modStair_configured (s : State) (i : Nat) (f : Stair → Stair) : (s.modStair i f).configured = s.configured := rfl
@[simp] theorem State.modStair_spdm (s : State) (i : Nat) (f : Stair → Stair) : (s.modStair i f).spdm = s.spdm := rfl
@[simp] theorem State.modStair_spdmStage (s : State) (i : Nat) (f : Stair → Stair) : (s.modStair i f).spdmStage = s.spdmStage := rfl
@[simp] theorem State.modStair_spdmHash (s : State) (i : Nat) (f : Stair → Stair) : (s.modStair i f).spdmHash = s.spdmHash := rfl
@[simp] theorem State.modStair_spdmSlh (s : State) (i : Nat) (f : Stair → Stair) : (s.modStair i f).spdmSlh = s.spdmSlh := rfl
@[simp] theorem State.modStair_time (s : State) (i : Nat) (f : Stair → Stair) : (s.modStair i f).time = s.time := rfl
@[simp] theorem State.modStair_badRuns (s : State) (i : Nat) (f : Stair → Stair) : (s.modStair i f).badRuns = s.badRuns := rfl
@[simp] theorem State.modStair_goodRuns (s : State) (i : Nat) (f : Stair → Stair) : (s.modStair i f).goodRuns = s.goodRuns := rfl
@[simp] theorem State.modStair_slew (s : State) (i : Nat) (f : Stair → Stair) : (s.modStair i f).slew = s.slew := rfl
@[simp] theorem State.modStair_hdm (s : State) (i : Nat) (f : Stair → Stair) : (s.modStair i f).hdm = s.hdm := rfl
@[simp] theorem State.modStair_mem (s : State) (i : Nat) (f : Stair → Stair) : (s.modStair i f).mem = s.mem := rfl
@[simp] theorem State.modStair_tags (s : State) (i : Nat) (f : Stair → Stair) : (s.modStair i f).tags = s.tags := rfl
@[simp] theorem State.modStair_bad (s : State) (i : Nat) (f : Stair → Stair) : (s.modStair i f).bad = s.bad := rfl
@[simp] theorem State.modStair_history (s : State) (i : Nat) (f : Stair → Stair) : (s.modStair i f).history = s.history := rfl
@[simp] theorem State.modStair_hostLag (s : State) (i : Nat) (f : Stair → Stair) : (s.modStair i f).hostLag = s.hostLag := rfl
@[simp] theorem State.modStair_regs (s : State) (i : Nat) (f : Stair → Stair) : (s.modStair i f).regs = s.regs := rfl
@[simp] theorem State.modStair_rtfree (s : State) (i : Nat) (f : Stair → Stair) : (s.modStair i f).rtfree = s.rtfree := rfl
@[simp] theorem State.modStair_launch (s : State) (i : Nat) (f : Stair → Stair) : (s.modStair i f).launch = s.launch := rfl
@[simp] theorem State.modStair_levels (s : State) (i : Nat) (f : Stair → Stair) : (s.modStair i f).levels = s.levels := rfl
@[simp] theorem State.modStair_reqs (s : State) (i : Nat) (f : Stair → Stair) : (s.modStair i f).reqs = s.reqs := rfl
@[simp] theorem State.modStair_pools (s : State) (i : Nat) (f : Stair → Stair) : (s.modStair i f).pools = s.pools := rfl
@[simp] theorem State.modStair_cores (s : State) (i : Nat) (f : Stair → Stair) : (s.modStair i f).cores = s.cores := rfl
@[simp] theorem State.modStair_slots (s : State) (i : Nat) (f : Stair → Stair) : (s.modStair i f).slots = s.slots := rfl
@[simp] theorem State.modStair_clusters (s : State) (i : Nat) (f : Stair → Stair) : (s.modStair i f).clusters = s.clusters := rfl
@[simp] theorem State.modStair_tiles (s : State) (i : Nat) (f : Stair → Stair) : (s.modStair i f).tiles = s.tiles := rfl
@[simp] theorem State.modStair_dsplit (s : State) (i : Nat) (f : Stair → Stair) : (s.modStair i f).dsplit = s.dsplit := rfl
@[simp] theorem State.modStair_cellars (s : State) (i : Nat) (f : Stair → Stair) : (s.modStair i f).cellars = s.cellars := rfl
@[simp] theorem State.modStair_colls (s : State) (i : Nat) (f : Stair → Stair) : (s.modStair i f).colls = s.colls := rfl
@[simp] theorem State.modStair_groups (s : State) (i : Nat) (f : Stair → Stair) : (s.modStair i f).groups = s.groups := rfl
@[simp] theorem State.modStair_sends (s : State) (i : Nat) (f : Stair → Stair) : (s.modStair i f).sends = s.sends := rfl
@[simp] theorem State.modStair_services (s : State) (i : Nat) (f : Stair → Stair) : (s.modStair i f).services = s.services := rfl
@[simp] theorem State.modStair_kept (s : State) (i : Nat) (f : Stair → Stair) : (s.modStair i f).kept = s.kept := rfl
@[simp] theorem State.modStair_nextId (s : State) (i : Nat) (f : Stair → Stair) : (s.modStair i f).nextId = s.nextId := rfl
@[simp] theorem State.modStair_larders (s : State) (i : Nat) (f : Stair → Stair) : (s.modStair i f).larders = s.larders := rfl
@[simp] theorem State.modStair_deferred (s : State) (i : Nat) (f : Stair → Stair) : (s.modStair i f).deferred = s.deferred := rfl
@[simp] theorem State.modStair_faults (s : State) (i : Nat) (f : Stair → Stair) : (s.modStair i f).faults = s.faults := rfl
@[simp] theorem State.modStair_fbhead (s : State) (i : Nat) (f : Stair → Stair) : (s.modStair i f).fbhead = s.fbhead := rfl
@[simp] theorem State.modStair_atc (s : State) (i : Nat) (f : Stair → Stair) : (s.modStair i f).atc = s.atc := rfl
@[simp] theorem State.modStair_actions (s : State) (i : Nat) (f : Stair → Stair) : (s.modStair i f).actions = s.actions := rfl
@[simp] theorem State.modStair_power (s : State) (i : Nat) (f : Stair → Stair) : (s.modStair i f).power = s.power := rfl
@[simp] theorem State.modStair_overTime (s : State) (i : Nat) (f : Stair → Stair) : (s.modStair i f).overTime = s.overTime := rfl
@[simp] theorem State.modStair_ports (s : State) (i : Nat) (f : Stair → Stair) : (s.modStair i f).ports = s.ports := rfl
@[simp] theorem State.modStair_dieLinks (s : State) (i : Nat) (f : Stair → Stair) : (s.modStair i f).dieLinks = s.dieLinks := rfl
@[simp] theorem State.modStair_drives (s : State) (i : Nat) (f : Stair → Stair) : (s.modStair i f).drives = s.drives := rfl
@[simp] theorem State.modStair_outbox (s : State) (i : Nat) (f : Stair → Stair) : (s.modStair i f).outbox = s.outbox := rfl
@[simp] theorem State.modStair_replies (s : State) (i : Nat) (f : Stair → Stair) : (s.modStair i f).replies = s.replies := rfl
@[simp] theorem State.modStair_inbox (s : State) (i : Nat) (f : Stair → Stair) : (s.modStair i f).inbox = s.inbox := rfl
@[simp] theorem State.modStair_notices (s : State) (i : Nat) (f : Stair → Stair) : (s.modStair i f).notices = s.notices := rfl
@[simp] theorem State.modStair_cancelled (s : State) (i : Nat) (f : Stair → Stair) : (s.modStair i f).cancelled = s.cancelled := rfl
@[simp] theorem State.modStair_nvme (s : State) (i : Nat) (f : Stair → Stair) : (s.modStair i f).nvme = s.nvme := rfl
@[simp] theorem State.modStair_hostData (s : State) (i : Nat) (f : Stair → Stair) : (s.modStair i f).hostData = s.hostData := rfl
@[simp] theorem State.modStair_atsWaits (s : State) (i : Nat) (f : Stair → Stair) : (s.modStair i f).atsWaits = s.atsWaits := rfl
@[simp] theorem State.modStair_atsDone (s : State) (i : Nat) (f : Stair → Stair) : (s.modStair i f).atsDone = s.atsDone := rfl
@[simp] theorem State.modStair_doubleTraps (s : State) (i : Nat) (f : Stair → Stair) : (s.modStair i f).doubleTraps = s.doubleTraps := rfl
@[simp] theorem State.modStair_dropped (s : State) (i : Nat) (f : Stair → Stair) : (s.modStair i f).dropped = s.dropped := rfl
@[simp] theorem State.modStair_curCore (s : State) (i : Nat) (f : Stair → Stair) : (s.modStair i f).curCore = s.curCore := rfl
@[simp] theorem State.modStair_curSlot (s : State) (i : Nat) (f : Stair → Stair) : (s.modStair i f).curSlot = s.curSlot := rfl
@[simp] theorem State.modStair_free (s : State) (i : Nat) (f : Stair → Stair) : (s.modStair i f).free = s.free := rfl
@[simp] theorem State.modStair_pending (s : State) (i : Nat) (f : Stair → Stair) : (s.modStair i f).pending = s.pending := rfl
@[simp] theorem State.modStair_schedule (s : State) (i : Nat) (f : Stair → Stair) : (s.modStair i f).schedule = s.schedule := rfl

/-! post. -/

@[simp] theorem State.post_stage (s : State) (e : Event) : (s.post e).stage = s.stage := rfl
@[simp] theorem State.post_ready (s : State) (e : Event) : (s.post e).ready = s.ready := rfl
@[simp] theorem State.post_failed (s : State) (e : Event) : (s.post e).failed = s.failed := rfl
@[simp] theorem State.post_tslost (s : State) (e : Event) : (s.post e).tslost = s.tslost := rfl
@[simp] theorem State.post_vectors (s : State) (e : Event) : (s.post e).vectors = s.vectors := rfl
@[simp] theorem State.post_primary (s : State) (e : Event) : (s.post e).primary = s.primary := rfl
@[simp] theorem State.post_backup (s : State) (e : Event) : (s.post e).backup = s.backup := rfl
@[simp] theorem State.post_usedBackup (s : State) (e : Event) : (s.post e).usedBackup = s.usedBackup := rfl
@[simp] theorem State.post_keyDigest (s : State) (e : Event) : (s.post e).keyDigest = s.keyDigest := rfl
@[simp] theorem State.post_rollback (s : State) (e : Event) : (s.post e).rollback = s.rollback := rfl
@[simp] theorem State.post_measured (s : State) (e : Event) : (s.post e).measured = s.measured := rfl
@[simp] theorem State.post_configured (s : State) (e : Event) : (s.post e).configured = s.configured := rfl
@[simp] theorem State.post_spdm (s : State) (e : Event) : (s.post e).spdm = s.spdm := rfl
@[simp] theorem State.post_spdmStage (s : State) (e : Event) : (s.post e).spdmStage = s.spdmStage := rfl
@[simp] theorem State.post_spdmHash (s : State) (e : Event) : (s.post e).spdmHash = s.spdmHash := rfl
@[simp] theorem State.post_spdmSlh (s : State) (e : Event) : (s.post e).spdmSlh = s.spdmSlh := rfl
@[simp] theorem State.post_time (s : State) (e : Event) : (s.post e).time = s.time := rfl
@[simp] theorem State.post_badRuns (s : State) (e : Event) : (s.post e).badRuns = s.badRuns := rfl
@[simp] theorem State.post_goodRuns (s : State) (e : Event) : (s.post e).goodRuns = s.goodRuns := rfl
@[simp] theorem State.post_slew (s : State) (e : Event) : (s.post e).slew = s.slew := rfl
@[simp] theorem State.post_hdm (s : State) (e : Event) : (s.post e).hdm = s.hdm := rfl
@[simp] theorem State.post_mem (s : State) (e : Event) : (s.post e).mem = s.mem := rfl
@[simp] theorem State.post_tags (s : State) (e : Event) : (s.post e).tags = s.tags := rfl
@[simp] theorem State.post_bad (s : State) (e : Event) : (s.post e).bad = s.bad := rfl
@[simp] theorem State.post_history (s : State) (e : Event) : (s.post e).history = s.history := rfl
@[simp] theorem State.post_hostLag (s : State) (e : Event) : (s.post e).hostLag = s.hostLag := rfl
@[simp] theorem State.post_regs (s : State) (e : Event) : (s.post e).regs = s.regs := rfl
@[simp] theorem State.post_rtfree (s : State) (e : Event) : (s.post e).rtfree = s.rtfree := rfl
@[simp] theorem State.post_launch (s : State) (e : Event) : (s.post e).launch = s.launch := rfl
@[simp] theorem State.post_levels (s : State) (e : Event) : (s.post e).levels = s.levels := rfl
@[simp] theorem State.post_reqs (s : State) (e : Event) : (s.post e).reqs = s.reqs := rfl
@[simp] theorem State.post_pools (s : State) (e : Event) : (s.post e).pools = s.pools := rfl
@[simp] theorem State.post_cores (s : State) (e : Event) : (s.post e).cores = s.cores := rfl
@[simp] theorem State.post_slots (s : State) (e : Event) : (s.post e).slots = s.slots := rfl
@[simp] theorem State.post_clusters (s : State) (e : Event) : (s.post e).clusters = s.clusters := rfl
@[simp] theorem State.post_tiles (s : State) (e : Event) : (s.post e).tiles = s.tiles := rfl
@[simp] theorem State.post_dsplit (s : State) (e : Event) : (s.post e).dsplit = s.dsplit := rfl
@[simp] theorem State.post_cellars (s : State) (e : Event) : (s.post e).cellars = s.cellars := rfl
@[simp] theorem State.post_colls (s : State) (e : Event) : (s.post e).colls = s.colls := rfl
@[simp] theorem State.post_groups (s : State) (e : Event) : (s.post e).groups = s.groups := rfl
@[simp] theorem State.post_stairs (s : State) (e : Event) : (s.post e).stairs = s.stairs := rfl
@[simp] theorem State.post_sends (s : State) (e : Event) : (s.post e).sends = s.sends := rfl
@[simp] theorem State.post_services (s : State) (e : Event) : (s.post e).services = s.services := rfl
@[simp] theorem State.post_kept (s : State) (e : Event) : (s.post e).kept = s.kept := rfl
@[simp] theorem State.post_nextId (s : State) (e : Event) : (s.post e).nextId = s.nextId := rfl
@[simp] theorem State.post_larders (s : State) (e : Event) : (s.post e).larders = s.larders := rfl
@[simp] theorem State.post_deferred (s : State) (e : Event) : (s.post e).deferred = s.deferred := rfl
@[simp] theorem State.post_faults (s : State) (e : Event) : (s.post e).faults = s.faults := rfl
@[simp] theorem State.post_fbhead (s : State) (e : Event) : (s.post e).fbhead = s.fbhead := rfl
@[simp] theorem State.post_atc (s : State) (e : Event) : (s.post e).atc = s.atc := rfl
@[simp] theorem State.post_actions (s : State) (e : Event) : (s.post e).actions = s.actions := rfl
@[simp] theorem State.post_power (s : State) (e : Event) : (s.post e).power = s.power := rfl
@[simp] theorem State.post_overTime (s : State) (e : Event) : (s.post e).overTime = s.overTime := rfl
@[simp] theorem State.post_ports (s : State) (e : Event) : (s.post e).ports = s.ports := rfl
@[simp] theorem State.post_dieLinks (s : State) (e : Event) : (s.post e).dieLinks = s.dieLinks := rfl
@[simp] theorem State.post_drives (s : State) (e : Event) : (s.post e).drives = s.drives := rfl
@[simp] theorem State.post_outbox (s : State) (e : Event) : (s.post e).outbox = s.outbox := rfl
@[simp] theorem State.post_replies (s : State) (e : Event) : (s.post e).replies = s.replies := rfl
@[simp] theorem State.post_inbox (s : State) (e : Event) : (s.post e).inbox = s.inbox := rfl
@[simp] theorem State.post_notices (s : State) (e : Event) : (s.post e).notices = s.notices := rfl
@[simp] theorem State.post_cancelled (s : State) (e : Event) : (s.post e).cancelled = s.cancelled := rfl
@[simp] theorem State.post_nvme (s : State) (e : Event) : (s.post e).nvme = s.nvme := rfl
@[simp] theorem State.post_hostData (s : State) (e : Event) : (s.post e).hostData = s.hostData := rfl
@[simp] theorem State.post_atsWaits (s : State) (e : Event) : (s.post e).atsWaits = s.atsWaits := rfl
@[simp] theorem State.post_atsDone (s : State) (e : Event) : (s.post e).atsDone = s.atsDone := rfl
@[simp] theorem State.post_doubleTraps (s : State) (e : Event) : (s.post e).doubleTraps = s.doubleTraps := rfl
@[simp] theorem State.post_dropped (s : State) (e : Event) : (s.post e).dropped = s.dropped := rfl
@[simp] theorem State.post_curCore (s : State) (e : Event) : (s.post e).curCore = s.curCore := rfl
@[simp] theorem State.post_curSlot (s : State) (e : Event) : (s.post e).curSlot = s.curSlot := rfl
@[simp] theorem State.post_free (s : State) (e : Event) : (s.post e).free = s.free := rfl
@[simp] theorem State.post_schedule (s : State) (e : Event) : (s.post e).schedule = s.schedule := rfl

/-! actFor. -/

@[simp] theorem State.actFor_stage (s : State) (g : Nat) : (s.actFor g).stage = s.stage := rfl
@[simp] theorem State.actFor_ready (s : State) (g : Nat) : (s.actFor g).ready = s.ready := rfl
@[simp] theorem State.actFor_failed (s : State) (g : Nat) : (s.actFor g).failed = s.failed := rfl
@[simp] theorem State.actFor_tslost (s : State) (g : Nat) : (s.actFor g).tslost = s.tslost := rfl
@[simp] theorem State.actFor_vectors (s : State) (g : Nat) : (s.actFor g).vectors = s.vectors := rfl
@[simp] theorem State.actFor_primary (s : State) (g : Nat) : (s.actFor g).primary = s.primary := rfl
@[simp] theorem State.actFor_backup (s : State) (g : Nat) : (s.actFor g).backup = s.backup := rfl
@[simp] theorem State.actFor_usedBackup (s : State) (g : Nat) : (s.actFor g).usedBackup = s.usedBackup := rfl
@[simp] theorem State.actFor_keyDigest (s : State) (g : Nat) : (s.actFor g).keyDigest = s.keyDigest := rfl
@[simp] theorem State.actFor_rollback (s : State) (g : Nat) : (s.actFor g).rollback = s.rollback := rfl
@[simp] theorem State.actFor_measured (s : State) (g : Nat) : (s.actFor g).measured = s.measured := rfl
@[simp] theorem State.actFor_configured (s : State) (g : Nat) : (s.actFor g).configured = s.configured := rfl
@[simp] theorem State.actFor_spdm (s : State) (g : Nat) : (s.actFor g).spdm = s.spdm := rfl
@[simp] theorem State.actFor_spdmStage (s : State) (g : Nat) : (s.actFor g).spdmStage = s.spdmStage := rfl
@[simp] theorem State.actFor_spdmHash (s : State) (g : Nat) : (s.actFor g).spdmHash = s.spdmHash := rfl
@[simp] theorem State.actFor_spdmSlh (s : State) (g : Nat) : (s.actFor g).spdmSlh = s.spdmSlh := rfl
@[simp] theorem State.actFor_time (s : State) (g : Nat) : (s.actFor g).time = s.time := rfl
@[simp] theorem State.actFor_badRuns (s : State) (g : Nat) : (s.actFor g).badRuns = s.badRuns := rfl
@[simp] theorem State.actFor_goodRuns (s : State) (g : Nat) : (s.actFor g).goodRuns = s.goodRuns := rfl
@[simp] theorem State.actFor_slew (s : State) (g : Nat) : (s.actFor g).slew = s.slew := rfl
@[simp] theorem State.actFor_hdm (s : State) (g : Nat) : (s.actFor g).hdm = s.hdm := rfl
@[simp] theorem State.actFor_mem (s : State) (g : Nat) : (s.actFor g).mem = s.mem := rfl
@[simp] theorem State.actFor_tags (s : State) (g : Nat) : (s.actFor g).tags = s.tags := rfl
@[simp] theorem State.actFor_bad (s : State) (g : Nat) : (s.actFor g).bad = s.bad := rfl
@[simp] theorem State.actFor_history (s : State) (g : Nat) : (s.actFor g).history = s.history := rfl
@[simp] theorem State.actFor_hostLag (s : State) (g : Nat) : (s.actFor g).hostLag = s.hostLag := rfl
@[simp] theorem State.actFor_regs (s : State) (g : Nat) : (s.actFor g).regs = s.regs := rfl
@[simp] theorem State.actFor_rtfree (s : State) (g : Nat) : (s.actFor g).rtfree = s.rtfree := rfl
@[simp] theorem State.actFor_launch (s : State) (g : Nat) : (s.actFor g).launch = s.launch := rfl
@[simp] theorem State.actFor_levels (s : State) (g : Nat) : (s.actFor g).levels = s.levels := rfl
@[simp] theorem State.actFor_reqs (s : State) (g : Nat) : (s.actFor g).reqs = s.reqs := rfl
@[simp] theorem State.actFor_pools (s : State) (g : Nat) : (s.actFor g).pools = s.pools := rfl
@[simp] theorem State.actFor_cores (s : State) (g : Nat) : (s.actFor g).cores = s.cores := rfl
@[simp] theorem State.actFor_slots (s : State) (g : Nat) : (s.actFor g).slots = s.slots := rfl
@[simp] theorem State.actFor_clusters (s : State) (g : Nat) : (s.actFor g).clusters = s.clusters := rfl
@[simp] theorem State.actFor_tiles (s : State) (g : Nat) : (s.actFor g).tiles = s.tiles := rfl
@[simp] theorem State.actFor_dsplit (s : State) (g : Nat) : (s.actFor g).dsplit = s.dsplit := rfl
@[simp] theorem State.actFor_cellars (s : State) (g : Nat) : (s.actFor g).cellars = s.cellars := rfl
@[simp] theorem State.actFor_colls (s : State) (g : Nat) : (s.actFor g).colls = s.colls := rfl
@[simp] theorem State.actFor_groups (s : State) (g : Nat) : (s.actFor g).groups = s.groups := rfl
@[simp] theorem State.actFor_stairs (s : State) (g : Nat) : (s.actFor g).stairs = s.stairs := rfl
@[simp] theorem State.actFor_sends (s : State) (g : Nat) : (s.actFor g).sends = s.sends := rfl
@[simp] theorem State.actFor_services (s : State) (g : Nat) : (s.actFor g).services = s.services := rfl
@[simp] theorem State.actFor_kept (s : State) (g : Nat) : (s.actFor g).kept = s.kept := rfl
@[simp] theorem State.actFor_nextId (s : State) (g : Nat) : (s.actFor g).nextId = s.nextId := rfl
@[simp] theorem State.actFor_larders (s : State) (g : Nat) : (s.actFor g).larders = s.larders := rfl
@[simp] theorem State.actFor_deferred (s : State) (g : Nat) : (s.actFor g).deferred = s.deferred := rfl
@[simp] theorem State.actFor_faults (s : State) (g : Nat) : (s.actFor g).faults = s.faults := rfl
@[simp] theorem State.actFor_fbhead (s : State) (g : Nat) : (s.actFor g).fbhead = s.fbhead := rfl
@[simp] theorem State.actFor_atc (s : State) (g : Nat) : (s.actFor g).atc = s.atc := rfl
@[simp] theorem State.actFor_actions (s : State) (g : Nat) : (s.actFor g).actions = s.actions := rfl
@[simp] theorem State.actFor_power (s : State) (g : Nat) : (s.actFor g).power = s.power := rfl
@[simp] theorem State.actFor_overTime (s : State) (g : Nat) : (s.actFor g).overTime = s.overTime := rfl
@[simp] theorem State.actFor_ports (s : State) (g : Nat) : (s.actFor g).ports = s.ports := rfl
@[simp] theorem State.actFor_dieLinks (s : State) (g : Nat) : (s.actFor g).dieLinks = s.dieLinks := rfl
@[simp] theorem State.actFor_drives (s : State) (g : Nat) : (s.actFor g).drives = s.drives := rfl
@[simp] theorem State.actFor_outbox (s : State) (g : Nat) : (s.actFor g).outbox = s.outbox := rfl
@[simp] theorem State.actFor_replies (s : State) (g : Nat) : (s.actFor g).replies = s.replies := rfl
@[simp] theorem State.actFor_inbox (s : State) (g : Nat) : (s.actFor g).inbox = s.inbox := rfl
@[simp] theorem State.actFor_notices (s : State) (g : Nat) : (s.actFor g).notices = s.notices := rfl
@[simp] theorem State.actFor_cancelled (s : State) (g : Nat) : (s.actFor g).cancelled = s.cancelled := rfl
@[simp] theorem State.actFor_nvme (s : State) (g : Nat) : (s.actFor g).nvme = s.nvme := rfl
@[simp] theorem State.actFor_hostData (s : State) (g : Nat) : (s.actFor g).hostData = s.hostData := rfl
@[simp] theorem State.actFor_atsWaits (s : State) (g : Nat) : (s.actFor g).atsWaits = s.atsWaits := rfl
@[simp] theorem State.actFor_atsDone (s : State) (g : Nat) : (s.actFor g).atsDone = s.atsDone := rfl
@[simp] theorem State.actFor_doubleTraps (s : State) (g : Nat) : (s.actFor g).doubleTraps = s.doubleTraps := rfl
@[simp] theorem State.actFor_dropped (s : State) (g : Nat) : (s.actFor g).dropped = s.dropped := rfl
@[simp] theorem State.actFor_free (s : State) (g : Nat) : (s.actFor g).free = s.free := rfl
@[simp] theorem State.actFor_pending (s : State) (g : Nat) : (s.actFor g).pending = s.pending := rfl
@[simp] theorem State.actFor_schedule (s : State) (g : Nat) : (s.actFor g).schedule = s.schedule := rfl

/-! Updates by a function are updates by a value. -/

@[simp] theorem State.modSlot_eq (s : State) (g : Nat) (f : Slot → Slot) : s.modSlot g f = s.setSlot g (f (s.slot g)) := rfl
@[simp] theorem State.modCore_eq (s : State) (c : Nat) (f : Core → Core) : s.modCore c f = s.setCore c (f (s.core c)) := rfl
@[simp] theorem State.modMe_eq (s : State) (f : Slot → Slot) : s.modMe f = s.setSlot s.me (f (s.slot s.me)) := rfl
@[simp] theorem State.setHatch_eq (s : State) (c h : Nat) (v : Hatch) :
    s.setHatch c h v = s.setCore c { s.core c with hatches := put h v (s.core c).hatches } := rfl
@[simp] theorem State.setClass_eq (s : State) (c k : Nat) (v : MsgClass) :
    s.setClass c k v = s.setCore c { s.core c with classes := put k v (s.core c).classes } := rfl
@[simp] theorem State.setBarrier_eq (s : State) (c b : Nat) (v : Barrier) :
    s.setBarrier c b v = s.setCore c { s.core c with barriers := put b v (s.core c).barriers } := rfl

/-! Accessors after updates. -/

@[simp] theorem State.slot_setSlot (s : State) (g h : Nat) (t : Slot) : (s.setSlot g t).slot h = if h = g then t else s.slot h :=
  look_put _ h g t s.slots
@[simp] theorem State.core_setCore (s : State) (c d : Nat) (k : Core) : (s.setCore c k).core d = if d = c then k else s.core d :=
  look_put _ d c k s.cores
@[simp] theorem State.slot_setCore (s : State) (c h : Nat) (k : Core) : (s.setCore c k).slot h = s.slot h := rfl
@[simp] theorem State.core_setSlot (s : State) (g c : Nat) (t : Slot) : (s.setSlot g t).core c = s.core c := rfl
@[simp] theorem State.req_setReq (s : State) (r q : Nat) (v : Req) : (s.setReq r v).req q = if q = r then v else s.req q :=
  look_put _ q r v s.reqs
@[simp] theorem State.req_setSlot (s : State) (g q : Nat) (t : Slot) : (s.setSlot g t).req q = s.req q := rfl
@[simp] theorem State.req_setCore (s : State) (c q : Nat) (k : Core) : (s.setCore c k).req q = s.req q := rfl
@[simp] theorem State.slot_setReq (s : State) (r h : Nat) (v : Req) : (s.setReq r v).slot h = s.slot h := rfl
@[simp] theorem State.core_setReq (s : State) (r c : Nat) (v : Req) : (s.setReq r v).core c = s.core c := rfl
@[simp] theorem State.reg_setReg (s : State) (a b : Nat) (v : Word) : (s.setReg a v).reg b = if b = a then v else s.reg b := by
  unfold State.reg State.setReg; rw [look_put]
@[simp] theorem State.reg_setSlot (s : State) (g a : Nat) (t : Slot) : (s.setSlot g t).reg a = s.reg a := rfl
@[simp] theorem State.reg_setCore (s : State) (c a : Nat) (k : Core) : (s.setCore c k).reg a = s.reg a := rfl
@[simp] theorem State.slot_setReg (s : State) (a h : Nat) (v : Word) : (s.setReg a v).slot h = s.slot h := rfl
@[simp] theorem State.core_setReg (s : State) (a c : Nat) (v : Word) : (s.setReg a v).core c = s.core c := rfl
@[simp] theorem State.slot_post (s : State) (e : Event) (h : Nat) : (s.post e).slot h = s.slot h := rfl
@[simp] theorem State.core_post (s : State) (e : Event) (c : Nat) : (s.post e).core c = s.core c := rfl
@[simp] theorem State.slot_actFor (s : State) (g h : Nat) : (s.actFor g).slot h = s.slot h := rfl
@[simp] theorem State.core_actFor (s : State) (g c : Nat) : (s.actFor g).core c = s.core c := rfl
@[simp] theorem State.me_setSlot (s : State) (g : Nat) (t : Slot) : (s.setSlot g t).me = s.me := rfl
@[simp] theorem State.me_setCore (s : State) (c : Nat) (k : Core) : (s.setCore c k).me = s.me := rfl
@[simp] theorem State.me_actFor (s : State) (g : Nat) : (s.actFor g).me = g := by
  simp only [State.me, State.actFor]; omega
theorem State.mine_eq (s : State) : s.mine = s.slot s.me := rfl
@[simp] theorem State.mine_setSlot_me (s : State) (t : Slot) : (s.setSlot s.me t).mine = t := by simp [State.mine_eq]
@[simp] theorem State.mine_setCore (s : State) (c : Nat) (k : Core) : (s.setCore c k).mine = s.mine := rfl
theorem State.hatch_eq (s : State) (c h : Nat) : s.hatch c h = look {} h (s.core c).hatches := rfl
@[simp] theorem State.hatch_setSlot (s : State) (g c h : Nat) (t : Slot) : (s.setSlot g t).hatch c h = s.hatch c h := rfl

/-! Slot.setX. -/

@[simp] theorem Slot.setX_state (t : Slot) (r : Nat) (v : Word) (p : Bool) : (t.setX r v p).state = t.state := by unfold Slot.setX; split <;> rfl
@[simp] theorem Slot.setX_wait (t : Slot) (r : Nat) (v : Word) (p : Bool) : (t.setX r v p).wait = t.wait := by unfold Slot.setX; split <;> rfl
@[simp] theorem Slot.setX_since (t : Slot) (r : Nat) (v : Word) (p : Bool) : (t.setX r v p).since = t.since := by unfold Slot.setX; split <;> rfl
@[simp] theorem Slot.setX_p (t : Slot) (r : Nat) (v : Word) (p : Bool) : (t.setX r v p).p = t.p := by unfold Slot.setX; split <;> rfl
@[simp] theorem Slot.setX_pc (t : Slot) (r : Nat) (v : Word) (p : Bool) : (t.setX r v p).pc = t.pc := by unfold Slot.setX; split <;> rfl
@[simp] theorem Slot.setX_expiry (t : Slot) (r : Nat) (v : Word) (p : Bool) : (t.setX r v p).expiry = t.expiry := by unfold Slot.setX; split <;> rfl
@[simp] theorem Slot.setX_rtag (t : Slot) (r : Nat) (v : Word) (p : Bool) : (t.setX r v p).rtag = t.rtag := by unfold Slot.setX; split <;> rfl
@[simp] theorem Slot.setX_prio (t : Slot) (r : Nat) (v : Word) (p : Bool) : (t.setX r v p).prio = t.prio := by unfold Slot.setX; split <;> rfl
@[simp] theorem Slot.setX_feat (t : Slot) (r : Nat) (v : Word) (p : Bool) : (t.setX r v p).feat = t.feat := by unfold Slot.setX; split <;> rfl
@[simp] theorem Slot.setX_deleg (t : Slot) (r : Nat) (v : Word) (p : Bool) : (t.setX r v p).deleg = t.deleg := by unfold Slot.setX; split <;> rfl
@[simp] theorem Slot.setX_mode (t : Slot) (r : Nat) (v : Word) (p : Bool) : (t.setX r v p).mode = t.mode := by unfold Slot.setX; split <;> rfl
@[simp] theorem Slot.setX_dh (t : Slot) (r : Nat) (v : Word) (p : Bool) : (t.setX r v p).dh = t.dh := by unfold Slot.setX; split <;> rfl
@[simp] theorem Slot.setX_pmode (t : Slot) (r : Nat) (v : Word) (p : Bool) : (t.setX r v p).pmode = t.pmode := by unfold Slot.setX; split <;> rfl
@[simp] theorem Slot.setX_pdh (t : Slot) (r : Nat) (v : Word) (p : Bool) : (t.setX r v p).pdh = t.pdh := by unfold Slot.setX; split <;> rfl
@[simp] theorem Slot.setX_ie (t : Slot) (r : Nat) (v : Word) (p : Bool) : (t.setX r v p).ie = t.ie := by unfold Slot.setX; split <;> rfl
@[simp] theorem Slot.setX_pie (t : Slot) (r : Nat) (v : Word) (p : Bool) : (t.setX r v p).pie = t.pie := by unfold Slot.setX; split <;> rfl
@[simp] theorem Slot.setX_nest (t : Slot) (r : Nat) (v : Word) (p : Bool) : (t.setX r v p).nest = t.nest := by unfold Slot.setX; split <;> rfl
@[simp] theorem Slot.setX_grant (t : Slot) (r : Nat) (v : Word) (p : Bool) : (t.setX r v p).grant = t.grant := by unfold Slot.setX; split <;> rfl
@[simp] theorem Slot.setX_vl (t : Slot) (r : Nat) (v : Word) (p : Bool) : (t.setX r v p).vl = t.vl := by unfold Slot.setX; split <;> rfl
@[simp] theorem Slot.setX_lost (t : Slot) (r : Nat) (v : Word) (p : Bool) : (t.setX r v p).lost = t.lost := by unfold Slot.setX; split <;> rfl
@[simp] theorem Slot.setX_vtype (t : Slot) (r : Nat) (v : Word) (p : Bool) : (t.setX r v p).vtype = t.vtype := by unfold Slot.setX; split <;> rfl
@[simp] theorem Slot.setX_vflags (t : Slot) (r : Nat) (v : Word) (p : Bool) : (t.setX r v p).vflags = t.vflags := by unfold Slot.setX; split <;> rfl
@[simp] theorem Slot.setX_waitlim (t : Slot) (r : Nat) (v : Word) (p : Bool) : (t.setX r v p).waitlim = t.waitlim := by unfold Slot.setX; split <;> rfl
@[simp] theorem Slot.setX_budget (t : Slot) (r : Nat) (v : Word) (p : Bool) : (t.setX r v p).budget = t.budget := by unfold Slot.setX; split <;> rfl
@[simp] theorem Slot.setX_inForce (t : Slot) (r : Nat) (v : Word) (p : Bool) : (t.setX r v p).inForce = t.inForce := by unfold Slot.setX; split <;> rfl
@[simp] theorem Slot.setX_budgetPending (t : Slot) (r : Nat) (v : Word) (p : Bool) : (t.setX r v p).budgetPending = t.budgetPending := by unfold Slot.setX; split <;> rfl
@[simp] theorem Slot.setX_oovdraft (t : Slot) (r : Nat) (v : Word) (p : Bool) : (t.setX r v p).oovdraft = t.oovdraft := by unfold Slot.setX; split <;> rfl
@[simp] theorem Slot.setX_tvec (t : Slot) (r : Nat) (v : Word) (p : Bool) : (t.setX r v p).tvec = t.tvec := by unfold Slot.setX; split <;> rfl
@[simp] theorem Slot.setX_trapcause (t : Slot) (r : Nat) (v : Word) (p : Bool) : (t.setX r v p).trapcause = t.trapcause := by unfold Slot.setX; split <;> rfl
@[simp] theorem Slot.setX_trappc (t : Slot) (r : Nat) (v : Word) (p : Bool) : (t.setX r v p).trappc = t.trappc := by unfold Slot.setX; split <;> rfl
@[simp] theorem Slot.setX_trapval (t : Slot) (r : Nat) (v : Word) (p : Bool) : (t.setX r v p).trapval = t.trapval := by unfold Slot.setX; split <;> rfl
@[simp] theorem Slot.setX_dcause (t : Slot) (r : Nat) (v : Word) (p : Bool) : (t.setX r v p).dcause = t.dcause := by unfold Slot.setX; split <;> rfl
@[simp] theorem Slot.setX_dpc (t : Slot) (r : Nat) (v : Word) (p : Bool) : (t.setX r v p).dpc = t.dpc := by unfold Slot.setX; split <;> rfl
@[simp] theorem Slot.setX_dval (t : Slot) (r : Nat) (v : Word) (p : Bool) : (t.setX r v p).dval = t.dval := by unfold Slot.setX; split <;> rfl
@[simp] theorem Slot.setX_sscratch (t : Slot) (r : Nat) (v : Word) (p : Bool) : (t.setX r v p).sscratch = t.sscratch := by unfold Slot.setX; split <;> rfl
@[simp] theorem Slot.setX_lprot0 (t : Slot) (r : Nat) (v : Word) (p : Bool) : (t.setX r v p).lprot0 = t.lprot0 := by unfold Slot.setX; split <;> rfl
@[simp] theorem Slot.setX_lprot1 (t : Slot) (r : Nat) (v : Word) (p : Bool) : (t.setX r v p).lprot1 = t.lprot1 := by unfold Slot.setX; split <;> rfl
@[simp] theorem Slot.setX_lprot2 (t : Slot) (r : Nat) (v : Word) (p : Bool) : (t.setX r v p).lprot2 = t.lprot2 := by unfold Slot.setX; split <;> rfl
@[simp] theorem Slot.setX_lprot3 (t : Slot) (r : Nat) (v : Word) (p : Bool) : (t.setX r v p).lprot3 = t.lprot3 := by unfold Slot.setX; split <;> rfl
@[simp] theorem Slot.setX_v (t : Slot) (r : Nat) (v : Word) (p : Bool) : (t.setX r v p).v = t.v := by unfold Slot.setX; split <;> rfl
@[simp] theorem Slot.setX_vPoison (t : Slot) (r : Nat) (v : Word) (p : Bool) : (t.setX r v p).vPoison = t.vPoison := by unfold Slot.setX; split <;> rfl
@[simp] theorem Slot.setX_m (t : Slot) (r : Nat) (v : Word) (p : Bool) : (t.setX r v p).m = t.m := by unfold Slot.setX; split <;> rfl
@[simp] theorem Slot.setX_shape (t : Slot) (r : Nat) (v : Word) (p : Bool) : (t.setX r v p).shape = t.shape := by unfold Slot.setX; split <;> rfl
@[simp] theorem Slot.setX_fmt (t : Slot) (r : Nat) (v : Word) (p : Bool) : (t.setX r v p).fmt = t.fmt := by unfold Slot.setX; split <;> rfl
@[simp] theorem Slot.setX_aBase (t : Slot) (r : Nat) (v : Word) (p : Bool) : (t.setX r v p).aBase = t.aBase := by unfold Slot.setX; split <;> rfl
@[simp] theorem Slot.setX_aStride (t : Slot) (r : Nat) (v : Word) (p : Bool) : (t.setX r v p).aStride = t.aStride := by unfold Slot.setX; split <;> rfl
@[simp] theorem Slot.setX_bBase (t : Slot) (r : Nat) (v : Word) (p : Bool) : (t.setX r v p).bBase = t.bBase := by unfold Slot.setX; split <;> rfl
@[simp] theorem Slot.setX_bStride (t : Slot) (r : Nat) (v : Word) (p : Bool) : (t.setX r v p).bStride = t.bStride := by unfold Slot.setX; split <;> rfl
@[simp] theorem Slot.setX_cell (t : Slot) (r : Nat) (v : Word) (p : Bool) : (t.setX r v p).cell = t.cell := by unfold Slot.setX; split <;> rfl
@[simp] theorem Slot.setX_progress (t : Slot) (r : Nat) (v : Word) (p : Bool) : (t.setX r v p).progress = t.progress := by unfold Slot.setX; split <;> rfl
@[simp] theorem Slot.setX_monitors (t : Slot) (r : Nat) (v : Word) (p : Bool) : (t.setX r v p).monitors = t.monitors := by unfold Slot.setX; split <;> rfl
@[simp] theorem Slot.setX_written (t : Slot) (r : Nat) (v : Word) (p : Bool) : (t.setX r v p).written = t.written := by unfold Slot.setX; split <;> rfl
@[simp] theorem Slot.setX_rearm (t : Slot) (r : Nat) (v : Word) (p : Bool) : (t.setX r v p).rearm = t.rearm := by unfold Slot.setX; split <;> rfl
@[simp] theorem Slot.setX_recorded (t : Slot) (r : Nat) (v : Word) (p : Bool) : (t.setX r v p).recorded = t.recorded := by unfold Slot.setX; split <;> rfl
@[simp] theorem Slot.setX_home (t : Slot) (r : Nat) (v : Word) (p : Bool) : (t.setX r v p).home = t.home := by unfold Slot.setX; split <;> rfl
@[simp] theorem Slot.setX_started (t : Slot) (r : Nat) (v : Word) (p : Bool) : (t.setX r v p).started = t.started := by unfold Slot.setX; split <;> rfl
@[simp] theorem Slot.setX_doubleHalt (t : Slot) (r : Nat) (v : Word) (p : Bool) : (t.setX r v p).doubleHalt = t.doubleHalt := by unfold Slot.setX; split <;> rfl
@[simp] theorem Slot.setX_held (t : Slot) (r : Nat) (v : Word) (p : Bool) : (t.setX r v p).held = t.held := by unfold Slot.setX; split <;> rfl
@[simp] theorem Slot.setX_reserve (t : Slot) (r : Nat) (v : Word) (p : Bool) : (t.setX r v p).reserve = t.reserve := by unfold Slot.setX; split <;> rfl
@[simp] theorem Slot.setX_pushing (t : Slot) (r : Nat) (v : Word) (p : Bool) : (t.setX r v p).pushing = t.pushing := by unfold Slot.setX; split <;> rfl
@[simp] theorem Slot.setX_vprog (t : Slot) (r : Nat) (v : Word) (p : Bool) : (t.setX r v p).vprog = t.vprog := by unfold Slot.setX; split <;> rfl
@[simp] theorem Slot.setX_logFailed (t : Slot) (r : Nat) (v : Word) (p : Bool) : (t.setX r v p).logFailed = t.logFailed := by unfold Slot.setX; split <;> rfl
@[simp] theorem Slot.setX_ctx (t : Slot) (r : Nat) (v : Word) (p : Bool) : (t.setX r v p).ctx = t.ctx := by unfold Slot.setX; split <;> rfl
@[simp] theorem Slot.setX_checked (t : Slot) (r : Nat) (v : Word) (p : Bool) : (t.setX r v p).checked = t.checked := by unfold Slot.setX; split <;> rfl
@[simp] theorem Slot.setX_awaits (t : Slot) (r : Nat) (v : Word) (p : Bool) : (t.setX r v p).awaits = t.awaits := by unfold Slot.setX; split <;> rfl
@[simp] theorem Slot.setX_fkind (t : Slot) (r : Nat) (v : Word) (p : Bool) : (t.setX r v p).fkind = t.fkind := by unfold Slot.setX; split <;> rfl
@[simp] theorem Slot.setX_also (t : Slot) (r : Nat) (v : Word) (p : Bool) : (t.setX r v p).also = t.also := by unfold Slot.setX; split <;> rfl
@[simp] theorem Slot.setX_stays (t : Slot) (r : Nat) (v : Word) (p : Bool) : (t.setX r v p).stays = t.stays := by unfold Slot.setX; split <;> rfl
@[simp] theorem Slot.setX_killed (t : Slot) (r : Nat) (v : Word) (p : Bool) : (t.setX r v p).killed = t.killed := by unfold Slot.setX; split <;> rfl
@[simp] theorem Slot.setX_inst (t : Slot) (r : Nat) (v : Word) (p : Bool) : (t.setX r v p).inst = t.inst := by unfold Slot.setX; split <;> rfl
@[simp] theorem Slot.setX_read (t : Slot) (r : Nat) (v : Word) (p : Bool) : (t.setX r v p).read = t.read := by unfold Slot.setX; split <;> rfl
@[simp] theorem Slot.setX_first (t : Slot) (r : Nat) (v : Word) (p : Bool) : (t.setX r v p).first = t.first := by unfold Slot.setX; split <;> rfl

/-! Slot.setP. -/

@[simp] theorem Slot.setP_state (t : Slot) (n : Nat) (v : Bool) : (t.setP n v).state = t.state := by unfold Slot.setP; split <;> rfl
@[simp] theorem Slot.setP_wait (t : Slot) (n : Nat) (v : Bool) : (t.setP n v).wait = t.wait := by unfold Slot.setP; split <;> rfl
@[simp] theorem Slot.setP_since (t : Slot) (n : Nat) (v : Bool) : (t.setP n v).since = t.since := by unfold Slot.setP; split <;> rfl
@[simp] theorem Slot.setP_x (t : Slot) (n : Nat) (v : Bool) : (t.setP n v).x = t.x := by unfold Slot.setP; split <;> rfl
@[simp] theorem Slot.setP_xPoison (t : Slot) (n : Nat) (v : Bool) : (t.setP n v).xPoison = t.xPoison := by unfold Slot.setP; split <;> rfl
@[simp] theorem Slot.setP_pc (t : Slot) (n : Nat) (v : Bool) : (t.setP n v).pc = t.pc := by unfold Slot.setP; split <;> rfl
@[simp] theorem Slot.setP_expiry (t : Slot) (n : Nat) (v : Bool) : (t.setP n v).expiry = t.expiry := by unfold Slot.setP; split <;> rfl
@[simp] theorem Slot.setP_rtag (t : Slot) (n : Nat) (v : Bool) : (t.setP n v).rtag = t.rtag := by unfold Slot.setP; split <;> rfl
@[simp] theorem Slot.setP_prio (t : Slot) (n : Nat) (v : Bool) : (t.setP n v).prio = t.prio := by unfold Slot.setP; split <;> rfl
@[simp] theorem Slot.setP_feat (t : Slot) (n : Nat) (v : Bool) : (t.setP n v).feat = t.feat := by unfold Slot.setP; split <;> rfl
@[simp] theorem Slot.setP_deleg (t : Slot) (n : Nat) (v : Bool) : (t.setP n v).deleg = t.deleg := by unfold Slot.setP; split <;> rfl
@[simp] theorem Slot.setP_mode (t : Slot) (n : Nat) (v : Bool) : (t.setP n v).mode = t.mode := by unfold Slot.setP; split <;> rfl
@[simp] theorem Slot.setP_dh (t : Slot) (n : Nat) (v : Bool) : (t.setP n v).dh = t.dh := by unfold Slot.setP; split <;> rfl
@[simp] theorem Slot.setP_pmode (t : Slot) (n : Nat) (v : Bool) : (t.setP n v).pmode = t.pmode := by unfold Slot.setP; split <;> rfl
@[simp] theorem Slot.setP_pdh (t : Slot) (n : Nat) (v : Bool) : (t.setP n v).pdh = t.pdh := by unfold Slot.setP; split <;> rfl
@[simp] theorem Slot.setP_ie (t : Slot) (n : Nat) (v : Bool) : (t.setP n v).ie = t.ie := by unfold Slot.setP; split <;> rfl
@[simp] theorem Slot.setP_pie (t : Slot) (n : Nat) (v : Bool) : (t.setP n v).pie = t.pie := by unfold Slot.setP; split <;> rfl
@[simp] theorem Slot.setP_nest (t : Slot) (n : Nat) (v : Bool) : (t.setP n v).nest = t.nest := by unfold Slot.setP; split <;> rfl
@[simp] theorem Slot.setP_grant (t : Slot) (n : Nat) (v : Bool) : (t.setP n v).grant = t.grant := by unfold Slot.setP; split <;> rfl
@[simp] theorem Slot.setP_vl (t : Slot) (n : Nat) (v : Bool) : (t.setP n v).vl = t.vl := by unfold Slot.setP; split <;> rfl
@[simp] theorem Slot.setP_lost (t : Slot) (n : Nat) (v : Bool) : (t.setP n v).lost = t.lost := by unfold Slot.setP; split <;> rfl
@[simp] theorem Slot.setP_vtype (t : Slot) (n : Nat) (v : Bool) : (t.setP n v).vtype = t.vtype := by unfold Slot.setP; split <;> rfl
@[simp] theorem Slot.setP_vflags (t : Slot) (n : Nat) (v : Bool) : (t.setP n v).vflags = t.vflags := by unfold Slot.setP; split <;> rfl
@[simp] theorem Slot.setP_waitlim (t : Slot) (n : Nat) (v : Bool) : (t.setP n v).waitlim = t.waitlim := by unfold Slot.setP; split <;> rfl
@[simp] theorem Slot.setP_budget (t : Slot) (n : Nat) (v : Bool) : (t.setP n v).budget = t.budget := by unfold Slot.setP; split <;> rfl
@[simp] theorem Slot.setP_inForce (t : Slot) (n : Nat) (v : Bool) : (t.setP n v).inForce = t.inForce := by unfold Slot.setP; split <;> rfl
@[simp] theorem Slot.setP_budgetPending (t : Slot) (n : Nat) (v : Bool) : (t.setP n v).budgetPending = t.budgetPending := by unfold Slot.setP; split <;> rfl
@[simp] theorem Slot.setP_oovdraft (t : Slot) (n : Nat) (v : Bool) : (t.setP n v).oovdraft = t.oovdraft := by unfold Slot.setP; split <;> rfl
@[simp] theorem Slot.setP_tvec (t : Slot) (n : Nat) (v : Bool) : (t.setP n v).tvec = t.tvec := by unfold Slot.setP; split <;> rfl
@[simp] theorem Slot.setP_trapcause (t : Slot) (n : Nat) (v : Bool) : (t.setP n v).trapcause = t.trapcause := by unfold Slot.setP; split <;> rfl
@[simp] theorem Slot.setP_trappc (t : Slot) (n : Nat) (v : Bool) : (t.setP n v).trappc = t.trappc := by unfold Slot.setP; split <;> rfl
@[simp] theorem Slot.setP_trapval (t : Slot) (n : Nat) (v : Bool) : (t.setP n v).trapval = t.trapval := by unfold Slot.setP; split <;> rfl
@[simp] theorem Slot.setP_dcause (t : Slot) (n : Nat) (v : Bool) : (t.setP n v).dcause = t.dcause := by unfold Slot.setP; split <;> rfl
@[simp] theorem Slot.setP_dpc (t : Slot) (n : Nat) (v : Bool) : (t.setP n v).dpc = t.dpc := by unfold Slot.setP; split <;> rfl
@[simp] theorem Slot.setP_dval (t : Slot) (n : Nat) (v : Bool) : (t.setP n v).dval = t.dval := by unfold Slot.setP; split <;> rfl
@[simp] theorem Slot.setP_sscratch (t : Slot) (n : Nat) (v : Bool) : (t.setP n v).sscratch = t.sscratch := by unfold Slot.setP; split <;> rfl
@[simp] theorem Slot.setP_lprot0 (t : Slot) (n : Nat) (v : Bool) : (t.setP n v).lprot0 = t.lprot0 := by unfold Slot.setP; split <;> rfl
@[simp] theorem Slot.setP_lprot1 (t : Slot) (n : Nat) (v : Bool) : (t.setP n v).lprot1 = t.lprot1 := by unfold Slot.setP; split <;> rfl
@[simp] theorem Slot.setP_lprot2 (t : Slot) (n : Nat) (v : Bool) : (t.setP n v).lprot2 = t.lprot2 := by unfold Slot.setP; split <;> rfl
@[simp] theorem Slot.setP_lprot3 (t : Slot) (n : Nat) (v : Bool) : (t.setP n v).lprot3 = t.lprot3 := by unfold Slot.setP; split <;> rfl
@[simp] theorem Slot.setP_v (t : Slot) (n : Nat) (v : Bool) : (t.setP n v).v = t.v := by unfold Slot.setP; split <;> rfl
@[simp] theorem Slot.setP_vPoison (t : Slot) (n : Nat) (v : Bool) : (t.setP n v).vPoison = t.vPoison := by unfold Slot.setP; split <;> rfl
@[simp] theorem Slot.setP_m (t : Slot) (n : Nat) (v : Bool) : (t.setP n v).m = t.m := by unfold Slot.setP; split <;> rfl
@[simp] theorem Slot.setP_shape (t : Slot) (n : Nat) (v : Bool) : (t.setP n v).shape = t.shape := by unfold Slot.setP; split <;> rfl
@[simp] theorem Slot.setP_fmt (t : Slot) (n : Nat) (v : Bool) : (t.setP n v).fmt = t.fmt := by unfold Slot.setP; split <;> rfl
@[simp] theorem Slot.setP_aBase (t : Slot) (n : Nat) (v : Bool) : (t.setP n v).aBase = t.aBase := by unfold Slot.setP; split <;> rfl
@[simp] theorem Slot.setP_aStride (t : Slot) (n : Nat) (v : Bool) : (t.setP n v).aStride = t.aStride := by unfold Slot.setP; split <;> rfl
@[simp] theorem Slot.setP_bBase (t : Slot) (n : Nat) (v : Bool) : (t.setP n v).bBase = t.bBase := by unfold Slot.setP; split <;> rfl
@[simp] theorem Slot.setP_bStride (t : Slot) (n : Nat) (v : Bool) : (t.setP n v).bStride = t.bStride := by unfold Slot.setP; split <;> rfl
@[simp] theorem Slot.setP_cell (t : Slot) (n : Nat) (v : Bool) : (t.setP n v).cell = t.cell := by unfold Slot.setP; split <;> rfl
@[simp] theorem Slot.setP_progress (t : Slot) (n : Nat) (v : Bool) : (t.setP n v).progress = t.progress := by unfold Slot.setP; split <;> rfl
@[simp] theorem Slot.setP_monitors (t : Slot) (n : Nat) (v : Bool) : (t.setP n v).monitors = t.monitors := by unfold Slot.setP; split <;> rfl
@[simp] theorem Slot.setP_written (t : Slot) (n : Nat) (v : Bool) : (t.setP n v).written = t.written := by unfold Slot.setP; split <;> rfl
@[simp] theorem Slot.setP_rearm (t : Slot) (n : Nat) (v : Bool) : (t.setP n v).rearm = t.rearm := by unfold Slot.setP; split <;> rfl
@[simp] theorem Slot.setP_recorded (t : Slot) (n : Nat) (v : Bool) : (t.setP n v).recorded = t.recorded := by unfold Slot.setP; split <;> rfl
@[simp] theorem Slot.setP_home (t : Slot) (n : Nat) (v : Bool) : (t.setP n v).home = t.home := by unfold Slot.setP; split <;> rfl
@[simp] theorem Slot.setP_started (t : Slot) (n : Nat) (v : Bool) : (t.setP n v).started = t.started := by unfold Slot.setP; split <;> rfl
@[simp] theorem Slot.setP_doubleHalt (t : Slot) (n : Nat) (v : Bool) : (t.setP n v).doubleHalt = t.doubleHalt := by unfold Slot.setP; split <;> rfl
@[simp] theorem Slot.setP_held (t : Slot) (n : Nat) (v : Bool) : (t.setP n v).held = t.held := by unfold Slot.setP; split <;> rfl
@[simp] theorem Slot.setP_reserve (t : Slot) (n : Nat) (v : Bool) : (t.setP n v).reserve = t.reserve := by unfold Slot.setP; split <;> rfl
@[simp] theorem Slot.setP_pushing (t : Slot) (n : Nat) (v : Bool) : (t.setP n v).pushing = t.pushing := by unfold Slot.setP; split <;> rfl
@[simp] theorem Slot.setP_vprog (t : Slot) (n : Nat) (v : Bool) : (t.setP n v).vprog = t.vprog := by unfold Slot.setP; split <;> rfl
@[simp] theorem Slot.setP_logFailed (t : Slot) (n : Nat) (v : Bool) : (t.setP n v).logFailed = t.logFailed := by unfold Slot.setP; split <;> rfl
@[simp] theorem Slot.setP_ctx (t : Slot) (n : Nat) (v : Bool) : (t.setP n v).ctx = t.ctx := by unfold Slot.setP; split <;> rfl
@[simp] theorem Slot.setP_checked (t : Slot) (n : Nat) (v : Bool) : (t.setP n v).checked = t.checked := by unfold Slot.setP; split <;> rfl
@[simp] theorem Slot.setP_awaits (t : Slot) (n : Nat) (v : Bool) : (t.setP n v).awaits = t.awaits := by unfold Slot.setP; split <;> rfl
@[simp] theorem Slot.setP_fkind (t : Slot) (n : Nat) (v : Bool) : (t.setP n v).fkind = t.fkind := by unfold Slot.setP; split <;> rfl
@[simp] theorem Slot.setP_also (t : Slot) (n : Nat) (v : Bool) : (t.setP n v).also = t.also := by unfold Slot.setP; split <;> rfl
@[simp] theorem Slot.setP_stays (t : Slot) (n : Nat) (v : Bool) : (t.setP n v).stays = t.stays := by unfold Slot.setP; split <;> rfl
@[simp] theorem Slot.setP_killed (t : Slot) (n : Nat) (v : Bool) : (t.setP n v).killed = t.killed := by unfold Slot.setP; split <;> rfl
@[simp] theorem Slot.setP_inst (t : Slot) (n : Nat) (v : Bool) : (t.setP n v).inst = t.inst := by unfold Slot.setP; split <;> rfl
@[simp] theorem Slot.setP_read (t : Slot) (n : Nat) (v : Bool) : (t.setP n v).read = t.read := by unfold Slot.setP; split <;> rfl
@[simp] theorem Slot.setP_first (t : Slot) (n : Nat) (v : Bool) : (t.setP n v).first = t.first := by unfold Slot.setP; split <;> rfl

/-! Slot.setV. -/

@[simp] theorem Slot.setV_state (t : Slot) (r l : Nat) (v : BitVec 32) : (t.setV r l v).state = t.state := rfl
@[simp] theorem Slot.setV_wait (t : Slot) (r l : Nat) (v : BitVec 32) : (t.setV r l v).wait = t.wait := rfl
@[simp] theorem Slot.setV_since (t : Slot) (r l : Nat) (v : BitVec 32) : (t.setV r l v).since = t.since := rfl
@[simp] theorem Slot.setV_x (t : Slot) (r l : Nat) (v : BitVec 32) : (t.setV r l v).x = t.x := rfl
@[simp] theorem Slot.setV_xPoison (t : Slot) (r l : Nat) (v : BitVec 32) : (t.setV r l v).xPoison = t.xPoison := rfl
@[simp] theorem Slot.setV_p (t : Slot) (r l : Nat) (v : BitVec 32) : (t.setV r l v).p = t.p := rfl
@[simp] theorem Slot.setV_pc (t : Slot) (r l : Nat) (v : BitVec 32) : (t.setV r l v).pc = t.pc := rfl
@[simp] theorem Slot.setV_expiry (t : Slot) (r l : Nat) (v : BitVec 32) : (t.setV r l v).expiry = t.expiry := rfl
@[simp] theorem Slot.setV_rtag (t : Slot) (r l : Nat) (v : BitVec 32) : (t.setV r l v).rtag = t.rtag := rfl
@[simp] theorem Slot.setV_prio (t : Slot) (r l : Nat) (v : BitVec 32) : (t.setV r l v).prio = t.prio := rfl
@[simp] theorem Slot.setV_feat (t : Slot) (r l : Nat) (v : BitVec 32) : (t.setV r l v).feat = t.feat := rfl
@[simp] theorem Slot.setV_deleg (t : Slot) (r l : Nat) (v : BitVec 32) : (t.setV r l v).deleg = t.deleg := rfl
@[simp] theorem Slot.setV_mode (t : Slot) (r l : Nat) (v : BitVec 32) : (t.setV r l v).mode = t.mode := rfl
@[simp] theorem Slot.setV_dh (t : Slot) (r l : Nat) (v : BitVec 32) : (t.setV r l v).dh = t.dh := rfl
@[simp] theorem Slot.setV_pmode (t : Slot) (r l : Nat) (v : BitVec 32) : (t.setV r l v).pmode = t.pmode := rfl
@[simp] theorem Slot.setV_pdh (t : Slot) (r l : Nat) (v : BitVec 32) : (t.setV r l v).pdh = t.pdh := rfl
@[simp] theorem Slot.setV_ie (t : Slot) (r l : Nat) (v : BitVec 32) : (t.setV r l v).ie = t.ie := rfl
@[simp] theorem Slot.setV_pie (t : Slot) (r l : Nat) (v : BitVec 32) : (t.setV r l v).pie = t.pie := rfl
@[simp] theorem Slot.setV_nest (t : Slot) (r l : Nat) (v : BitVec 32) : (t.setV r l v).nest = t.nest := rfl
@[simp] theorem Slot.setV_grant (t : Slot) (r l : Nat) (v : BitVec 32) : (t.setV r l v).grant = t.grant := rfl
@[simp] theorem Slot.setV_vl (t : Slot) (r l : Nat) (v : BitVec 32) : (t.setV r l v).vl = t.vl := rfl
@[simp] theorem Slot.setV_lost (t : Slot) (r l : Nat) (v : BitVec 32) : (t.setV r l v).lost = t.lost := rfl
@[simp] theorem Slot.setV_vtype (t : Slot) (r l : Nat) (v : BitVec 32) : (t.setV r l v).vtype = t.vtype := rfl
@[simp] theorem Slot.setV_vflags (t : Slot) (r l : Nat) (v : BitVec 32) : (t.setV r l v).vflags = t.vflags := rfl
@[simp] theorem Slot.setV_waitlim (t : Slot) (r l : Nat) (v : BitVec 32) : (t.setV r l v).waitlim = t.waitlim := rfl
@[simp] theorem Slot.setV_budget (t : Slot) (r l : Nat) (v : BitVec 32) : (t.setV r l v).budget = t.budget := rfl
@[simp] theorem Slot.setV_inForce (t : Slot) (r l : Nat) (v : BitVec 32) : (t.setV r l v).inForce = t.inForce := rfl
@[simp] theorem Slot.setV_budgetPending (t : Slot) (r l : Nat) (v : BitVec 32) : (t.setV r l v).budgetPending = t.budgetPending := rfl
@[simp] theorem Slot.setV_oovdraft (t : Slot) (r l : Nat) (v : BitVec 32) : (t.setV r l v).oovdraft = t.oovdraft := rfl
@[simp] theorem Slot.setV_tvec (t : Slot) (r l : Nat) (v : BitVec 32) : (t.setV r l v).tvec = t.tvec := rfl
@[simp] theorem Slot.setV_trapcause (t : Slot) (r l : Nat) (v : BitVec 32) : (t.setV r l v).trapcause = t.trapcause := rfl
@[simp] theorem Slot.setV_trappc (t : Slot) (r l : Nat) (v : BitVec 32) : (t.setV r l v).trappc = t.trappc := rfl
@[simp] theorem Slot.setV_trapval (t : Slot) (r l : Nat) (v : BitVec 32) : (t.setV r l v).trapval = t.trapval := rfl
@[simp] theorem Slot.setV_dcause (t : Slot) (r l : Nat) (v : BitVec 32) : (t.setV r l v).dcause = t.dcause := rfl
@[simp] theorem Slot.setV_dpc (t : Slot) (r l : Nat) (v : BitVec 32) : (t.setV r l v).dpc = t.dpc := rfl
@[simp] theorem Slot.setV_dval (t : Slot) (r l : Nat) (v : BitVec 32) : (t.setV r l v).dval = t.dval := rfl
@[simp] theorem Slot.setV_sscratch (t : Slot) (r l : Nat) (v : BitVec 32) : (t.setV r l v).sscratch = t.sscratch := rfl
@[simp] theorem Slot.setV_lprot0 (t : Slot) (r l : Nat) (v : BitVec 32) : (t.setV r l v).lprot0 = t.lprot0 := rfl
@[simp] theorem Slot.setV_lprot1 (t : Slot) (r l : Nat) (v : BitVec 32) : (t.setV r l v).lprot1 = t.lprot1 := rfl
@[simp] theorem Slot.setV_lprot2 (t : Slot) (r l : Nat) (v : BitVec 32) : (t.setV r l v).lprot2 = t.lprot2 := rfl
@[simp] theorem Slot.setV_lprot3 (t : Slot) (r l : Nat) (v : BitVec 32) : (t.setV r l v).lprot3 = t.lprot3 := rfl
@[simp] theorem Slot.setV_m (t : Slot) (r l : Nat) (v : BitVec 32) : (t.setV r l v).m = t.m := rfl
@[simp] theorem Slot.setV_shape (t : Slot) (r l : Nat) (v : BitVec 32) : (t.setV r l v).shape = t.shape := rfl
@[simp] theorem Slot.setV_fmt (t : Slot) (r l : Nat) (v : BitVec 32) : (t.setV r l v).fmt = t.fmt := rfl
@[simp] theorem Slot.setV_aBase (t : Slot) (r l : Nat) (v : BitVec 32) : (t.setV r l v).aBase = t.aBase := rfl
@[simp] theorem Slot.setV_aStride (t : Slot) (r l : Nat) (v : BitVec 32) : (t.setV r l v).aStride = t.aStride := rfl
@[simp] theorem Slot.setV_bBase (t : Slot) (r l : Nat) (v : BitVec 32) : (t.setV r l v).bBase = t.bBase := rfl
@[simp] theorem Slot.setV_bStride (t : Slot) (r l : Nat) (v : BitVec 32) : (t.setV r l v).bStride = t.bStride := rfl
@[simp] theorem Slot.setV_cell (t : Slot) (r l : Nat) (v : BitVec 32) : (t.setV r l v).cell = t.cell := rfl
@[simp] theorem Slot.setV_progress (t : Slot) (r l : Nat) (v : BitVec 32) : (t.setV r l v).progress = t.progress := rfl
@[simp] theorem Slot.setV_monitors (t : Slot) (r l : Nat) (v : BitVec 32) : (t.setV r l v).monitors = t.monitors := rfl
@[simp] theorem Slot.setV_written (t : Slot) (r l : Nat) (v : BitVec 32) : (t.setV r l v).written = t.written := rfl
@[simp] theorem Slot.setV_rearm (t : Slot) (r l : Nat) (v : BitVec 32) : (t.setV r l v).rearm = t.rearm := rfl
@[simp] theorem Slot.setV_recorded (t : Slot) (r l : Nat) (v : BitVec 32) : (t.setV r l v).recorded = t.recorded := rfl
@[simp] theorem Slot.setV_home (t : Slot) (r l : Nat) (v : BitVec 32) : (t.setV r l v).home = t.home := rfl
@[simp] theorem Slot.setV_started (t : Slot) (r l : Nat) (v : BitVec 32) : (t.setV r l v).started = t.started := rfl
@[simp] theorem Slot.setV_doubleHalt (t : Slot) (r l : Nat) (v : BitVec 32) : (t.setV r l v).doubleHalt = t.doubleHalt := rfl
@[simp] theorem Slot.setV_held (t : Slot) (r l : Nat) (v : BitVec 32) : (t.setV r l v).held = t.held := rfl
@[simp] theorem Slot.setV_reserve (t : Slot) (r l : Nat) (v : BitVec 32) : (t.setV r l v).reserve = t.reserve := rfl
@[simp] theorem Slot.setV_pushing (t : Slot) (r l : Nat) (v : BitVec 32) : (t.setV r l v).pushing = t.pushing := rfl
@[simp] theorem Slot.setV_vprog (t : Slot) (r l : Nat) (v : BitVec 32) : (t.setV r l v).vprog = t.vprog := rfl
@[simp] theorem Slot.setV_logFailed (t : Slot) (r l : Nat) (v : BitVec 32) : (t.setV r l v).logFailed = t.logFailed := rfl
@[simp] theorem Slot.setV_ctx (t : Slot) (r l : Nat) (v : BitVec 32) : (t.setV r l v).ctx = t.ctx := rfl
@[simp] theorem Slot.setV_checked (t : Slot) (r l : Nat) (v : BitVec 32) : (t.setV r l v).checked = t.checked := rfl
@[simp] theorem Slot.setV_awaits (t : Slot) (r l : Nat) (v : BitVec 32) : (t.setV r l v).awaits = t.awaits := rfl
@[simp] theorem Slot.setV_fkind (t : Slot) (r l : Nat) (v : BitVec 32) : (t.setV r l v).fkind = t.fkind := rfl
@[simp] theorem Slot.setV_also (t : Slot) (r l : Nat) (v : BitVec 32) : (t.setV r l v).also = t.also := rfl
@[simp] theorem Slot.setV_stays (t : Slot) (r l : Nat) (v : BitVec 32) : (t.setV r l v).stays = t.stays := rfl
@[simp] theorem Slot.setV_killed (t : Slot) (r l : Nat) (v : BitVec 32) : (t.setV r l v).killed = t.killed := rfl
@[simp] theorem Slot.setV_inst (t : Slot) (r l : Nat) (v : BitVec 32) : (t.setV r l v).inst = t.inst := rfl
@[simp] theorem Slot.setV_read (t : Slot) (r l : Nat) (v : BitVec 32) : (t.setV r l v).read = t.read := rfl
@[simp] theorem Slot.setV_first (t : Slot) (r l : Nat) (v : BitVec 32) : (t.setV r l v).first = t.first := rfl

/-! Slot.setM. -/

@[simp] theorem Slot.setM_state (t : Slot) (i j : Nat) (v : Bool) : (t.setM i j v).state = t.state := by unfold Slot.setM; split <;> rfl
@[simp] theorem Slot.setM_wait (t : Slot) (i j : Nat) (v : Bool) : (t.setM i j v).wait = t.wait := by unfold Slot.setM; split <;> rfl
@[simp] theorem Slot.setM_since (t : Slot) (i j : Nat) (v : Bool) : (t.setM i j v).since = t.since := by unfold Slot.setM; split <;> rfl
@[simp] theorem Slot.setM_x (t : Slot) (i j : Nat) (v : Bool) : (t.setM i j v).x = t.x := by unfold Slot.setM; split <;> rfl
@[simp] theorem Slot.setM_xPoison (t : Slot) (i j : Nat) (v : Bool) : (t.setM i j v).xPoison = t.xPoison := by unfold Slot.setM; split <;> rfl
@[simp] theorem Slot.setM_p (t : Slot) (i j : Nat) (v : Bool) : (t.setM i j v).p = t.p := by unfold Slot.setM; split <;> rfl
@[simp] theorem Slot.setM_pc (t : Slot) (i j : Nat) (v : Bool) : (t.setM i j v).pc = t.pc := by unfold Slot.setM; split <;> rfl
@[simp] theorem Slot.setM_expiry (t : Slot) (i j : Nat) (v : Bool) : (t.setM i j v).expiry = t.expiry := by unfold Slot.setM; split <;> rfl
@[simp] theorem Slot.setM_rtag (t : Slot) (i j : Nat) (v : Bool) : (t.setM i j v).rtag = t.rtag := by unfold Slot.setM; split <;> rfl
@[simp] theorem Slot.setM_prio (t : Slot) (i j : Nat) (v : Bool) : (t.setM i j v).prio = t.prio := by unfold Slot.setM; split <;> rfl
@[simp] theorem Slot.setM_feat (t : Slot) (i j : Nat) (v : Bool) : (t.setM i j v).feat = t.feat := by unfold Slot.setM; split <;> rfl
@[simp] theorem Slot.setM_deleg (t : Slot) (i j : Nat) (v : Bool) : (t.setM i j v).deleg = t.deleg := by unfold Slot.setM; split <;> rfl
@[simp] theorem Slot.setM_mode (t : Slot) (i j : Nat) (v : Bool) : (t.setM i j v).mode = t.mode := by unfold Slot.setM; split <;> rfl
@[simp] theorem Slot.setM_dh (t : Slot) (i j : Nat) (v : Bool) : (t.setM i j v).dh = t.dh := by unfold Slot.setM; split <;> rfl
@[simp] theorem Slot.setM_pmode (t : Slot) (i j : Nat) (v : Bool) : (t.setM i j v).pmode = t.pmode := by unfold Slot.setM; split <;> rfl
@[simp] theorem Slot.setM_pdh (t : Slot) (i j : Nat) (v : Bool) : (t.setM i j v).pdh = t.pdh := by unfold Slot.setM; split <;> rfl
@[simp] theorem Slot.setM_ie (t : Slot) (i j : Nat) (v : Bool) : (t.setM i j v).ie = t.ie := by unfold Slot.setM; split <;> rfl
@[simp] theorem Slot.setM_pie (t : Slot) (i j : Nat) (v : Bool) : (t.setM i j v).pie = t.pie := by unfold Slot.setM; split <;> rfl
@[simp] theorem Slot.setM_nest (t : Slot) (i j : Nat) (v : Bool) : (t.setM i j v).nest = t.nest := by unfold Slot.setM; split <;> rfl
@[simp] theorem Slot.setM_grant (t : Slot) (i j : Nat) (v : Bool) : (t.setM i j v).grant = t.grant := by unfold Slot.setM; split <;> rfl
@[simp] theorem Slot.setM_vl (t : Slot) (i j : Nat) (v : Bool) : (t.setM i j v).vl = t.vl := by unfold Slot.setM; split <;> rfl
@[simp] theorem Slot.setM_lost (t : Slot) (i j : Nat) (v : Bool) : (t.setM i j v).lost = t.lost := by unfold Slot.setM; split <;> rfl
@[simp] theorem Slot.setM_vtype (t : Slot) (i j : Nat) (v : Bool) : (t.setM i j v).vtype = t.vtype := by unfold Slot.setM; split <;> rfl
@[simp] theorem Slot.setM_vflags (t : Slot) (i j : Nat) (v : Bool) : (t.setM i j v).vflags = t.vflags := by unfold Slot.setM; split <;> rfl
@[simp] theorem Slot.setM_waitlim (t : Slot) (i j : Nat) (v : Bool) : (t.setM i j v).waitlim = t.waitlim := by unfold Slot.setM; split <;> rfl
@[simp] theorem Slot.setM_budget (t : Slot) (i j : Nat) (v : Bool) : (t.setM i j v).budget = t.budget := by unfold Slot.setM; split <;> rfl
@[simp] theorem Slot.setM_inForce (t : Slot) (i j : Nat) (v : Bool) : (t.setM i j v).inForce = t.inForce := by unfold Slot.setM; split <;> rfl
@[simp] theorem Slot.setM_budgetPending (t : Slot) (i j : Nat) (v : Bool) : (t.setM i j v).budgetPending = t.budgetPending := by unfold Slot.setM; split <;> rfl
@[simp] theorem Slot.setM_oovdraft (t : Slot) (i j : Nat) (v : Bool) : (t.setM i j v).oovdraft = t.oovdraft := by unfold Slot.setM; split <;> rfl
@[simp] theorem Slot.setM_tvec (t : Slot) (i j : Nat) (v : Bool) : (t.setM i j v).tvec = t.tvec := by unfold Slot.setM; split <;> rfl
@[simp] theorem Slot.setM_trapcause (t : Slot) (i j : Nat) (v : Bool) : (t.setM i j v).trapcause = t.trapcause := by unfold Slot.setM; split <;> rfl
@[simp] theorem Slot.setM_trappc (t : Slot) (i j : Nat) (v : Bool) : (t.setM i j v).trappc = t.trappc := by unfold Slot.setM; split <;> rfl
@[simp] theorem Slot.setM_trapval (t : Slot) (i j : Nat) (v : Bool) : (t.setM i j v).trapval = t.trapval := by unfold Slot.setM; split <;> rfl
@[simp] theorem Slot.setM_dcause (t : Slot) (i j : Nat) (v : Bool) : (t.setM i j v).dcause = t.dcause := by unfold Slot.setM; split <;> rfl
@[simp] theorem Slot.setM_dpc (t : Slot) (i j : Nat) (v : Bool) : (t.setM i j v).dpc = t.dpc := by unfold Slot.setM; split <;> rfl
@[simp] theorem Slot.setM_dval (t : Slot) (i j : Nat) (v : Bool) : (t.setM i j v).dval = t.dval := by unfold Slot.setM; split <;> rfl
@[simp] theorem Slot.setM_sscratch (t : Slot) (i j : Nat) (v : Bool) : (t.setM i j v).sscratch = t.sscratch := by unfold Slot.setM; split <;> rfl
@[simp] theorem Slot.setM_lprot0 (t : Slot) (i j : Nat) (v : Bool) : (t.setM i j v).lprot0 = t.lprot0 := by unfold Slot.setM; split <;> rfl
@[simp] theorem Slot.setM_lprot1 (t : Slot) (i j : Nat) (v : Bool) : (t.setM i j v).lprot1 = t.lprot1 := by unfold Slot.setM; split <;> rfl
@[simp] theorem Slot.setM_lprot2 (t : Slot) (i j : Nat) (v : Bool) : (t.setM i j v).lprot2 = t.lprot2 := by unfold Slot.setM; split <;> rfl
@[simp] theorem Slot.setM_lprot3 (t : Slot) (i j : Nat) (v : Bool) : (t.setM i j v).lprot3 = t.lprot3 := by unfold Slot.setM; split <;> rfl
@[simp] theorem Slot.setM_v (t : Slot) (i j : Nat) (v : Bool) : (t.setM i j v).v = t.v := by unfold Slot.setM; split <;> rfl
@[simp] theorem Slot.setM_vPoison (t : Slot) (i j : Nat) (v : Bool) : (t.setM i j v).vPoison = t.vPoison := by unfold Slot.setM; split <;> rfl
@[simp] theorem Slot.setM_shape (t : Slot) (i j : Nat) (v : Bool) : (t.setM i j v).shape = t.shape := by unfold Slot.setM; split <;> rfl
@[simp] theorem Slot.setM_fmt (t : Slot) (i j : Nat) (v : Bool) : (t.setM i j v).fmt = t.fmt := by unfold Slot.setM; split <;> rfl
@[simp] theorem Slot.setM_aBase (t : Slot) (i j : Nat) (v : Bool) : (t.setM i j v).aBase = t.aBase := by unfold Slot.setM; split <;> rfl
@[simp] theorem Slot.setM_aStride (t : Slot) (i j : Nat) (v : Bool) : (t.setM i j v).aStride = t.aStride := by unfold Slot.setM; split <;> rfl
@[simp] theorem Slot.setM_bBase (t : Slot) (i j : Nat) (v : Bool) : (t.setM i j v).bBase = t.bBase := by unfold Slot.setM; split <;> rfl
@[simp] theorem Slot.setM_bStride (t : Slot) (i j : Nat) (v : Bool) : (t.setM i j v).bStride = t.bStride := by unfold Slot.setM; split <;> rfl
@[simp] theorem Slot.setM_cell (t : Slot) (i j : Nat) (v : Bool) : (t.setM i j v).cell = t.cell := by unfold Slot.setM; split <;> rfl
@[simp] theorem Slot.setM_progress (t : Slot) (i j : Nat) (v : Bool) : (t.setM i j v).progress = t.progress := by unfold Slot.setM; split <;> rfl
@[simp] theorem Slot.setM_monitors (t : Slot) (i j : Nat) (v : Bool) : (t.setM i j v).monitors = t.monitors := by unfold Slot.setM; split <;> rfl
@[simp] theorem Slot.setM_written (t : Slot) (i j : Nat) (v : Bool) : (t.setM i j v).written = t.written := by unfold Slot.setM; split <;> rfl
@[simp] theorem Slot.setM_rearm (t : Slot) (i j : Nat) (v : Bool) : (t.setM i j v).rearm = t.rearm := by unfold Slot.setM; split <;> rfl
@[simp] theorem Slot.setM_recorded (t : Slot) (i j : Nat) (v : Bool) : (t.setM i j v).recorded = t.recorded := by unfold Slot.setM; split <;> rfl
@[simp] theorem Slot.setM_home (t : Slot) (i j : Nat) (v : Bool) : (t.setM i j v).home = t.home := by unfold Slot.setM; split <;> rfl
@[simp] theorem Slot.setM_started (t : Slot) (i j : Nat) (v : Bool) : (t.setM i j v).started = t.started := by unfold Slot.setM; split <;> rfl
@[simp] theorem Slot.setM_doubleHalt (t : Slot) (i j : Nat) (v : Bool) : (t.setM i j v).doubleHalt = t.doubleHalt := by unfold Slot.setM; split <;> rfl
@[simp] theorem Slot.setM_held (t : Slot) (i j : Nat) (v : Bool) : (t.setM i j v).held = t.held := by unfold Slot.setM; split <;> rfl
@[simp] theorem Slot.setM_reserve (t : Slot) (i j : Nat) (v : Bool) : (t.setM i j v).reserve = t.reserve := by unfold Slot.setM; split <;> rfl
@[simp] theorem Slot.setM_pushing (t : Slot) (i j : Nat) (v : Bool) : (t.setM i j v).pushing = t.pushing := by unfold Slot.setM; split <;> rfl
@[simp] theorem Slot.setM_vprog (t : Slot) (i j : Nat) (v : Bool) : (t.setM i j v).vprog = t.vprog := by unfold Slot.setM; split <;> rfl
@[simp] theorem Slot.setM_logFailed (t : Slot) (i j : Nat) (v : Bool) : (t.setM i j v).logFailed = t.logFailed := by unfold Slot.setM; split <;> rfl
@[simp] theorem Slot.setM_ctx (t : Slot) (i j : Nat) (v : Bool) : (t.setM i j v).ctx = t.ctx := by unfold Slot.setM; split <;> rfl
@[simp] theorem Slot.setM_checked (t : Slot) (i j : Nat) (v : Bool) : (t.setM i j v).checked = t.checked := by unfold Slot.setM; split <;> rfl
@[simp] theorem Slot.setM_awaits (t : Slot) (i j : Nat) (v : Bool) : (t.setM i j v).awaits = t.awaits := by unfold Slot.setM; split <;> rfl
@[simp] theorem Slot.setM_fkind (t : Slot) (i j : Nat) (v : Bool) : (t.setM i j v).fkind = t.fkind := by unfold Slot.setM; split <;> rfl
@[simp] theorem Slot.setM_also (t : Slot) (i j : Nat) (v : Bool) : (t.setM i j v).also = t.also := by unfold Slot.setM; split <;> rfl
@[simp] theorem Slot.setM_stays (t : Slot) (i j : Nat) (v : Bool) : (t.setM i j v).stays = t.stays := by unfold Slot.setM; split <;> rfl
@[simp] theorem Slot.setM_killed (t : Slot) (i j : Nat) (v : Bool) : (t.setM i j v).killed = t.killed := by unfold Slot.setM; split <;> rfl
@[simp] theorem Slot.setM_inst (t : Slot) (i j : Nat) (v : Bool) : (t.setM i j v).inst = t.inst := by unfold Slot.setM; split <;> rfl
@[simp] theorem Slot.setM_read (t : Slot) (i j : Nat) (v : Bool) : (t.setM i j v).read = t.read := by unfold Slot.setM; split <;> rfl
@[simp] theorem Slot.setM_first (t : Slot) (i j : Nat) (v : Bool) : (t.setM i j v).first = t.first := by unfold Slot.setM; split <;> rfl

/-! Registers after a write (R137). -/

theorem Slot.xr_setX (t : Slot) (r q : Nat) (v : Word) (p : Bool) :
    (t.setX r v p).xr q = if q = r ∧ r ≠ 0 then v else t.xr q := by
  unfold Slot.setX Slot.xr
  by_cases hr : r = 0
  · simp [hr]
  · by_cases hq : q = 0
    · simp [hr, hq]; omega
    · simp [hr, hq, look_put]

@[simp] theorem Slot.xr_zero (t : Slot) : t.xr 0 = 0 := rfl

theorem Slot.vr_setV (t : Slot) (r l q k : Nat) (v : BitVec 32) (hl : l < 128) (hk : k < 128) :
    (t.setV r l v).vr q k = if q = r ∧ k = l then v else t.vr q k := by
  unfold Slot.setV Slot.vr
  rw [look_put]
  have : (q * 128 + k = r * 128 + l) ↔ (q = r ∧ k = l) := by omega
  simp [this]

end Sys2Proof.Machine
end

