-- ==== Sys2Proof/Laws/Ops.lean ====
section
/-! SUPPORT. What the shared operations can do, said once: how a part of an instruction ends, taking an exception, going on, waiting, issuing and
writing a result. -/

namespace Sys2Proof.Machine

/-! How a part ends. -/

@[simp] theorem Res.bnd_go {α β : Type} (a : α) (s : State) (f : α → State → Res β) : (Res.go a s).bnd f = f a s := rfl
@[simp] theorem Res.bnd_stop {α β : Type} (s : State) (f : α → State → Res β) : (Res.stop s : Res α).bnd f = .stop s := rfl
@[simp] theorem Res.state_go {α : Type} (a : α) (s : State) : (Res.go a s).state = s := rfl
@[simp] theorem Res.state_stop {α : Type} (s : State) : (Res.stop s : Res α).state = s := rfl
@[simp] theorem Res.outcome_eq {α : Type} (r : Res α) : r.outcome = .next r.state := rfl

/-- A sequence goes on with a value just when both of its parts do. -/
theorem Res.bnd_eq_go {α β : Type} {r : Res α} {f : α → State → Res β} {b : β} {t : State} :
    r.bnd f = .go b t ↔ ∃ a s, r = .go a s ∧ f a s = .go b t := by
  cases r <;> simp [Res.bnd, and_assoc]

/-- A sequence is over just when its first part is, or its second one is. -/
theorem Res.bnd_eq_stop {α β : Type} {r : Res α} {f : α → State → Res β} {t : State} :
    r.bnd f = .stop t ↔ r = .stop t ∨ ∃ a s, r = .go a s ∧ f a s = .stop t := by
  cases r <;> simp [Res.bnd, and_assoc]

@[simp] theorem need_true (s : State) (c : Cause) (v : Word) : need s true c v = .go () s := rfl
@[simp] theorem need_false (s : State) (c : Cause) (v : Word) : need s false c v = .stop (trap s c v) := rfl

/-- A requirement is met and changes nothing, or ends in the trap. -/
theorem need_cases (s : State) (ok : Bool) (c : Cause) (v : Word) :
    (ok = true ∧ need s ok c v = .go () s) ∨ (ok = false ∧ need s ok c v = .stop (trap s c v)) := by
  cases ok <;> simp

/-! What an operation on one slot leaves alone. -/

/-- A core but for its Hatches. -/
def Core.unhatched (k : Core) : Core := { k with hatches := [] }

/-- Of `s` and `t` only slot `g`, the Hatches of the cores, and the double traps noticed (R353) may differ. -/
structure SlotStep (s t : State) (g : Nat) : Prop where
  rest : t = { s with slots := t.slots, cores := t.cores, doubleTraps := t.doubleTraps }
  slots : ∀ h, h ≠ g → t.slot h = s.slot h
  cores : ∀ c, (t.core c).unhatched = (s.core c).unhatched

theorem SlotStep.refl (s : State) (g : Nat) : SlotStep s s g := ⟨rfl, fun _ _ => rfl, fun _ => rfl⟩

theorem SlotStep.trans {s t u : State} {g : Nat} (h1 : SlotStep s t g) (h2 : SlotStep t u g) : SlotStep s u g where
  rest := by rw [h2.rest, h1.rest]
  slots h hg := (h2.slots h hg).trans (h1.slots h hg)
  cores c := (h2.cores c).trans (h1.cores c)

theorem SlotStep.mem {s t : State} {g : Nat} (h : SlotStep s t g) : t.mem = s.mem := by rw [h.rest]
theorem SlotStep.tags {s t : State} {g : Nat} (h : SlotStep s t g) : t.tags = s.tags := by rw [h.rest]
theorem SlotStep.reqs {s t : State} {g : Nat} (h : SlotStep s t g) : t.reqs = s.reqs := by rw [h.rest]
theorem SlotStep.me {s t : State} {g : Nat} (h : SlotStep s t g) : t.me = s.me := by rw [h.rest]; rfl
theorem SlotStep.curCore {s t : State} {g : Nat} (h : SlotStep s t g) : t.curCore = s.curCore := by rw [h.rest]

theorem modSlot_step (s : State) (g : Nat) (f : Slot → Slot) : SlotStep s (s.modSlot g f) g where
  rest := rfl
  slots h hg := by simp [hg]
  cores _ := rfl

theorem setHatch_step (s : State) (c h : Nat) (v : Hatch) (g : Nat) : SlotStep s (s.setHatch c h v) g where
  rest := rfl
  slots _ _ := rfl
  cores d := by
    by_cases hd : d = c
    · subst hd; simp [Core.unhatched]
    · simp [hd]

theorem jumpTo_step (s : State) (g : Nat) (a : Word) : SlotStep s (jumpTo s g a) g := modSlot_step ..
theorem advance_step (s : State) (n : Nat) : SlotStep s (advance s n) s.me := jumpTo_step ..
theorem waitSlot_step (s : State) (g : Nat) (w : Wait) : SlotStep s (waitSlot s g w) g := modSlot_step ..

/-! Going on and waiting. -/

@[simp] theorem jumpTo_slot (s : State) (g : Nat) (a : Word) :
    (jumpTo s g a).slot g = { s.slot g with
      pc := a, wait := none, state := .ready, held := [], reserve := none, pushing := none, checked := none, awaits := none, inst := none, read := [] } := by
  simp [jumpTo]
@[simp] theorem advance_mine (s : State) (n : Nat) : (advance s n).mine =
    { s.mine with
      pc := s.mine.pc + wd n, wait := none, state := .ready, held := [], reserve := none, pushing := none, checked := none, awaits := none, inst := none, read := [] } := by
  simp [advance, jumpTo, State.mine_eq]
@[simp] theorem advance_mem (s : State) (n : Nat) : (advance s n).mem = s.mem := rfl

/-! Taking an exception (R351). -/

theorem putBack_step (l : List (Nat × HatchEntry)) (s : State) (c g : Nat) : SlotStep s (l.foldr (fun x s =>
    let h := s.hatch c x.1; s.setHatch c x.1 { h with entries := x.2 :: h.entries }) s) g := by
  induction l with
  | nil => exact .refl s g
  | cons x l ih => exact ih.trans (setHatch_step ..)

theorem undoIssue_step (s : State) (g : Nat) : SlotStep s (undoIssue s g) g := by
  unfold undoIssue
  dsimp only
  split
  · exact .refl s g
  · have h1 := putBack_step (s.slot g).held s (coreOf g) g
    generalize (s.slot g).reserve = r
    generalize (s.slot g).pushing = p
    generalize List.foldr _ s (s.slot g).held = s1 at h1 ⊢
    cases r <;> cases p
    · exact h1.trans (modSlot_step ..)
    · exact h1.trans ((setHatch_step s1 ..).trans (modSlot_step ..))
    · exact h1.trans ((setHatch_step s1 ..).trans (modSlot_step ..))
    · exact h1.trans ((setHatch_step s1 ..).trans ((setHatch_step ..).trans (modSlot_step ..)))

theorem noticeDouble_step (s : State) (l : List Nat) (g : Nat) : SlotStep s { s with doubleTraps := l } g :=
  ⟨rfl, fun _ _ => rfl, fun _ => rfl⟩

/-- A trap changes the trapping slot, puts back into Hatches what its instruction had taken, and has a double trap noticed. -/
theorem trapAt_step (s : State) (g : Nat) (c : Cause) (tpc v : Word) : SlotStep s (trapAt s g c tpc v) g := by
  have h := (undoIssue_step s g).trans (modSlot_step (undoIssue s g) g (fun t => trapSlot t (s.core (coreOf g)).stvec c tpc v))
  unfold trapAt
  dsimp only
  split
  · exact h.trans (noticeDouble_step ..)
  · exact h

theorem trap_step (s : State) (c : Cause) (v : Word) : SlotStep s (trap s c v) s.me := trapAt_step ..

theorem putBack_slot (l : List (Nat × HatchEntry)) (s : State) (c h : Nat) : (l.foldr (fun x s =>
    let h := s.hatch c x.1; s.setHatch c x.1 { h with entries := x.2 :: h.entries }) s).slot h = s.slot h := by
  induction l with
  | nil => rfl
  | cons x l ih => exact ih

/-- Undoing an issue leaves the slot but for what it had taken. -/
theorem undoIssue_slot (s : State) (g : Nat) :
    (undoIssue s g).slot g = { s.slot g with held := [], reserve := none, pushing := none } := by
  unfold undoIssue
  dsimp only
  split
  · rename_i h
    simp only [Bool.and_eq_true, List.isEmpty_iff, Option.isNone_iff_eq_none] at h
    obtain ⟨⟨h1, h2⟩, h3⟩ := h
    generalize s.slot g = t at h1 h2 h3
    cases t; simp_all
  · rw [State.modSlot_eq, State.slot_setSlot, if_pos rfl]
    have h := putBack_slot (s.slot g).held s (coreOf g) g
    generalize (s.slot g).reserve = r
    generalize (s.slot g).pushing = p
    generalize List.foldr _ s (s.slot g).held = s1 at h ⊢
    cases r <;> cases p <;> simp only [State.setHatch_eq, State.slot_setCore, h]

theorem trapped_slot (s : State) (g : Nat) (c : Cause) (tpc v : Word) :
    ((undoIssue s g).modSlot g (fun t => trapSlot t (s.core (coreOf g)).stvec c tpc v)).slot g =
      trapSlot { s.slot g with held := [], reserve := none, pushing := none } (s.core (coreOf g)).stvec c tpc v := by
  simp [undoIssue_slot]

/-- The trapping slot after a trap. -/
theorem trapAt_slot (s : State) (g : Nat) (c : Cause) (tpc v : Word) : (trapAt s g c tpc v).slot g =
    trapSlot { s.slot g with held := [], reserve := none, pushing := none } (s.core (coreOf g)).stvec c tpc v := by
  unfold trapAt
  dsimp only
  split
  · exact trapped_slot s g c tpc v
  · exact trapped_slot s g c tpc v

/-- What a trap writes whichever way it is taken. -/
theorem trapSlot_records (t : Slot) (stvec : Word) (c : Cause) (tpc v : Word) :
    let b := trapSlot t stvec c tpc v
    b.trapcause = BitVec.ofNat 8 c.code ∧ b.trappc = tpc ∧ b.trapval = v ∧ b.wait = none ∧ b.x = t.x ∧ b.xPoison = t.xPoison ∧ b.p = t.p ∧
      b.v = t.v ∧ b.m = t.m ∧ b.vflags = t.vflags ∧ b.rtag = t.rtag ∧ b.grant = t.grant ∧ b.tvec = t.tvec := by
  unfold trapSlot
  dsimp only
  split
  · simp [recordTrap]
  · split
    · simp [recordTrap]
    · split <;> simp [recordTrap]

/-! Issue (R138, R140). -/

theorem popHeld_step (s : State) (h : Nat) : SlotStep s (popHeld s h) s.me := by
  unfold popHeld
  dsimp only
  split
  · exact .refl s _
  · exact (setHatch_step s _ _ _ s.me).trans (modSlot_step ..)

theorem popsHeld_step (l : List RegField) (s : State) :
    SlotStep s (l.foldl (fun s r => if isHatch r then popHeld s (hatchNo r) else s) s) s.me := by
  induction l generalizing s with
  | nil => exact .refl s _
  | cons r l ih =>
    rw [List.foldl_cons]
    split
    · have h1 := popHeld_step s (hatchNo r)
      exact h1.trans (h1.me ▸ ih (popHeld s (hatchNo r)))
    · exact ih s

/-- Issue changes the executing slot's taken entries and the Hatches it takes them from. -/
theorem takeHatches_step (s : State) (k : Issue) : SlotStep s (takeHatches s k) s.me := by
  have h1 := popsHeld_step k.srcs s
  unfold takeHatches
  dsimp only
  split
  · split
    · generalize List.foldl _ s k.srcs = s1 at h1 ⊢
      rw [← h1.me] at h1 ⊢
      exact h1.trans ((setHatch_step s1 ..).trans (modSlot_step ..))
    · exact h1
  · exact h1

/-- What the operands are taken from is left as it is. -/
theorem operands_go {k : Issue} {s t : State} {vs : List Word} (h : operands k s = .go vs t) : t = s := by
  unfold operands at h
  dsimp only at h
  split at h
  · cases h
  · injection h with _ h; exact h.symm

/-- An instruction that goes on after its issue takes no more from Hatches. -/
theorem issue_again {i : Instr} {k : Issue} {s t : State} {vs : List Word} (hi : s.mine.issued.isSome = true) (h : issue i k s = .go vs t) :
    t = s := by
  unfold issue at h
  dsimp only at h
  rw [if_pos hi] at h
  exact operands_go h

/-- An instruction that issues has met checks 2 to 5 of R140; its state differs from before in what it took from Hatches only. -/
theorem issue_go {i : Instr} {k : Issue} {s t : State} {vs : List Word} (hi : s.mine.issued = none) (h : issue i k s = .go vs t) :
    wellFormed i = true ∧ k.legal = true ∧ k.level ≤ s.here.featmask.toNat ∧ (k.sup = true → s.mine.mode = true) ∧
      (k.vec = true → s.mine.grant ≠ 0) ∧ (t = s ∨ t = takeHatches s k) ∧ SlotStep s t s.me := by
  unfold issue at h
  dsimp only at h
  rw [if_neg (by simp [hi])] at h
  split at h
  · cases h
  split at h
  · cases h
  split at h
  · cases h
  split at h
  · cases h
  rename_i h1 h2 h3 h4
  rw [Res.bnd_eq_go] at h
  obtain ⟨u, s1, hg, hv⟩ := h
  have ht : t = s1 := operands_go hv
  subst ht
  have hs : t = s ∨ t = takeHatches s k := by
    repeat' split at hg
    all_goals first
      | (injection hg with _ h; exact .inl h.symm)
      | (injection hg with _ h; exact .inr h.symm)
      | cases hg
  refine ⟨?_, ?_, ?_, ?_, ?_, hs, ?_⟩
  · simpa using h1 |> fun h => by cases hw : wellFormed i <;> simp_all
  · cases hl : k.legal <;> simp_all
  · omega
  · cases hk : k.sup <;> simp_all
  · cases hk : k.vec <;> simp_all
  · rcases hs with rfl | rfl
    · exact .refl _ _
    · exact takeHatches_step s k

end Sys2Proof.Machine
end

