-- ==== Sys2Proof/Laws/Coherence.lean ====
section
/-! SUPPORT. The memory operations keep memory canonical, and publishing writes exactly its bytes. -/

namespace Sys2Proof.Machine

/-- A state with the same memory is as sound. -/
theorem State.Sound.of_mem {s t : State} (h : s.Sound) (e : t.mem = s.mem) : t.Sound := by
  unfold State.Sound; rw [e]; exact h

theorem SlotStep.sound {s t : State} {g : Nat} (h : SlotStep s t g) (hs : s.Sound) : t.Sound := hs.of_mem h.mem

/-- A fold of operations that keep a property keeps it. -/
theorem foldl_keeps {α β : Type} {P : β → Prop} {f : β → α → β} (h : ∀ b a, P b → P (f b a)) (l : List α) {b : β} (hb : P b) :
    P (l.foldl f b) := by
  induction l generalizing b with
  | nil => exact hb
  | cons a l ih => exact ih (h b a hb)

theorem summarise_wf (e : Word) (l : List Nat) {m : Memory} (h : m.wf = true) : (summarise e m l).wf = true := by
  induction l generalizing m with
  | nil => exact h
  | cons a l ih => exact ih (Memory.wf_writes _ h)

/-- A fold of operations that leave memory alone leaves it alone. -/
theorem foldl_mem {α : Type} {f : State → α → State} (h : ∀ s a, (f s a).mem = s.mem) (l : List α) (s : State) : (l.foldl f s).mem = s.mem :=
  foldl_keeps (P := fun t => t.mem = s.mem) (fun t a ht => (h t a).trans ht) l rfl

/-- What a publication writes: its bytes, and of a summarised page the records' updates. -/
theorem publishCells_mem_ext (s : State) (cells : List Host.Cell) (ext : Word) (core g : Option Nat) :
    (publishCells s cells ext core g).mem =
      if ext = 0 then s.mem.writes cells else summarise ext (s.mem.writes cells) (writtenElems ext cells) := by
  cases core <;> exact foldl_mem (f := fun s ln => recallLine s ln _) (fun _ _ => rfl) _ _

/-- Publishing bytes of a page that is not summarised writes exactly them. -/
theorem publishCells_mem (s : State) (cells : List Host.Cell) (core g : Option Nat) :
    (publishCells s cells 0 core g).mem = s.mem.writes cells := publishCells_mem_ext s cells 0 core g

theorem publishCells_sound (cells : List Host.Cell) (ext : Word) (core g : Option Nat) {s : State} (h : s.Sound) :
    (publishCells s cells ext core g).Sound := by
  unfold State.Sound
  rw [publishCells_mem_ext]
  split
  · exact Memory.wf_writes _ h
  · exact summarise_wf _ _ (Memory.wf_writes _ h)

theorem sramWrite_sound (cells : List Host.Cell) {s : State} (h : s.Sound) : (sramWrite s cells).Sound := Memory.wf_writes _ h

theorem publishSector_sound (c : Nat) (l : Line) (sec : Nat) {s : State} (h : s.Sound) : (publishSector s c l sec).Sound := by
  exact (publishCells_sound _ _ _ _ h).of_mem rfl

theorem publishLine_sound (c ln : Nat) {s : State} (h : s.Sound) : (publishLine s c ln).Sound := by
  unfold publishLine
  split
  · exact h
  · exact State.Sound.of_mem (foldl_keeps (P := State.Sound) (fun s f hs => publishSector_sound _ _ _ hs) _ h) rfl

theorem publishLines_sound (c : Nat) {s : State} (h : s.Sound) : (publishLines s c).Sound :=
  foldl_keeps (P := State.Sound) (fun _ _ hs => publishLine_sound _ _ hs) _ h

/-- A publication goes on or waits, and keeps memory canonical. -/
theorem publish_sound (scope : Scope) {s : State} (h : s.Sound) : (publish s scope).state.Sound := by
  unfold publish
  dsimp only
  split
  · exact h.of_mem rfl
  · cases scope <;> dsimp only <;> split
    · exact h
    · exact h.of_mem rfl
    all_goals exact (publishLines_sound _ h).of_mem rfl

/-- What a publication that goes on leaves (R101, R102): no earlier store that its scope awaits is held at the core, its lines are published from .dev on, and
nothing else is done at .cl. -/
theorem publish_go {s t : State} {scope : Scope} {u : Unit} : publish s scope = .go u t →
    storesHeld s s.curCore (issueOrder s) scope false = false ∧
      t = (match scope with | .cl => s | .dev => publishLines s s.curCore | .sys => reachHost (publishLines s s.curCore) s.curCore) := by
  intro h
  unfold publish at h
  dsimp only at h
  split at h
  · cases h
  · rename_i hs
    refine ⟨by simpa using hs, ?_⟩
    have hi : ∀ {b : Bool} {x y : State}, (if b = true then Res.go () x else waitHere y .publish) = Res.go u t → x = t := by
      intro b x y hb
      cases b
      · cases hb
      · cases hb; rfl
    exact (hi h).symm

@[simp] theorem keepPlaces_go (ps : List Place) (u : Unit) (s : State) : keepPlaces ps (.go u s) = .go u s := rfl
@[simp] theorem keepPlaces_stop (ps : List Place) (s : State) :
    keepPlaces ps (.stop s) = .stop (s.modMe (fun t => { t with checked := some ps })) := rfl

/-! A page's failure (R398, R402) changes contexts and fault records, and no memory. -/

theorem dropRecord_mem (s : State) (c ctx va : Nat) : (dropRecord s c ctx va).mem = s.mem := by
  unfold dropRecord
  dsimp only
  split <;> rfl

theorem dropNoFrame_mem (s : State) (v : Service) : (dropNoFrame s v).mem = s.mem := by
  unfold dropNoFrame
  dsimp only
  split <;> rfl

theorem endServices_mem (s : State) (sel : Service → Bool) : (endServices s sel).mem = s.mem := foldl_mem dropNoFrame_mem _ _

/-- With nothing pending, a held access that fails alone leaves its own address, and discarded entries their lowest (`joinFailure`). -/
@[simp] theorem pageFailure_held (c : Cause) (va : Nat) (l : List Nat) : pageFailure c (va :: l) [] none = some (c.code, wd va) := rfl
@[simp] theorem pageFailure_none (c : Cause) (old : Option (Nat × Word)) : pageFailure c [] [] old = old := rfl
@[simp] theorem pageFailure_gone (c : Cause) (held : List Nat) (a : Nat) : pageFailure c held [a] none = some (c.code, wd a) := rfl

theorem failSlot_mem (s : State) (g : Nat) (c : Cause) (page : Nat) (gone : List Nat) : (failSlot s g c page gone).mem = s.mem := by
  unfold failSlot
  dsimp only
  split
  · split
    · rfl
    · rw [(trapAt_step _ _ _ _ _).mem]
      exact foldl_mem (f := fun s va => dropRecord s (coreOf g) (State.slot _ g).ctx va) (fun _ _ => dropRecord_mem ..) _ _
  · rfl

theorem failPageOn_mem (s : State) (sel : Nat → Bool) (p page : Nat) (c : Cause) : (failPageOn s sel p page c).mem = s.mem := by
  unfold failPageOn
  refine foldl_keeps (P := fun (t : State) => t.mem = s.mem) (fun t x ht => ?_) _ rfl
  split
  · exact (failSlot_mem ..).trans ht
  · exact ht

theorem failPage_mem (s : State) (p page : Nat) (c : Cause) : (failPage s p page c).mem = s.mem :=
  (endServices_mem ..).trans (failPageOn_mem ..)

/-- A draw of the device's leaves memory alone. -/
theorem drawPoint_mem (s : State) (b : Nat) : (drawPoint s b).2.mem = s.mem := by
  unfold drawPoint
  dsimp only
  split <;> rfl

theorem pickLine_mem {α : Type} (s : State) (l : List α) : (pickLine s l).2.mem = s.mem := by
  unfold pickLine
  split <;> rfl

theorem leaveL1_sound (c ln : Nat) {s : State} (h : s.Sound) : (leaveL1 s c ln).Sound := by
  unfold leaveL1
  dsimp only
  split
  · exact publishLine_sound _ _ h
  · refine State.Sound.of_mem (?_ : State.Sound (if _ then s else _)) rfl
    split
    · exact h
    · split <;> rename_i hp
      · exact publishLine_sound _ _ (h.of_mem (by rw [State.modTile_mem]; exact (congrArg (fun z => z.2.mem) hp).symm.trans (pickLine_mem ..)))
      · exact h.of_mem ((congrArg (fun z => z.2.mem) hp).symm.trans (pickLine_mem ..))

theorem bringLine_sound (c ln : Nat) {s : State} (h : s.Sound) : (bringLine s c ln).Sound := by
  unfold bringLine
  dsimp only
  split
  · exact h
  · refine State.Sound.of_mem (?_ : State.Sound (if _ then _ else _)) (by rw [State.modCore_eq, State.setCore_mem])
    have h1 : (if (s.tile (tileOf c)).pool.isEmpty = true then s
        else s.modTile (tileOf c) (fun t => { t with pool := t.pool.filter (fun x => x != (c, ln)) })).Sound := by
      split
      · exact h
      · exact h.of_mem rfl
    split
    · exact h1
    · split <;> rename_i hp
      · exact leaveL1_sound _ _ (h1.of_mem ((State.setCore_mem ..).trans ((congrArg (fun z => z.2.mem) hp).symm.trans (pickLine_mem ..))))
      · exact h1.of_mem ((congrArg (fun z => z.2.mem) hp).symm.trans (pickLine_mem ..))

theorem fillPoint_mem (s : State) (c sec : Nat) : (fillPoint s c sec).2.mem = s.mem := by
  unfold fillPoint
  split
  · rfl
  · exact drawPoint_mem ..

theorem makeRoom_sound (c : Nat) {s : State} (h : s.Sound) : (makeRoom s c).Sound := by
  unfold makeRoom
  split
  · split
    · exact publishLine_sound _ _ h
    · exact h
  · exact h

theorem snapStore_sound (c r a : Nat) (bs : List Byte) (ext : Word) {s : State} (h : s.Sound) : (snapStore s c r a bs ext).Sound := by
  have h0 := bringLine_sound c (lineNo a) h
  unfold snapStore
  dsimp only
  generalize bringLine s c (lineNo a) = s0 at h0 ⊢
  split
  · refine State.Sound.of_mem h0 ?_
    simp only [State.modCore_eq, State.setCore_mem]
    split
    · rfl
    · exact fillPoint_mem ..
  · refine State.Sound.of_mem (makeRoom_sound c h0) ?_
    simp only [State.modCore_eq, State.setCore_mem]
    exact fillPoint_mem ..

theorem annulLines_sound (c r : Nat) {s : State} (h : s.Sound) : (annulLines s c r).Sound :=
  foldl_keeps (P := State.Sound) (fun _ _ hs => publishLine_sound _ _ hs) _ (h.of_mem rfl)

theorem obtainLine_sound (c a : Nat) {s : State} (h : s.Sound) : (obtainLine s c a).Sound :=
  State.Sound.of_mem (bringLine_sound c (lineNo a) (publishLine_sound c (lineNo a) h)) rfl

theorem orEntry_sound (pa : Nat) (v : Word) {s : State} (h : s.Sound) : (orEntry s pa v).Sound := publishCells_sound _ _ _ _ h

theorem tlbInstall_sound (c first : Nat) (leaf ext : Word) (base log2 : Nat) {s : State} (h : s.Sound) :
    (tlbInstall s c first leaf ext base log2).Sound := by
  have h1 : (if leafA leaf = true then s else orEntry s first 0x40).Sound := by
    split
    · exact h
    · exact orEntry_sound _ _ h
  have fresh : ∀ (p : Prop) [Decidable p] {t : State}, t.Sound → (if p then t.fresh else (0, t)).2.Sound := by
    intro p _ t ht
    split
    · exact ht.of_mem rfl
    · exact ht
  unfold tlbInstall State.Sound
  simp only [State.modCluster_mem, State.modCore_eq, State.setCore_mem]
  exact fresh _ (fresh _ h1)

/-- A translation keeps memory canonical, an A bit it sets included. -/
theorem translate_sound (c va : Nat) (k : Access) (user : Bool) {s : State} (h : s.Sound) : (translate s c va k user).2.Sound := by
  unfold translate
  split
  · split <;> exact h
  · split
    · exact h
    · split <;> exact h
    · split
      · exact tlbInstall_sound _ _ _ _ _ _ h
      · exact h

theorem mergeDirty_sound (c : Nat) {s : State} (h : s.Sound) : (mergeDirty s c).Sound := by
  unfold mergeDirty
  refine State.Sound.of_mem (foldl_keeps (P := State.Sound) (fun s e hs => ?_) (s.core c).dirtyLog h) rfl
  split
  · exact orEntry_sound _ _ hs
  · exact hs

theorem logDirty_sound (c va : Nat) {s : State} (h : s.Sound) : (logDirty s c va).Sound := by
  unfold logDirty
  dsimp only
  split <;> exact h.of_mem rfl

theorem snapLoad_sound (c a n : Nat) {s : State} (h : s.Sound) : (snapLoad s c a n).2.Sound := by
  have h1 : (loadPointOf s c a n).2.mem = s.mem := by
    unfold loadPointOf
    split
    · rfl
    · exact drawPoint_mem ..
  exact h.of_mem h1

/-- A load changes no byte of memory but for what a line that leaves the L1 publishes. -/
theorem readPlace_sound (c : Nat) (p : Place) (n : Nat) {s : State} (h : s.Sound) : (readPlace s c p n).2.2.Sound := by
  unfold readPlace
  split
  · split
    · exact snapLoad_sound c _ n (bringLine_sound c _ h)
    · exact h
  · exact h
  · exact h

theorem sendWork_sound (p r part slot : Nat) (op : PeerOp) (a : Word) (data : List Byte) (cmp : Word) {s : State} (h : s.Sound) :
    (sendWork s p r part slot op a data cmp).Sound := by
  unfold sendWork
  dsimp only
  split
  · exact h.of_mem rfl
  · split <;> exact h.of_mem rfl

theorem sendPeer_sound (p r c : Nat) (op : PeerOp) (a : Word) (data : List Byte) (cmp : Word) {s : State} (h : s.Sound) :
    (sendPeer s p r c op a data cmp).Sound := sendWork_sound _ _ _ _ _ _ _ _ h

theorem notePeer_sound (p c : Nat) {s : State} (h : s.Sound) : (notePeer s p c).Sound := by
  unfold notePeer
  dsimp only
  split <;> exact h.of_mem rfl

/-- The first store of a page is logged, or nothing happens. -/
theorem markDirty_sound (c : Nat) (p : Place) {s : State} (h : s.Sound) : (markDirty s c p).Sound := by
  unfold markDirty
  split
  · split
    · exact logDirty_sound _ _ h
    · exact h
  · exact h

theorem untie_sound (c n : Nat) {s : State} (h : s.Sound) : (untie s c n).Sound := h.of_mem rfl

/-- The contexts stored in a Closet are read again: memory and queues stay. -/
theorem rereadContexts_sound (c o n : Nat) {s : State} (h : s.Sound) : (rereadContexts s c o n).Sound := by
  refine foldl_keeps (P := State.Sound) (fun s x hs => ?_) _ h
  split
  · split
    · split
      · exact hs.of_mem rfl
      · exact hs.of_mem rfl
    · exact hs
  · exact hs

theorem sramStore_sound (loc : Nat) (bs : List Byte) {s : State} (h : s.Sound) : (sramStore s loc bs).Sound := by
  unfold sramStore
  dsimp only
  split
  · exact rereadContexts_sound _ _ _ (sramWrite_sound _ h)
  · exact sramWrite_sound _ h

theorem writePlace_sound (c r : Nat) (p : Place) (bs : List Byte) {s : State} (h : s.Sound) : (writePlace s c r p bs).Sound := by
  unfold writePlace
  split
  · dsimp only
    split
    · exact snapStore_sound _ _ _ _ _ (markDirty_sound _ _ h)
    · exact publishCells_sound _ _ _ _ (markDirty_sound _ _ h)
  · exact sramStore_sound _ _ h
  · exact notePeer_sound _ _ (sendPeer_sound _ _ _ _ _ _ _ h)
  · exact h

theorem writePublished_sound (c r : Nat) (p : Place) (bs : List Byte) {s : State} (h : s.Sound) : (writePublished s c r p bs).Sound := by
  unfold writePublished
  split
  · exact publishCells_sound _ _ _ _ (publishLine_sound _ _ (markDirty_sound _ _ h))
  · exact sramStore_sound _ _ h
  · exact notePeer_sound _ _ (sendPeer_sound _ _ _ _ _ _ _ h)
  · exact h

theorem atomicPrep_sound (c : Nat) (p : Place) {s : State} (h : s.Sound) : (atomicPrep s c p).Sound := by
  unfold atomicPrep
  split
  · dsimp only
    split
    · exact obtainLine_sound _ _ (markDirty_sound _ _ h)
    · exact markDirty_sound _ _ h
  · exact h

theorem atomicWrite_sound (c : Nat) (p : Place) (g v n : Nat) {s : State} (h : s.Sound) : (atomicWrite s c p g v n).Sound := by
  unfold atomicWrite
  split
  · exact publishCells_sound _ _ _ _ h
  · exact sramStore_sound _ _ h
  · exact h

theorem atomicAt_sound (c g : Nat) (p : Place) (n : Nat) (f : Nat → Nat) {s : State} (h : s.Sound) : (atomicAt s c g p n f).2.Sound :=
  atomicWrite_sound _ _ _ _ _ (atomicPrep_sound _ _ h)

theorem writeCr_sound (ps : List Place) (w : List Word) {s : State} (h : s.Sound) : (writeCr s ps w).Sound :=
  foldl_keeps (P := State.Sound) (fun _ _ hs => writePublished_sound _ _ _ _ hs) _ h

theorem writeImage_sound (ps : List Place) (bs : List Byte) {s : State} (h : s.Sound) : (writeImage s ps bs).Sound := by
  induction ps generalizing s bs with
  | nil => exact h
  | cons p r ih => exact ih _ (writePublished_sound _ _ _ _ h)

theorem zeroRange_sound (loc n : Nat) {s : State} (h : s.Sound) : (zeroRange s loc n).Sound := Memory.wf_filter _ h

theorem setGrant_sound (g n : Nat) {s : State} (h : s.Sound) : (setGrant s g n).Sound := Memory.wf_filter _ h

/-- An event of a unit that the device has changes the state as given; of another it faults. -/
theorem eventOf_cases (ok : Bool) (f : State → State) (s : State) :
    (ok = true ∧ eventOf ok f s = .next (f s)) ∨ (ok = false ∧ eventOf ok f s = .fault .noSuchUnit) := by
  cases ok
  · exact .inr ⟨rfl, rfl⟩
  · exact .inl ⟨rfl, rfl⟩

end Sys2Proof.Machine
end

