-- ==== Sys2Proof/Laws/PerInstr.lean ====
section
/-! SUPPORT. Facts about every instruction as syntax, one lemma per constructor. -/

namespace Sys2Proof.Laws.Framing

/-- R139: bit 0 of the first halfword of an encoded instruction tells its length: 1 for a 32-bit form, 0 for a 16-bit form. -/
def Statement (i : Instr) : Prop := Machine.encoded i = true → (word32 i).getLsbD 0 = !isShort i

theorem bit0_append {n : Nat} (x : BitVec n) (b : BitVec 1) : (x ++ b).getLsbD 0 = b.getLsbD 0 := by rw [BitVec.getLsbD_append]; rfl
theorem encR_bit0 (f : BitVec 7) (c b a m : BitVec 6) : (encR f c b a m).getLsbD 0 = true := bit0_append _ _
theorem encI_bit0 (f : BitVec 13) (b a m : BitVec 6) : (encI f b a m).getLsbD 0 = true := bit0_append _ _
theorem encS_bit0 (f : BitVec 13) (b a m : BitVec 6) : (encS f b a m).getLsbD 0 = true := bit0_append _ _
theorem encB_bit0 (f : BitVec 13) (a : BitVec 6) (p k : BitVec 3) (m : BitVec 6) : (encB f a p k m).getLsbD 0 = true := bit0_append _ _
theorem encJ_bit0 (f : BitVec 19) (a m : BitVec 6) : (encJ f a m).getLsbD 0 = true := bit0_append _ _
theorem encC_bit0 (f : BitVec 2) (n : BitVec 11) (b a m : BitVec 6) : (encC f n b a m).getLsbD 0 = true := bit0_append _ _
theorem encV_bit0 (f : BitVec 4) (e k : BitVec 3) (c b a : BitVec 5) (m : BitVec 6) : (encV f e k c b a m).getLsbD 0 = true := bit0_append _ _
theorem encVM_bit0 (k : BitVec 3) (s f : BitVec 2) (x b : BitVec 6) (a : BitVec 5) (l : BitVec 1) (m : BitVec 6) :
    (encVM k s f x b a l m).getLsbD 0 = true := bit0_append _ _
theorem enc16_bit0 (c b a : BitVec 5) : (enc16 c b a).getLsbD 0 = false := bit0_append _ _
/-- An event has no word (R141). -/
theorem event {i : Instr} (h : Machine.needs i {} = none) : Statement i := fun e => by rw [Machine.encoded, h] at e; cases e

theorem add (rd : BitVec 6) (rs1 : BitVec 6) (rs2 : BitVec 6) : Statement (.add rd rs1 rs2) := fun _ => encR_bit0 _ _ _ _ _
theorem sub (rd : BitVec 6) (rs1 : BitVec 6) (rs2 : BitVec 6) : Statement (.sub rd rs1 rs2) := fun _ => encR_bit0 _ _ _ _ _
theorem and (rd : BitVec 6) (rs1 : BitVec 6) (rs2 : BitVec 6) : Statement (.and rd rs1 rs2) := fun _ => encR_bit0 _ _ _ _ _
theorem andn (rd : BitVec 6) (rs1 : BitVec 6) (rs2 : BitVec 6) : Statement (.andn rd rs1 rs2) := fun _ => encR_bit0 _ _ _ _ _
theorem or (rd : BitVec 6) (rs1 : BitVec 6) (rs2 : BitVec 6) : Statement (.or rd rs1 rs2) := fun _ => encR_bit0 _ _ _ _ _
theorem xor (rd : BitVec 6) (rs1 : BitVec 6) (rs2 : BitVec 6) : Statement (.xor rd rs1 rs2) := fun _ => encR_bit0 _ _ _ _ _
theorem sll (rd : BitVec 6) (rs1 : BitVec 6) (rs2 : BitVec 6) : Statement (.sll rd rs1 rs2) := fun _ => encR_bit0 _ _ _ _ _
theorem srl (rd : BitVec 6) (rs1 : BitVec 6) (rs2 : BitVec 6) : Statement (.srl rd rs1 rs2) := fun _ => encR_bit0 _ _ _ _ _
theorem sra (rd : BitVec 6) (rs1 : BitVec 6) (rs2 : BitVec 6) : Statement (.sra rd rs1 rs2) := fun _ => encR_bit0 _ _ _ _ _
theorem rot (rd : BitVec 6) (rs1 : BitVec 6) (rs2 : BitVec 6) : Statement (.rot rd rs1 rs2) := fun _ => encR_bit0 _ _ _ _ _
theorem mul (rd : BitVec 6) (rs1 : BitVec 6) (rs2 : BitVec 6) : Statement (.mul rd rs1 rs2) := fun _ => encR_bit0 _ _ _ _ _
theorem mulh (rd : BitVec 6) (rs1 : BitVec 6) (rs2 : BitVec 6) : Statement (.mulh rd rs1 rs2) := fun _ => encR_bit0 _ _ _ _ _
theorem mulhn (rd : BitVec 6) (rs1 : BitVec 6) (rs2 : BitVec 6) : Statement (.mulhn rd rs1 rs2) := fun _ => encR_bit0 _ _ _ _ _
theorem div (rd : BitVec 6) (rs1 : BitVec 6) (rs2 : BitVec 6) : Statement (.div rd rs1 rs2) := fun _ => encR_bit0 _ _ _ _ _
theorem divn (rd : BitVec 6) (rs1 : BitVec 6) (rs2 : BitVec 6) : Statement (.divn rd rs1 rs2) := fun _ => encR_bit0 _ _ _ _ _
theorem rem (rd : BitVec 6) (rs1 : BitVec 6) (rs2 : BitVec 6) : Statement (.rem rd rs1 rs2) := fun _ => encR_bit0 _ _ _ _ _
theorem remn (rd : BitVec 6) (rs1 : BitVec 6) (rs2 : BitVec 6) : Statement (.remn rd rs1 rs2) := fun _ => encR_bit0 _ _ _ _ _
theorem min (rd : BitVec 6) (rs1 : BitVec 6) (rs2 : BitVec 6) : Statement (.min rd rs1 rs2) := fun _ => encR_bit0 _ _ _ _ _
theorem max (rd : BitVec 6) (rs1 : BitVec 6) (rs2 : BitVec 6) : Statement (.max rd rs1 rs2) := fun _ => encR_bit0 _ _ _ _ _
theorem minn (rd : BitVec 6) (rs1 : BitVec 6) (rs2 : BitVec 6) : Statement (.minn rd rs1 rs2) := fun _ => encR_bit0 _ _ _ _ _
theorem maxn (rd : BitVec 6) (rs1 : BitVec 6) (rs2 : BitVec 6) : Statement (.maxn rd rs1 rs2) := fun _ => encR_bit0 _ _ _ _ _
theorem clz (rd : BitVec 6) (rs1 : BitVec 6) : Statement (.clz rd rs1) := fun _ => encR_bit0 _ _ _ _ _
theorem ctz (rd : BitVec 6) (rs1 : BitVec 6) : Statement (.ctz rd rs1) := fun _ => encR_bit0 _ _ _ _ _
theorem popc (rd : BitVec 6) (rs1 : BitVec 6) : Statement (.popc rd rs1) := fun _ => encR_bit0 _ _ _ _ _
theorem brev (rd : BitVec 6) (rs1 : BitVec 6) : Statement (.brev rd rs1) := fun _ => encR_bit0 _ _ _ _ _
theorem bswap (rd : BitVec 6) (rs1 : BitVec 6) : Statement (.bswap rd rs1) := fun _ => encR_bit0 _ _ _ _ _
theorem csel (rd : BitVec 6) (rs1 : BitVec 6) (rs2 : BitVec 6) (ps : BitVec 3) : Statement (.csel rd rs1 rs2 ps) := fun _ => encR_bit0 _ _ _ _ _
theorem addi (rd : BitVec 6) (rs1 : BitVec 6) (imm : BitVec 13) : Statement (.addi rd rs1 imm) := fun _ => encI_bit0 _ _ _ _
theorem andi (rd : BitVec 6) (rs1 : BitVec 6) (imm : BitVec 13) : Statement (.andi rd rs1 imm) := fun _ => encI_bit0 _ _ _ _
theorem ori (rd : BitVec 6) (rs1 : BitVec 6) (imm : BitVec 13) : Statement (.ori rd rs1 imm) := fun _ => encI_bit0 _ _ _ _
theorem xori (rd : BitVec 6) (rs1 : BitVec 6) (imm : BitVec 13) : Statement (.xori rd rs1 imm) := fun _ => encI_bit0 _ _ _ _
theorem slli (rd : BitVec 6) (rs1 : BitVec 6) (sh : BitVec 6) : Statement (.slli rd rs1 sh) := fun _ => encI_bit0 _ _ _ _
theorem srli (rd : BitVec 6) (rs1 : BitVec 6) (sh : BitVec 6) : Statement (.srli rd rs1 sh) := fun _ => encI_bit0 _ _ _ _
theorem srai (rd : BitVec 6) (rs1 : BitVec 6) (sh : BitVec 6) : Statement (.srai rd rs1 sh) := fun _ => encI_bit0 _ _ _ _
theorem roti (rd : BitVec 6) (rs1 : BitVec 6) (sh : BitVec 6) : Statement (.roti rd rs1 sh) := fun _ => encI_bit0 _ _ _ _
theorem extS (rd : BitVec 6) (rs1 : BitVec 6) (pos : BitVec 6) (width : BitVec 6) : Statement (.extS rd rs1 pos width) := fun _ => encI_bit0 _ _ _ _
theorem extn (rd : BitVec 6) (rs1 : BitVec 6) (pos : BitVec 6) (width : BitVec 6) : Statement (.extn rd rs1 pos width) := fun _ => encI_bit0 _ _ _ _
theorem insF (rd : BitVec 6) (rs1 : BitVec 6) (pos : BitVec 6) (width : BitVec 6) : Statement (.insF rd rs1 pos width) := fun _ => encI_bit0 _ _ _ _
theorem lih (rd : BitVec 6) (imm : BitVec 19) : Statement (.lih rd imm) := fun _ => encJ_bit0 _ _ _
theorem addpc (rd : BitVec 6) (imm : BitVec 19) : Statement (.addpc rd imm) := fun _ => encJ_bit0 _ _ _
theorem cmp (pd : BitVec 3) (rs1 : BitVec 6) (rs2 : BitVec 6) (cc : BitVec 3) : Statement (.cmp pd rs1 rs2 cc) := fun _ => encR_bit0 _ _ _ _ _
theorem cmpi (pd : BitVec 3) (cc : BitVec 3) (rs1 : BitVec 6) (imm : BitVec 13) : Statement (.cmpi pd cc rs1 imm) := fun _ => encI_bit0 _ _ _ _
theorem pand (pd : BitVec 3) (ps1 : BitVec 3) (ps2 : BitVec 3) : Statement (.pand pd ps1 ps2) := fun _ => encR_bit0 _ _ _ _ _
theorem por (pd : BitVec 3) (ps1 : BitVec 3) (ps2 : BitVec 3) : Statement (.por pd ps1 ps2) := fun _ => encR_bit0 _ _ _ _ _
theorem pxor (pd : BitVec 3) (ps1 : BitVec 3) (ps2 : BitVec 3) : Statement (.pxor pd ps1 ps2) := fun _ => encR_bit0 _ _ _ _ _
theorem pandn (pd : BitVec 3) (ps1 : BitVec 3) (ps2 : BitVec 3) : Statement (.pandn pd ps1 ps2) := fun _ => encR_bit0 _ _ _ _ _
theorem pset (pd : BitVec 3) (rs1 : BitVec 6) : Statement (.pset pd rs1) := fun _ => encR_bit0 _ _ _ _ _
theorem pget (rd : BitVec 6) : Statement (.pget rd) := fun _ => encR_bit0 _ _ _ _ _
theorem bp (ps : BitVec 3) (off : BitVec 13) : Statement (.bp ps off) := fun _ => encB_bit0 _ _ _ _ _
theorem bnp (ps : BitVec 3) (off : BitVec 13) : Statement (.bnp ps off) := fun _ => encB_bit0 _ _ _ _ _
theorem cbz (rs1 : BitVec 6) (off : BitVec 13) : Statement (.cbz rs1 off) := fun _ => encB_bit0 _ _ _ _ _
theorem cbnz (rs1 : BitVec 6) (off : BitVec 13) : Statement (.cbnz rs1 off) := fun _ => encB_bit0 _ _ _ _ _
theorem jal (rd : BitVec 6) (imm : BitVec 19) : Statement (.jal rd imm) := fun _ => encJ_bit0 _ _ _
theorem jalr (rd : BitVec 6) (rs1 : BitVec 6) (imm : BitVec 13) : Statement (.jalr rd rs1 imm) := fun _ => encI_bit0 _ _ _ _
theorem ldS8 (rd : BitVec 6) (rs1 : BitVec 6) (imm : BitVec 13) : Statement (.ldS8 rd rs1 imm) := fun _ => encI_bit0 _ _ _ _
theorem ldN8 (rd : BitVec 6) (rs1 : BitVec 6) (imm : BitVec 13) : Statement (.ldN8 rd rs1 imm) := fun _ => encI_bit0 _ _ _ _
theorem ldS16 (rd : BitVec 6) (rs1 : BitVec 6) (imm : BitVec 13) : Statement (.ldS16 rd rs1 imm) := fun _ => encI_bit0 _ _ _ _
theorem ldN16 (rd : BitVec 6) (rs1 : BitVec 6) (imm : BitVec 13) : Statement (.ldN16 rd rs1 imm) := fun _ => encI_bit0 _ _ _ _
theorem ldS32 (rd : BitVec 6) (rs1 : BitVec 6) (imm : BitVec 13) : Statement (.ldS32 rd rs1 imm) := fun _ => encI_bit0 _ _ _ _
theorem ldN32 (rd : BitVec 6) (rs1 : BitVec 6) (imm : BitVec 13) : Statement (.ldN32 rd rs1 imm) := fun _ => encI_bit0 _ _ _ _
theorem ldD64 (rd : BitVec 6) (rs1 : BitVec 6) (imm : BitVec 13) : Statement (.ldD64 rd rs1 imm) := fun _ => encI_bit0 _ _ _ _
theorem stN8 (imm : BitVec 13) (rs1 : BitVec 6) (rs2 : BitVec 6) : Statement (.stN8 imm rs1 rs2) := fun _ => encS_bit0 _ _ _ _
theorem stN16 (imm : BitVec 13) (rs1 : BitVec 6) (rs2 : BitVec 6) : Statement (.stN16 imm rs1 rs2) := fun _ => encS_bit0 _ _ _ _
theorem stN32 (imm : BitVec 13) (rs1 : BitVec 6) (rs2 : BitVec 6) : Statement (.stN32 imm rs1 rs2) := fun _ => encS_bit0 _ _ _ _
theorem stD64 (imm : BitVec 13) (rs1 : BitVec 6) (rs2 : BitVec 6) : Statement (.stD64 imm rs1 rs2) := fun _ => encS_bit0 _ _ _ _
theorem ldx (rd : BitVec 6) (rs1 : BitVec 6) (imm : BitVec 13) : Statement (.ldx rd rs1 imm) := fun _ => encI_bit0 _ _ _ _
theorem stx (imm : BitVec 13) (rs1 : BitVec 6) (rs2 : BitVec 6) : Statement (.stx imm rs1 rs2) := fun _ => encS_bit0 _ _ _ _
theorem pref (rs1 : BitVec 6) (imm : BitVec 13) : Statement (.pref rs1 imm) := fun _ => encI_bit0 _ _ _ _
theorem amo32 (rd : BitVec 6) (rs1 : BitVec 6) (rs2 : BitVec 6) (ord : BitVec 3) (op : BitVec 4) : Statement (.amo32 rd rs1 rs2 ord op) := fun _ => encR_bit0 _ _ _ _ _
theorem amo64 (rd : BitVec 6) (rs1 : BitVec 6) (rs2 : BitVec 6) (ord : BitVec 3) (op : BitVec 4) : Statement (.amo64 rd rs1 rs2 ord op) := fun _ => encR_bit0 _ _ _ _ _
theorem cas (rd : BitVec 6) (rs1 : BitVec 6) (rs2 : BitVec 6) (ord : BitVec 3) (size : BitVec 1) : Statement (.cas rd rs1 rs2 ord size) := fun _ => encR_bit0 _ _ _ _ _
theorem red32 (rs1 : BitVec 6) (rs2 : BitVec 6) (ord : BitVec 3) (op : BitVec 4) : Statement (.red32 rs1 rs2 ord op) := fun _ => encR_bit0 _ _ _ _ _
theorem red64 (rs1 : BitVec 6) (rs2 : BitVec 6) (ord : BitVec 3) (op : BitVec 4) : Statement (.red64 rs1 rs2 ord op) := fun _ => encR_bit0 _ _ _ _ _
theorem fred (rs1 : BitVec 6) (rs2 : BitVec 6) (ord : BitVec 3) (ty : BitVec 1) : Statement (.fred rs1 rs2 ord ty) := fun _ => encR_bit0 _ _ _ _ _
theorem ldfull (rd : BitVec 6) (rs1 : BitVec 6) : Statement (.ldfull rd rs1) := fun _ => encR_bit0 _ _ _ _ _
theorem ldtake (rd : BitVec 6) (rs1 : BitVec 6) : Statement (.ldtake rd rs1) := fun _ => encR_bit0 _ _ _ _ _
theorem stfill (rs1 : BitVec 6) (rs2 : BitVec 6) : Statement (.stfill rs1 rs2) := fun _ => encR_bit0 _ _ _ _ _
theorem stforce (rs1 : BitVec 6) (rs2 : BitVec 6) : Statement (.stforce rs1 rs2) := fun _ => encR_bit0 _ _ _ _ _
theorem tagrd (rd : BitVec 6) (rs1 : BitVec 6) : Statement (.tagrd rd rs1) := fun _ => encR_bit0 _ _ _ _ _
theorem twBackoffExpiry (g : Nat) : Statement (.twBackoffExpiry g) := event rfl
theorem taggedOpComplete (g : Nat) : Statement (.taggedOpComplete g) := event rfl
theorem waitLimitExpiry (g : Nat) : Statement (.waitLimitExpiry g) := event rfl
theorem withdrawalAnswer (g : Nat) : Statement (.withdrawalAnswer g) := event rfl
theorem phase (scope : BitVec 2) (half : BitVec 2) : Statement (.phase scope half) := fun _ => encR_bit0 _ _ _ _ _
theorem publishComplete (g : Nat) : Statement (.publishComplete g) := event rfl
theorem monarm (rd : BitVec 6) (rs1 : BitVec 6) : Statement (.monarm rd rs1) := fun _ => encR_bit0 _ _ _ _ _
theorem monwait (rd : BitVec 6) (rs1 : BitVec 6) : Statement (.monwait rd rs1) := fun _ => encR_bit0 _ _ _ _ _
theorem monclr (rs1 : BitVec 6) : Statement (.monclr rs1) := fun _ => encR_bit0 _ _ _ _ _
theorem monitorWake (g : Nat) (entry : Nat) : Statement (.monitorWake g entry) := event rfl
theorem monwaitTimeout (g : Nat) : Statement (.monwaitTimeout g) := event rfl
theorem barcfg (rs1 : BitVec 6) (rs2 : BitVec 6) (ctx : BitVec 2) : Statement (.barcfg rs1 rs2 ctx) := fun _ => encR_bit0 _ _ _ _ _
theorem bararr (ctx : BitVec 2) : Statement (.bararr ctx) := fun _ => encR_bit0 _ _ _ _ _
theorem barwait (ctx : BitVec 2) : Statement (.barwait ctx) := fun _ => encR_bit0 _ _ _ _ _
theorem bardrop (ctx : BitVec 2) : Statement (.bardrop ctx) := fun _ => encR_bit0 _ _ _ _ _
theorem barrierSignal (core : Nat) (ctx : Nat) (fromNorth : Bool) (desc : Nat) : Statement (.barrierSignal core ctx fromNorth desc) := event rfl
theorem barrierRelease (core : Nat) (ctx : Nat) (desc : Nat) : Statement (.barrierRelease core ctx desc) := event rfl
theorem spawn (rd : BitVec 6) (rs1 : BitVec 6) (rs2 : BitVec 6) : Statement (.spawn rd rs1 rs2) := fun _ => encR_bit0 _ _ _ _ _
theorem spawnW (rd : BitVec 6) (rs1 : BitVec 6) (rs2 : BitVec 6) : Statement (.spawnW rd rs1 rs2) := fun _ => encR_bit0 _ _ _ _ _
theorem doneTask : Statement (.doneTask) := fun _ => encR_bit0 _ _ _ _ _
theorem yield : Statement (.yield) := fun _ => encR_bit0 _ _ _ _ _
theorem suspend (rs1 : BitVec 6) : Statement (.suspend rs1) := fun _ => encR_bit0 _ _ _ _ _
theorem wake (rd : BitVec 6) (rs1 : BitVec 6) (rs2 : BitVec 6) : Statement (.wake rd rs1 rs2) := fun _ => encR_bit0 _ _ _ _ _
theorem rfork (rd : BitVec 6) (rs1 : BitVec 6) (rs2 : BitVec 6) : Statement (.rfork rd rs1 rs2) := fun _ => encR_bit0 _ _ _ _ _
theorem rforkSh (rd : BitVec 6) (rs2 : BitVec 6) : Statement (.rforkSh rd rs2) := fun _ => encR_bit0 _ _ _ _ _
theorem rhold (rd : BitVec 6) (rs1 : BitVec 6) : Statement (.rhold rd rs1) := fun _ => encR_bit0 _ _ _ _ _
theorem rdrop (rd : BitVec 6) (rs1 : BitVec 6) : Statement (.rdrop rd rs1) := fun _ => encR_bit0 _ _ _ _ _
theorem rcancel (rd : BitVec 6) (rs1 : BitVec 6) : Statement (.rcancel rd rs1) := fun _ => encR_bit0 _ _ _ _ _
theorem rretire (rd : BitVec 6) (rs1 : BitVec 6) : Statement (.rretire rd rs1) := fun _ => encR_bit0 _ _ _ _ _
theorem rstat (rd : BitVec 6) (rs1 : BitVec 6) (rs2 : BitVec 6) : Statement (.rstat rd rs1 rs2) := fun _ => encR_bit0 _ _ _ _ _
theorem msend (rs1 : BitVec 6) (rs2 : BitVec 6) (words : BitVec 2) : Statement (.msend rs1 rs2 words) := fun _ => encR_bit0 _ _ _ _ _
theorem mrecv (rd : BitVec 6) (rs1 : BitVec 6) : Statement (.mrecv rd rs1) := fun _ => encR_bit0 _ _ _ _ _
theorem mbind (rd : BitVec 6) (rs1 : BitVec 6) (rs2 : BitVec 6) : Statement (.mbind rd rs1 rs2) := fun _ => encR_bit0 _ _ _ _ _
theorem claim (rd : BitVec 6) (rs1 : BitVec 6) : Statement (.claim rd rs1) := fun _ => encR_bit0 _ _ _ _ _
theorem fulfil (rd : BitVec 6) (rs1 : BitVec 6) (rs2 : BitVec 6) : Statement (.fulfil rd rs1 rs2) := fun _ => encR_bit0 _ _ _ _ _
theorem abandon (rd : BitVec 6) (rs1 : BitVec 6) : Statement (.abandon rd rs1) := fun _ => encR_bit0 _ _ _ _ _
theorem lpin (rd : BitVec 6) (rs1 : BitVec 6) : Statement (.lpin rd rs1) := fun _ => encR_bit0 _ _ _ _ _
theorem lunpin (rd : BitVec 6) (rs1 : BitVec 6) : Statement (.lunpin rd rs1) := fun _ => encR_bit0 _ _ _ _ _
theorem linval (rd : BitVec 6) (rs1 : BitVec 6) : Statement (.linval rd rs1) := fun _ => encR_bit0 _ _ _ _ _
theorem larderDeferredEnqueue (part : Nat) : Statement (.larderDeferredEnqueue part) := event rfl
theorem hbind (rd : BitVec 6) (rs1 : BitVec 6) (rs2 : BitVec 6) : Statement (.hbind rd rs1 rs2) := fun _ => encR_bit0 _ _ _ _ _
theorem hstat (rd : BitVec 6) (rs1 : BitVec 6) : Statement (.hstat rd rs1) := fun _ => encR_bit0 _ _ _ _ _
theorem vclaim (rd : BitVec 6) (rs1 : BitVec 6) : Statement (.vclaim rd rs1) := fun _ => encR_bit0 _ _ _ _ _
theorem vyield : Statement (.vyield) := fun _ => encR_bit0 _ _ _ _ _
theorem vadd (vd : BitVec 5) (vs1 : BitVec 5) (vs2 : BitVec 5) (mk : BitVec 3) (et : BitVec 3) : Statement (.vadd vd vs1 vs2 mk et) := fun _ => encV_bit0 _ _ _ _ _ _ _
theorem vsub (vd : BitVec 5) (vs1 : BitVec 5) (vs2 : BitVec 5) (mk : BitVec 3) (et : BitVec 3) : Statement (.vsub vd vs1 vs2 mk et) := fun _ => encV_bit0 _ _ _ _ _ _ _
theorem vmul (vd : BitVec 5) (vs1 : BitVec 5) (vs2 : BitVec 5) (mk : BitVec 3) (et : BitVec 3) : Statement (.vmul vd vs1 vs2 mk et) := fun _ => encV_bit0 _ _ _ _ _ _ _
theorem vmin (vd : BitVec 5) (vs1 : BitVec 5) (vs2 : BitVec 5) (mk : BitVec 3) (et : BitVec 3) : Statement (.vmin vd vs1 vs2 mk et) := fun _ => encV_bit0 _ _ _ _ _ _ _
theorem vmax (vd : BitVec 5) (vs1 : BitVec 5) (vs2 : BitVec 5) (mk : BitVec 3) (et : BitVec 3) : Statement (.vmax vd vs1 vs2 mk et) := fun _ => encV_bit0 _ _ _ _ _ _ _
theorem vabs (vd : BitVec 5) (vs2 : BitVec 5) (mk : BitVec 3) (et : BitVec 3) : Statement (.vabs vd vs2 mk et) := fun _ => encV_bit0 _ _ _ _ _ _ _
theorem vneg (vd : BitVec 5) (vs2 : BitVec 5) (mk : BitVec 3) (et : BitVec 3) : Statement (.vneg vd vs2 mk et) := fun _ => encV_bit0 _ _ _ _ _ _ _
theorem vand (vd : BitVec 5) (vs1 : BitVec 5) (vs2 : BitVec 5) (mk : BitVec 3) (et : BitVec 3) : Statement (.vand vd vs1 vs2 mk et) := fun _ => encV_bit0 _ _ _ _ _ _ _
theorem vor (vd : BitVec 5) (vs1 : BitVec 5) (vs2 : BitVec 5) (mk : BitVec 3) (et : BitVec 3) : Statement (.vor vd vs1 vs2 mk et) := fun _ => encV_bit0 _ _ _ _ _ _ _
theorem vxor (vd : BitVec 5) (vs1 : BitVec 5) (vs2 : BitVec 5) (mk : BitVec 3) (et : BitVec 3) : Statement (.vxor vd vs1 vs2 mk et) := fun _ => encV_bit0 _ _ _ _ _ _ _
theorem vnot (vd : BitVec 5) (vs2 : BitVec 5) (mk : BitVec 3) (et : BitVec 3) : Statement (.vnot vd vs2 mk et) := fun _ => encV_bit0 _ _ _ _ _ _ _
theorem vshl (vd : BitVec 5) (vs1 : BitVec 5) (vs2 : BitVec 5) (mk : BitVec 3) (et : BitVec 3) : Statement (.vshl vd vs1 vs2 mk et) := fun _ => encV_bit0 _ _ _ _ _ _ _
theorem vshr (vd : BitVec 5) (vs1 : BitVec 5) (vs2 : BitVec 5) (mk : BitVec 3) (et : BitVec 3) : Statement (.vshr vd vs1 vs2 mk et) := fun _ => encV_bit0 _ _ _ _ _ _ _
theorem vsra (vd : BitVec 5) (vs1 : BitVec 5) (vs2 : BitVec 5) (mk : BitVec 3) (et : BitVec 3) : Statement (.vsra vd vs1 vs2 mk et) := fun _ => encV_bit0 _ _ _ _ _ _ _
theorem vsel (vd : BitVec 5) (vs1 : BitVec 5) (vs2 : BitVec 5) (mk : BitVec 3) (et : BitVec 3) : Statement (.vsel vd vs1 vs2 mk et) := fun _ => encV_bit0 _ _ _ _ _ _ _
theorem vmov (vd : BitVec 5) (vs2 : BitVec 5) (mk : BitVec 3) (et : BitVec 3) : Statement (.vmov vd vs2 mk et) := fun _ => encV_bit0 _ _ _ _ _ _ _
theorem vfadd (vd : BitVec 5) (vs1 : BitVec 5) (vs2 : BitVec 5) (mk : BitVec 3) (et : BitVec 3) (rm : BitVec 2) : Statement (.vfadd vd vs1 vs2 mk et rm) := fun _ => encV_bit0 _ _ _ _ _ _ _
theorem vfsub (vd : BitVec 5) (vs1 : BitVec 5) (vs2 : BitVec 5) (mk : BitVec 3) (et : BitVec 3) (rm : BitVec 2) : Statement (.vfsub vd vs1 vs2 mk et rm) := fun _ => encV_bit0 _ _ _ _ _ _ _
theorem vfmul (vd : BitVec 5) (vs1 : BitVec 5) (vs2 : BitVec 5) (mk : BitVec 3) (et : BitVec 3) (rm : BitVec 2) : Statement (.vfmul vd vs1 vs2 mk et rm) := fun _ => encV_bit0 _ _ _ _ _ _ _
theorem vfma (vd : BitVec 5) (vs1 : BitVec 5) (vs2 : BitVec 5) (mk : BitVec 3) (et : BitVec 3) (rm : BitVec 2) : Statement (.vfma vd vs1 vs2 mk et rm) := fun _ => encV_bit0 _ _ _ _ _ _ _
theorem vfms (vd : BitVec 5) (vs1 : BitVec 5) (vs2 : BitVec 5) (mk : BitVec 3) (et : BitVec 3) (rm : BitVec 2) : Statement (.vfms vd vs1 vs2 mk et rm) := fun _ => encV_bit0 _ _ _ _ _ _ _
theorem vcvt (vd : BitVec 5) (src : BitVec 3) (vs2 : BitVec 5) (mk : BitVec 3) (et : BitVec 3) (rm : BitVec 2) : Statement (.vcvt vd src vs2 mk et rm) := fun _ => encV_bit0 _ _ _ _ _ _ _
theorem vsqrt (vd : BitVec 5) (vs2 : BitVec 5) (mk : BitVec 3) (rm : BitVec 2) : Statement (.vsqrt vd vs2 mk rm) := fun _ => encV_bit0 _ _ _ _ _ _ _
theorem vrcp (vd : BitVec 5) (vs2 : BitVec 5) (mk : BitVec 3) (rm : BitVec 2) : Statement (.vrcp vd vs2 mk rm) := fun _ => encV_bit0 _ _ _ _ _ _ _
theorem vrsq (vd : BitVec 5) (vs2 : BitVec 5) (mk : BitVec 3) (rm : BitVec 2) : Statement (.vrsq vd vs2 mk rm) := fun _ => encV_bit0 _ _ _ _ _ _ _
theorem vexp2 (vd : BitVec 5) (vs2 : BitVec 5) (mk : BitVec 3) (rm : BitVec 2) : Statement (.vexp2 vd vs2 mk rm) := fun _ => encV_bit0 _ _ _ _ _ _ _
theorem vlog2 (vd : BitVec 5) (vs2 : BitVec 5) (mk : BitVec 3) (rm : BitVec 2) : Statement (.vlog2 vd vs2 mk rm) := fun _ => encV_bit0 _ _ _ _ _ _ _
theorem vcmp (vd : BitVec 3) (vs1 : BitVec 5) (vs2 : BitVec 5) (mk : BitVec 3) (et : BitVec 3) (cc : BitVec 2) : Statement (.vcmp vd vs1 vs2 mk et cc) := fun _ => encV_bit0 _ _ _ _ _ _ _
theorem vsplat (vd : BitVec 5) (vs1 : BitVec 5) (mk : BitVec 3) (et : BitVec 3) : Statement (.vsplat vd vs1 mk et) := fun _ => encV_bit0 _ _ _ _ _ _ _
theorem vextr (vd : BitVec 5) (vs1 : BitVec 5) (vs2 : BitVec 5) (mk : BitVec 3) (et : BitVec 3) : Statement (.vextr vd vs1 vs2 mk et) := fun _ => encV_bit0 _ _ _ _ _ _ _
theorem viota (vd : BitVec 5) (mk : BitVec 3) (et : BitVec 3) : Statement (.viota vd mk et) := fun _ => encV_bit0 _ _ _ _ _ _ _
theorem vred (vd : BitVec 5) (op : BitVec 5) (vs2 : BitVec 5) (mk : BitVec 3) (et : BitVec 3) : Statement (.vred vd op vs2 mk et) := fun _ => encV_bit0 _ _ _ _ _ _ _
theorem vscan (vd : BitVec 5) (op : BitVec 5) (vs2 : BitVec 5) (mk : BitVec 3) (et : BitVec 3) : Statement (.vscan vd op vs2 mk et) := fun _ => encV_bit0 _ _ _ _ _ _ _
theorem vperm (vd : BitVec 5) (vs1 : BitVec 5) (vs2 : BitVec 5) (mk : BitVec 3) : Statement (.vperm vd vs1 vs2 mk) := fun _ => encV_bit0 _ _ _ _ _ _ _
theorem vslide (vd : BitVec 5) (vs1 : BitVec 5) (vs2 : BitVec 5) (mk : BitVec 3) : Statement (.vslide vd vs1 vs2 mk) := fun _ => encV_bit0 _ _ _ _ _ _ _
theorem mand (vd : BitVec 3) (vs1 : BitVec 3) (vs2 : BitVec 3) : Statement (.mand vd vs1 vs2) := fun _ => encV_bit0 _ _ _ _ _ _ _
theorem mor (vd : BitVec 3) (vs1 : BitVec 3) (vs2 : BitVec 3) : Statement (.mor vd vs1 vs2) := fun _ => encV_bit0 _ _ _ _ _ _ _
theorem mnot (vd : BitVec 3) (vs2 : BitVec 3) : Statement (.mnot vd vs2) := fun _ => encV_bit0 _ _ _ _ _ _ _
theorem mpop (vd : BitVec 5) (vs2 : BitVec 3) : Statement (.mpop vd vs2) := fun _ => encV_bit0 _ _ _ _ _ _ _
theorem mfirst (vd : BitVec 5) (vs2 : BitVec 3) : Statement (.mfirst vd vs2) := fun _ => encV_bit0 _ _ _ _ _ _ _
theorem vld (vd : BitVec 5) (rs1 : BitVec 6) (sz : BitVec 2) (mk : BitVec 3) : Statement (.vld vd rs1 sz mk) := fun _ => encVM_bit0 _ _ _ _ _ _ _ _
theorem vst (vd : BitVec 5) (rs1 : BitVec 6) (sz : BitVec 2) (mk : BitVec 3) : Statement (.vst vd rs1 sz mk) := fun _ => encVM_bit0 _ _ _ _ _ _ _ _
theorem vlds (vd : BitVec 5) (rs1 : BitVec 6) (xs : BitVec 6) (sz : BitVec 2) (mk : BitVec 3) : Statement (.vlds vd rs1 xs sz mk) := fun _ => encVM_bit0 _ _ _ _ _ _ _ _
theorem vsts (vd : BitVec 5) (rs1 : BitVec 6) (xs : BitVec 6) (sz : BitVec 2) (mk : BitVec 3) : Statement (.vsts vd rs1 xs sz mk) := fun _ => encVM_bit0 _ _ _ _ _ _ _ _
theorem vgath (vd : BitVec 5) (rs1 : BitVec 6) (vs2 : BitVec 5) (sz : BitVec 2) (mk : BitVec 3) : Statement (.vgath vd rs1 vs2 sz mk) := fun _ => encVM_bit0 _ _ _ _ _ _ _ _
theorem vscat (vd : BitVec 5) (rs1 : BitVec 6) (vs2 : BitVec 5) (sz : BitVec 2) (mk : BitVec 3) : Statement (.vscat vd rs1 vs2 sz mk) := fun _ => encVM_bit0 _ _ _ _ _ _ _ _
theorem vldl (vd : BitVec 5) (rs1 : BitVec 6) (sz : BitVec 2) (mk : BitVec 3) : Statement (.vldl vd rs1 sz mk) := fun _ => encVM_bit0 _ _ _ _ _ _ _ _
theorem vstl (vd : BitVec 5) (rs1 : BitVec 6) (sz : BitVec 2) (mk : BitVec 3) : Statement (.vstl vd rs1 sz mk) := fun _ => encVM_bit0 _ _ _ _ _ _ _ _
theorem vadd16 (vd : BitVec 5) (vs2 : BitVec 5) : Statement (.vadd16 vd vs2) := fun _ => enc16_bit0 _ _ _
theorem vsub16 (vd : BitVec 5) (vs2 : BitVec 5) : Statement (.vsub16 vd vs2) := fun _ => enc16_bit0 _ _ _
theorem vmul16 (vd : BitVec 5) (vs2 : BitVec 5) : Statement (.vmul16 vd vs2) := fun _ => enc16_bit0 _ _ _
theorem vmin16 (vd : BitVec 5) (vs2 : BitVec 5) : Statement (.vmin16 vd vs2) := fun _ => enc16_bit0 _ _ _
theorem vmax16 (vd : BitVec 5) (vs2 : BitVec 5) : Statement (.vmax16 vd vs2) := fun _ => enc16_bit0 _ _ _
theorem vabs16 (vd : BitVec 5) (vs2 : BitVec 5) : Statement (.vabs16 vd vs2) := fun _ => enc16_bit0 _ _ _
theorem vneg16 (vd : BitVec 5) (vs2 : BitVec 5) : Statement (.vneg16 vd vs2) := fun _ => enc16_bit0 _ _ _
theorem vand16 (vd : BitVec 5) (vs2 : BitVec 5) : Statement (.vand16 vd vs2) := fun _ => enc16_bit0 _ _ _
theorem vor16 (vd : BitVec 5) (vs2 : BitVec 5) : Statement (.vor16 vd vs2) := fun _ => enc16_bit0 _ _ _
theorem vxor16 (vd : BitVec 5) (vs2 : BitVec 5) : Statement (.vxor16 vd vs2) := fun _ => enc16_bit0 _ _ _
theorem vnot16 (vd : BitVec 5) (vs2 : BitVec 5) : Statement (.vnot16 vd vs2) := fun _ => enc16_bit0 _ _ _
theorem vshl16 (vd : BitVec 5) (vs2 : BitVec 5) : Statement (.vshl16 vd vs2) := fun _ => enc16_bit0 _ _ _
theorem vshr16 (vd : BitVec 5) (vs2 : BitVec 5) : Statement (.vshr16 vd vs2) := fun _ => enc16_bit0 _ _ _
theorem vsra16 (vd : BitVec 5) (vs2 : BitVec 5) : Statement (.vsra16 vd vs2) := fun _ => enc16_bit0 _ _ _
theorem vmov16 (vd : BitVec 5) (vs2 : BitVec 5) : Statement (.vmov16 vd vs2) := fun _ => enc16_bit0 _ _ _
theorem vrcp16 (vd : BitVec 5) (vs2 : BitVec 5) : Statement (.vrcp16 vd vs2) := fun _ => enc16_bit0 _ _ _
theorem mcfgShape (rs1 : BitVec 6) : Statement (.mcfgShape rs1) := fun _ => encR_bit0 _ _ _ _ _
theorem mcfgFmt (rs1 : BitVec 6) : Statement (.mcfgFmt rs1) := fun _ => encR_bit0 _ _ _ _ _
theorem mcfgA (rs1 : BitVec 6) (rs2 : BitVec 6) : Statement (.mcfgA rs1 rs2) := fun _ => encR_bit0 _ _ _ _ _
theorem mcfgB (rs1 : BitVec 6) (rs2 : BitVec 6) : Statement (.mcfgB rs1 rs2) := fun _ => encR_bit0 _ _ _ _ _
theorem mma : Statement (.mma) := fun _ => encR_bit0 _ _ _ _ _
theorem mmaZ : Statement (.mmaZ) := fun _ => encR_bit0 _ _ _ _ _
theorem mzero (rs1 : BitVec 6) : Statement (.mzero rs1) := fun _ => encR_bit0 _ _ _ _ _
theorem mload (rs1 : BitVec 6) (rs2 : BitVec 6) : Statement (.mload rs1 rs2) := fun _ => encR_bit0 _ _ _ _ _
theorem mstore (rd : BitVec 6) (rs1 : BitVec 6) (rs2 : BitVec 6) (rm : BitVec 2) : Statement (.mstore rd rs1 rs2 rm) := fun _ => encR_bit0 _ _ _ _ _
theorem mscale (rs1 : BitVec 6) (rs2 : BitVec 6) : Statement (.mscale rs1 rs2) := fun _ => encR_bit0 _ _ _ _ _
theorem mcell (rs1 : BitVec 6) : Statement (.mcell rs1) := fun _ => encR_bit0 _ _ _ _ _
theorem ksel (rd : BitVec 6) (rs1 : BitVec 6) (rs2 : BitVec 6) : Statement (.ksel rd rs1 rs2) := fun _ => encR_bit0 _ _ _ _ _
theorem kgather (rs1 : BitVec 6) : Statement (.kgather rs1) := fun _ => encR_bit0 _ _ _ _ _
theorem ksreset (rs1 : BitVec 6) : Statement (.ksreset rs1) := fun _ => encR_bit0 _ _ _ _ _
theorem drawG (rd : BitVec 6) (rs1 : BitVec 6) : Statement (.drawG rd rs1) := fun _ => encR_bit0 _ _ _ _ _
theorem drawS (rd : BitVec 6) (rs1 : BitVec 6) : Statement (.drawS rd rs1) := fun _ => encR_bit0 _ _ _ _ _
theorem drawV (rd : BitVec 6) (rs1 : BitVec 6) (rs2 : BitVec 6) : Statement (.drawV rd rs1 rs2) := fun _ => encR_bit0 _ _ _ _ _
theorem matrixOpComplete (g : Nat) : Statement (.matrixOpComplete g) := event rfl
theorem csrr (rd : BitVec 6) (csr : BitVec 11) : Statement (.csrr rd csr) := fun _ => encC_bit0 _ _ _ _ _
theorem csrw (rd : BitVec 6) (rs1 : BitVec 6) (csr : BitVec 11) : Statement (.csrw rd rs1 csr) := fun _ => encC_bit0 _ _ _ _ _
theorem csrset (rd : BitVec 6) (rs1 : BitVec 6) (csr : BitVec 11) : Statement (.csrset rd rs1 csr) := fun _ => encC_bit0 _ _ _ _ _
theorem csrclr (rd : BitVec 6) (rs1 : BitVec 6) (csr : BitVec 11) : Statement (.csrclr rd rs1 csr) := fun _ => encC_bit0 _ _ _ _ _
theorem nop : Statement (.nop) := fun _ => encR_bit0 _ _ _ _ _
theorem tret : Statement (.tret) := fun _ => encR_bit0 _ _ _ _ _
theorem brk : Statement (.brk) := fun _ => encR_bit0 _ _ _ _ _
theorem eret : Statement (.eret) := fun _ => encR_bit0 _ _ _ _ _
theorem rqenq (rd : BitVec 6) (rs1 : BitVec 6) (rs2 : BitVec 6) : Statement (.rqenq rd rs1 rs2) := fun _ => encR_bit0 _ _ _ _ _
theorem rqdeq (rd : BitVec 6) (rs1 : BitVec 6) (rs2 : BitVec 6) : Statement (.rqdeq rd rs1 rs2) := fun _ => encR_bit0 _ _ _ _ _
theorem slotctlQuery (rd : BitVec 6) (rs1 : BitVec 6) (rs2 : BitVec 6) : Statement (.slotctlQuery rd rs1 rs2) := fun _ => encR_bit0 _ _ _ _ _
theorem slotctlStart (rd : BitVec 6) (rs1 : BitVec 6) (rs2 : BitVec 6) : Statement (.slotctlStart rd rs1 rs2) := fun _ => encR_bit0 _ _ _ _ _
theorem slotctlPreempt (rd : BitVec 6) (rs1 : BitVec 6) (rs2 : BitVec 6) : Statement (.slotctlPreempt rd rs1 rs2) := fun _ => encR_bit0 _ _ _ _ _
theorem slotctlResume (rd : BitVec 6) (rs1 : BitVec 6) (rs2 : BitVec 6) : Statement (.slotctlResume rd rs1 rs2) := fun _ => encR_bit0 _ _ _ _ _
theorem slotctlKill (rd : BitVec 6) (rs1 : BitVec 6) (rs2 : BitVec 6) : Statement (.slotctlKill rd rs1 rs2) := fun _ => encR_bit0 _ _ _ _ _
theorem slotctlCopystop (rd : BitVec 6) (rs1 : BitVec 6) (rs2 : BitVec 6) : Statement (.slotctlCopystop rd rs1 rs2) := fun _ => encR_bit0 _ _ _ _ _
theorem slotctlRelease (rd : BitVec 6) (rs1 : BitVec 6) (rs2 : BitVec 6) : Statement (.slotctlRelease rd rs1 rs2) := fun _ => encR_bit0 _ _ _ _ _
theorem closave (rd : BitVec 6) (rs1 : BitVec 6) (rs2 : BitVec 6) : Statement (.closave rd rs1 rs2) := fun _ => encR_bit0 _ _ _ _ _
theorem clorest (rd : BitVec 6) (rs1 : BitVec 6) : Statement (.clorest rd rs1) := fun _ => encR_bit0 _ _ _ _ _
theorem tlbinv (rs1 : BitVec 6) (rs2 : BitVec 6) : Statement (.tlbinv rs1 rs2) := fun _ => encR_bit0 _ _ _ _ _
theorem cflushLine (rs1 : BitVec 6) (rs2 : BitVec 6) : Statement (.cflushLine rs1 rs2) := fun _ => encR_bit0 _ _ _ _ _
theorem cflushWriteback (rs1 : BitVec 6) (rs2 : BitVec 6) : Statement (.cflushWriteback rs1 rs2) := fun _ => encR_bit0 _ _ _ _ _
theorem cflushAll (rs1 : BitVec 6) (rs2 : BitVec 6) : Statement (.cflushAll rs1 rs2) := fun _ => encR_bit0 _ _ _ _ _
theorem halt : Statement (.halt) := fun _ => encR_bit0 _ _ _ _ _
theorem trapImm (imm : BitVec 13) : Statement (.trapImm imm) := fun _ => encI_bit0 _ _ _ _
theorem takeAsyncTrap (g : Nat) : Statement (.takeAsyncTrap g) := event rfl
theorem budgetExpiry (g : Nat) : Statement (.budgetExpiry g) := event rfl
theorem timercmpExpiry (core : Nat) : Statement (.timercmpExpiry core) := event rfl
theorem loadComplete (g : Nat) (data : BitVec 128) (code : Nat) : Statement (.loadComplete g data code) := event rfl
theorem atomicComplete (g : Nat) (data : Word) (code : Nat) : Statement (.atomicComplete g data code) := event rfl
theorem dispatch (core : Nat) : Statement (.dispatch core) := event rfl
theorem resumeContext (core : Nat) : Statement (.resumeContext core) := event rfl
theorem timerPreemption (core : Nat) : Statement (.timerPreemption core) := event rfl
theorem demandPreemption (core : Nat) : Statement (.demandPreemption core) := event rfl
theorem ringMove (queue : Nat) (level : Nat) : Statement (.ringMove queue level) := event rfl
theorem launchQueueWrite (die : Nat) (part : Nat) (offset : Nat) (data : List Byte) : Statement (.launchQueueWrite die part offset data) := event rfl
theorem launchAccept (die : Nat) (part : Nat) : Statement (.launchAccept die part) := event rfl
theorem requestExpiry (rtag : Nat) : Statement (.requestExpiry rtag) := event rfl
theorem annulNoticeArrival (die : Nat) (rtag : Nat) : Statement (.annulNoticeArrival die rtag) := event rfl
theorem slotAnnul (g : Nat) : Statement (.slotAnnul g) := event rfl
theorem annulAckArrival (rtag : Nat) (die : Nat) : Statement (.annulAckArrival rtag die) := event rfl
theorem peerWorkArrival (work : PeerWork) : Statement (.peerWorkArrival work) := event rfl
theorem peerCancelNotice (dev : Nat) (rtag : Nat) : Statement (.peerCancelNotice dev rtag) := event rfl
theorem drainMarker (dev : Nat) (rtag : Nat) : Statement (.drainMarker dev rtag) := event rfl
theorem drainAck (rtag : Nat) (peer : Nat) : Statement (.drainAck rtag peer) := event rfl
theorem noproxyResend (g : Nat) : Statement (.noproxyResend g) := event rfl
theorem messageArrival (core : Nat) (cls : Nat) (msg : Msg) : Statement (.messageArrival core cls msg) := event rfl
theorem freeSlotNotice (core : Nat) : Statement (.freeSlotNotice core) := event rfl
theorem copyLinear (core : Nat) (hatch : Nat) : Statement (.copyLinear core hatch) := event rfl
theorem copyStrided (core : Nat) (hatch : Nat) : Statement (.copyStrided core hatch) := event rfl
theorem copyGather (core : Nat) (hatch : Nat) : Statement (.copyGather core hatch) := event rfl
theorem copyScatter (core : Nat) (hatch : Nat) : Statement (.copyScatter core hatch) := event rfl
theorem copyResume (core : Nat) (hatch : Nat) : Statement (.copyResume core hatch) := event rfl
theorem collGroup (core : Nat) (hatch : Nat) : Statement (.collGroup core hatch) := event rfl
theorem collAllreduce (core : Nat) (hatch : Nat) : Statement (.collAllreduce core hatch) := event rfl
theorem collAllgather (core : Nat) (hatch : Nat) : Statement (.collAllgather core hatch) := event rfl
theorem collRedscat (core : Nat) (hatch : Nat) : Statement (.collRedscat core hatch) := event rfl
theorem collBcast (core : Nat) (hatch : Nat) : Statement (.collBcast core hatch) := event rfl
theorem cellarRead (core : Nat) (hatch : Nat) : Statement (.cellarRead core hatch) := event rfl
theorem cellarWrite (core : Nat) (hatch : Nat) : Statement (.cellarWrite core hatch) := event rfl
theorem stairSend (core : Nat) (hatch : Nat) : Statement (.stairSend core hatch) := event rfl
theorem stairReset (core : Nat) (hatch : Nat) : Statement (.stairReset core hatch) := event rfl
theorem stairBuf (core : Nat) (hatch : Nat) : Statement (.stairBuf core hatch) := event rfl
theorem stairFree (core : Nat) (hatch : Nat) : Statement (.stairFree core hatch) := event rfl
theorem stairRecordArrival (dir : Nat) : Statement (.stairRecordArrival dir) := event rfl
theorem stairResetArrival (dir : Nat) (number : Nat) : Statement (.stairResetArrival dir number) := event rfl
theorem commandCompletion (id : Nat) : Statement (.commandCompletion id) := event rfl
theorem nvmeCompletion (id : Nat) (status : Nat) (data : List Byte) : Statement (.nvmeCompletion id status data) := event rfl
theorem walkComplete (g : Nat) : Statement (.walkComplete g) := event rfl
theorem dirtyLogMerge (core : Nat) : Statement (.dirtyLogMerge core) := event rfl
theorem dharvestGo (cluster : Nat) : Statement (.dharvestGo cluster) := event rfl
theorem fbheadRead (die : Nat) : Statement (.fbheadRead die) := event rfl
theorem fbrespRetry (die : Nat) (index : Nat) : Statement (.fbrespRetry die index) := event rfl
theorem fbrespFailXlate (die : Nat) (index : Nat) : Statement (.fbrespFailXlate die index) := event rfl
theorem fbrespFailPerm (die : Nat) (index : Nat) : Statement (.fbrespFailPerm die index) := event rfl
theorem clustctlDrain (cluster : Nat) : Statement (.clustctlDrain cluster) := event rfl
theorem clustctlAssign (cluster : Nat) (part : Nat) : Statement (.clustctlAssign cluster part) := event rfl
theorem rtfreeWrite (die : Nat) (value : Word) : Statement (.rtfreeWrite die value) := event rfl
theorem dqctlWrite (die : Nat) (part : Nat) (value : Word) : Statement (.dqctlWrite die part value) := event rfl
theorem ringdWrite (queue : Nat) (level : Nat) (value : Word) : Statement (.ringdWrite queue level value) := event rfl
theorem ffpoolWrite (die : Nat) (part : Nat) (value : Word) : Statement (.ffpoolWrite die part value) := event rfl
theorem fftailWrite (die : Nat) (part : Nat) (value : Word) : Statement (.fftailWrite die part value) := event rfl
theorem walkshareWrite (cluster : Nat) (part : Nat) (value : Word) : Statement (.walkshareWrite cluster part value) := event rfl
theorem tilecapWrite (tile : Nat) (value : Word) : Statement (.tilecapWrite tile value) := event rfl
theorem statusSchedWrite (g : Nat) (value : Bool) : Statement (.statusSchedWrite g value) := event rfl
theorem timercmpWrite (core : Nat) (value : Word) : Statement (.timercmpWrite core value) := event rfl
theorem lmsplitWrite (core : Nat) (value : Word) : Statement (.lmsplitWrite core value) := event rfl
theorem lmshareWrite (core : Nat) (value : Word) : Statement (.lmshareWrite core value) := event rfl
theorem lmgroupWrite (tile : Nat) (value : Word) : Statement (.lmgroupWrite tile value) := event rfl
theorem dsplitWrite (die : Nat) (value : Word) : Statement (.dsplitWrite die value) := event rfl
theorem vgrantWrite (g : Nat) (value : Word) : Statement (.vgrantWrite g value) := event rfl
theorem freqreqWrite (core : Nat) (value : Word) : Statement (.freqreqWrite core value) := event rfl
theorem featmaskWrite (core : Nat) (value : Word) : Statement (.featmaskWrite core value) := event rfl
theorem budgetleftWrite (g : Nat) (value : Word) : Statement (.budgetleftWrite g value) := event rfl
theorem registerWrite (addr : Nat) (value : Word) : Statement (.registerWrite addr value) := event rfl
theorem dvfsStep (tile : Nat) : Statement (.dvfsStep tile) := event rfl
theorem powerPeriod (reading : PowerReading) : Statement (.powerPeriod reading) := event rfl
theorem timeSync (offset : Int) (route : Bool) : Statement (.timeSync offset route) := event rfl
theorem linkFailure (port : Nat) : Statement (.linkFailure port) := event rfl
theorem atsInvalidation (page : Nat) : Statement (.atsInvalidation page) := event rfl
theorem hostMemAccess (write : Bool) (addr : Nat) (data : List Byte) : Statement (.hostMemAccess write addr data) := event rfl
theorem driveTimeout (port : Nat) : Statement (.driveTimeout port) := event rfl
theorem driveLinkDown (port : Nat) : Statement (.driveLinkDown port) := event rfl
theorem deviceReset : Statement (.deviceReset) := event rfl
theorem romSelfCheck (ok : Bool) : Statement (.romSelfCheck ok) := event rfl
theorem firmwareVerify : Statement (.firmwareVerify) := event rfl
theorem calibration (found : Calibration) : Statement (.calibration found) := event rfl
theorem memoryInit (ok : List Bool) : Statement (.memoryInit ok) := event rfl
theorem firmwareConfig (ok : Bool) (ptm : Word) (writes : List (Nat × Word)) : Statement (.firmwareConfig ok ptm writes) := event rfl
theorem setReady : Statement (.setReady) := event rfl
theorem firmwareDelivery (image : Image) : Statement (.firmwareDelivery image) := event rfl
theorem rollbackRaise (counter : Nat) : Statement (.rollbackRaise counter) := event rfl
theorem getVersion : Statement (.getVersion) := event rfl
theorem getCapabilities : Statement (.getCapabilities) := event rfl
theorem negotiateAlgorithms (sha256 : Bool) (slhDsa : Bool) : Statement (.negotiateAlgorithms sha256 slhDsa) := event rfl
theorem getDigests : Statement (.getDigests) := event rfl
theorem getCertificate (offset : Nat) (length : Nat) : Statement (.getCertificate offset length) := event rfl
theorem getMeasurements (index : Nat) (signed : Bool) (nonce : List Byte) : Statement (.getMeasurements index signed nonce) := event rfl
theorem illegalOp (g : Nat) (encoding : Word) : Statement (.illegalOp g encoding) := event rfl
theorem fetchFault (g : Nat) : Statement (.fetchFault g) := event rfl
theorem preemptionComplete (core : Nat) : Statement (.preemptionComplete core) := event rfl
theorem dieToDieLinkFailure (stair : Nat) : Statement (.dieToDieLinkFailure stair) := event rfl
theorem driveControllerReady (port : Nat) : Statement (.driveControllerReady port) := event rfl
theorem harvestComplete (cluster : Nat) : Statement (.harvestComplete cluster) := event rfl

end Sys2Proof.Laws.Framing
end

