-- ==== Sys2Proof/Tests/Slice0.lean ====
section
/-! SUPPORT. Small checks of the model: an ill-formed term for each check of WellFormed, instruction words written out from the manual's encodings,
single steps on small states with results from the manual's examples or by hand, and for each statement's hypotheses a concrete state and operands
that meet them. -/

namespace Sys2Proof.Tests
open Sys2Proof.Machine

set_option Elab.async false

/-! Helpers. A `witness_` theorem evaluates the hypotheses of a statement in order, on a concrete state; where it ends in `answers` or `leaves` it
evaluates the conclusion too. -/

def all (l : List Bool) : Bool := l.all id

/-- The value and state of a part that goes on. -/
def goes {α : Type} (r : Res α) : Option (α × State) :=
  match r with
  | .go a s => some (a, s)
  | .stop _ => none

/-- The state of a part that ends the instruction. -/
def stops {α : Type} (r : Res α) : Option State :=
  match r with
  | .go _ _ => none
  | .stop s => some s

def next (o : Out) : Option State :=
  match o with
  | .next s => some s
  | _ => none

/-- `i` issues in `s` with the values `vs`: the state issued. -/
def issues (i : Instr) (s : State) (vs : List Word) : Option State :=
  match needs i s.mine with
  | some k => match issue i k s with
    | .go v s1 => if v = vs then some s1 else none
    | .stop _ => none
  | none => none

theorem issued_of_issues {i : Instr} {s s1 : State} {vs : List Word} (h : issues i s vs = some s1) : Issued i s vs s1 := by
  unfold issues at h
  split at h
  · rename_i k hk
    split at h
    · rename_i v t ht
      split at h
      · rename_i hv; injection h with h; exact ⟨k, hk, by rw [ht, hv, h]⟩
      · cases h
    · cases h
  · cases h

/-- The result `v` can be written: the state then. -/
def writes (s0 s : State) (rd : RegField) (v : Word) : Option State := (goes (writeRd s0 s rd v)).map (fun r => r.2)

/-- The result `v` can be written, and `i` answers it. -/
def answers (i : Instr) (s s1 s2 : State) (rd : RegField) (v : Word) : Bool :=
  match writeRd s1 s2 rd v with
  | .go _ s3 => decide (next (exec i s) = some (advance s3 4))
  | .stop _ => false

/-- `i` leaves exactly the state `t`. -/
def leaves (i : Instr) (s t : State) : Bool := decide (next (exec i s) = some t)

/-- What `i` leaves satisfies `f`. -/
def gives (i : Instr) (s : State) (f : State → Bool) : Bool := (next (exec i s)).any f

/-- A TLB entry of a 64 KB page at a page number, to the frame of the same number, with a leaf word. -/
def page (n : Nat) (leaf : Word) (ext : Word := 0) : TlbEntry :=
  { asid := 0, base := 65536 * n, log2 := 16, pa := 65536 * n, leaf := leaf, ext := ext, logged := true }

/-- Pages 0 cached, 1 uncached, 2 tagged, 3 summarised (its records in frame 4), all readable, writable, executable and open to user mode. -/
def pages : List TlbEntry := [page 0 0x7F, page 1 0x47F, page 2 0x87F, page 3 0x107F (wd (2 ^ 63 + 0x40000))]

/-- A running device: slot 0 of core 0 in user mode, with the registers given; a second slot is occupied too. -/
def user (xs : List (Nat × Word)) : State :=
  { State.reset with
    ready := true, stage := 6
    cores := [(0, { tlb := pages })]
    slots := [(0, xs.foldl (fun t x => t.setX x.1 x.2) { state := .ready, pc := 0x100 }), (1, { state := .ready, pc := 0x200 })] }

/-- The same in supervisor mode. -/
def sup (xs : List (Nat × Word)) : State := (user xs).modSlot 0 (fun t => { t with mode := true })

/-- The same, with a grant of 16 lanes and all of them in VL, and every unit of the core enabled. -/
def vec (xs : List (Nat × Word)) : State :=
  ((user xs).modSlot 0 (fun t => { t with grant := 16, vl := 16 })).modCore 0 (fun k => { k with featmask := 3 })

/-! WellFormed: an ill-formed term for each check, and the same term well formed. -/

theorem smoke_fields : all [
    !wellFormed (.add 48 1 2), !wellFormed (.add 1 48 2), !wellFormed (.add 1 2 63), wellFormed (.add 47 32 31),
    !wellFormed (.addi 48 1 0), !wellFormed (.cbz 48 0), !wellFormed (.jalr 1 48 0), !wellFormed (.stN8 0 1 48),
    !wellFormed (.insF 32 1 0 0), wellFormed (.insF 31 32 0 0), !wellFormed (.cas 32 1 2 0 0), wellFormed (.cas 31 1 2 0 0),
    !wellFormed (.ldx 3 1 0), !wellFormed (.ldx 32 1 0), wellFormed (.ldx 30 1 0), !wellFormed (.stx 0 1 7), wellFormed (.stx 0 1 0),
    !wellFormed (.claim 6 4), !wellFormed (.claim 2 3), wellFormed (.claim 4 30), !wellFormed (.lpin 1 33),
    !wellFormed (.msend 1 31 1), wellFormed (.msend 1 28 3), !wellFormed (.mrecv 0 1), !wellFormed (.mrecv 28 1), wellFormed (.mrecv 27 1)] = true := by
  decide +kernel

theorem smoke_values : all [
    !wellFormed (.extS 1 2 63 1), wellFormed (.extS 1 2 63 0), !wellFormed (.extn 1 2 1 63), !wellFormed (.insF 1 2 32 32),
    !wellFormed (.cmp 1 2 3 6), wellFormed (.cmp 1 2 3 5), !wellFormed (.cmpi 1 7 2 0), !wellFormed (.amo32 1 2 3 0 9), wellFormed (.amo64 1 2 3 6 8),
    !wellFormed (.amo64 1 2 3 7 0), !wellFormed (.red32 1 2 0 8), wellFormed (.red64 1 2 0 7), !wellFormed (.fred 1 2 7 0), !wellFormed (.cas 1 2 3 7 0),
    !wellFormed (.phase 0 0), !wellFormed (.phase 3 1), wellFormed (.phase 2 3), !wellFormed (.vadd 1 2 3 0 5), wellFormed (.vadd 1 2 3 0 4),
    !wellFormed (.vfadd 1 2 3 0 4 0), wellFormed (.vfadd 1 2 3 0 5 0), !wellFormed (.vred 1 6 2 0 0), wellFormed (.vscan 1 5 2 0 0),
    !wellFormed (.vld 1 2 3 0), !wellFormed (.vsts 1 2 48 0 0), !wellFormed (.csrr 1 9), wellFormed (.csrr 1 8), !wellFormed (.csrw 1 2 0x035),
    !wellFormed (.csrset 1 2 0x04E), wellFormed (.csrclr 1 2 0x04D), !wellFormed (.monitorWake 0 4), !wellFormed (.slotAnnul 32768),
    !wellFormed (.dispatch 2048), !wellFormed (.launchAccept 4 0), !wellFormed (.launchAccept 0 16), !wellFormed (.ringMove 2176 0),
    !wellFormed (.requestExpiry 262144), !wellFormed (.copyLinear 0 16), !wellFormed (.stairRecordArrival 8), !wellFormed (.dharvestGo 64),
    !wellFormed (.tilecapWrite 512 0), !wellFormed (.linkFailure 12), !wellFormed (.driveTimeout 8)] = true := by
  decide +kernel

/-! Decoding: words written out field by field from the encodings of R141-R158, the highest field first. -/

/-- The word's fields, highest first, decode to `i`, and `i` encodes to them. -/
def reads (w : BitVec 32) (i : Instr) : Bool := decide (decode32 w = some i) && decide (word32 i = w)

theorem test_decode_scalar : all [
    reads (0#7 ++ 5#6 ++ 4#6 ++ 3#6 ++ 1#6 ++ 1#1) (.add 3 4 5), reads (1#7 ++ 5#6 ++ 4#6 ++ 3#6 ++ 1#6 ++ 1#1) (.sub 3 4 5),
    reads (0x1FFF#13 ++ 4#6 ++ 3#6 ++ 2#6 ++ 1#1) (.addi 3 4 0x1FFF), reads (7#6 ++ 0#1 ++ 4#6 ++ 5#6 ++ 4#6 ++ 7#6 ++ 1#1) (.extS 4 5 4 7),
    reads (7#6 ++ 1#1 ++ 4#6 ++ 5#6 ++ 4#6 ++ 7#6 ++ 1#1) (.extn 4 5 4 7), reads (0x40005#19 ++ 9#6 ++ 9#6 ++ 1#1) (.lih 9 0x40005),
    reads (0#4 ++ 2#3 ++ 5#6 ++ 4#6 ++ 0#3 ++ 3#3 ++ 11#6 ++ 1#1) (.cmp 3 4 5 2), reads (64#13 ++ 6#6 ++ 2#3 ++ 1#3 ++ 12#6 ++ 1#1) (.cmpi 1 2 6 64),
    reads (0x1FFA#13 ++ 9#6 ++ 0#3 ++ 3#3 ++ 14#6 ++ 1#1) (.cbnz 9 0x1FFA), reads (512#19 ++ 1#6 ++ 15#6 ++ 1#1) (.jal 1 512),
    decodeTableWord 32 0x00C043AF == some (.ldD64 7 2 24), decodeTableWord 32 0x00488835 == some (.stN32 16 4 9),
    decodeTableWord 32 0x00000001 == none, decodeTableWord 32 0x0800209F == some (.jal 1 0x04001)] = true := by
  decide +kernel

theorem test_decode_memory_and_system : all [
    decodeTableWord 32 0x020101CB == some (.ldtake 3 8), decodeTableWord 32 0x0438C2C1 == some (.amo64 5 6 7 2 0),
    decodeTableWord 32 0x8828804D == some (.barcfg 4 5 1), decodeTableWord 32 0x025941CF == some (.spawnW 3 10 11),
    decodeTableWord 32 0x5A19204F == some (.msend 9 3 1), decodeTableWord 32 0x7000C14F == some (.claim 2 6),
    decodeTableWord 32 0x00014339 == some (.ldx 6 10 0), decodeTableWord 32 0x0061403B == some (.stx 0 10 12),
    decodeTableWord 32 0x00280A5F == some (.csrr 20 5), decodeTableWord 32 0x8041205F == some (.csrset 0 9 8),
    decodeTableWord 32 0x02000061 == some .tret, decodeTableWord 32 0x04000061 == some .brk, decodeTableWord 32 0x0AAA85E1 == some (.rqdeq 11 20 21),
    decodeTableWord 32 0x0E91EBE1 == some (.closave 23 15 18), decodeTableWord 32 0x100245E1 == some (.clorest 11 18)] = true := by
  decide +kernel

theorem test_decode_vector_and_units : all [
    decodeTableWord 16 0x48C2 == some (.vadd16 3 9), decodeTableWord 32 0xCE8C5253 == some (.vfma 4 5 6 2 7 0),
    decodeTableWord 32 0xA05271D9 == some (.vslide 3 7 9 1), decodeTableWord 32 0x1259415B == some (.vlds 1 10 11 2 0),
    decodeTableWord 32 0x0459405D == some (.mcfgA 10 11), decodeTableWord 32 0x424901DD == some (.mstore 3 8 9 1),
    decodeTableWord 32 0x7038C2DD == some (.ksel 5 6 7), decodeTableWord 32 0xA469825D == some (.drawV 4 12 13),
    decodeTableWord 32 0x8003405D == some (.kgather 26)] = true := by
  decide +kernel

/-! Checks, operands and results (R137-R140, R289, R290). -/

theorem test_checks_in_order : all [
    gives (.addi 48 1 0) (user []) (fun t => t.mine.trapcause == 0x01#8 && t.mine.trapval == 0x3805#64 && t.mine.mode),
    gives .mma (user []) (fun t => decide (t.mine.wait = some .matrix)),
    gives .mma ((user []).modCore 0 (fun k => { k with featmask := 1 })) (fun t => t.mine.trapcause == 0x02#8 && t.mine.trapval == 0x1000005D#64),
    gives .halt (user []) (fun t => t.mine.trapcause == 0x03#8 && t.mine.trappc == 0x100#64),
    gives (.vadd 1 2 3 0 2) (user []) (fun t => t.mine.trapcause == 0x12#8 && t.mine.trapval == 0#64)] = true := by
  decide +kernel

/-- A Hatch of core 0 in slot 0's hands, with the entries given. -/
def hatched (s : State) (n : Nat) (h : Hatch) : State := s.setHatch 0 n h

/-- h0 pops to slot 0 and holds 7 and 8; h1 takes slot 0's pushes and has room; h2 is neither. -/
def fifo : State :=
  hatched (hatched (user [(5, 9)]) 0 { kind := 1, slotA := 1, slotB := 0, entries := [{ value := 7 }, { value := 8 }] }) 1
    { kind := 1, slotA := 0, slotB := 1 }

theorem witness_issue : all [
    (issues (.add 3 32 32) fifo [7, 8]).any (fun s1 => (s1.hatch 0 0).entries == [] && s1.mine.held.length == 2),
    (issues (.sub 3 5 5) (user [(5, 9)]) [9, 9]).any (fun s1 => decide (s1 = user [(5, 9)])),
    (hatchDirection fifo { srcs := [32, 32], dst := some 3 }).isNone,
    !hatchReady fifo { srcs := [32, 32, 32], dst := some 3 },
    leaves (.add 3 32 5) ((hatched (user []) 0 { kind := 1, slotA := 1, slotB := 0 })) (waitSlot (hatched (user []) 0 { kind := 1, slotA := 1, slotB := 0 }) 0 .hatch),
    leaves (.add 3 34 5) fifo (trap fifo .hatch 2), leaves (.add 34 5 5) fifo (trap fifo .hatch 18),
    leaves (.add 3 33 5) fifo (trap fifo .hatch 1), leaves (.add 32 5 5) fifo (trap fifo .hatch 16),
    let s := (user [(5, 9), (6, 8)]).modSlot 0 (fun t => { t with xPoison := 0x60 })
    leaves (.add 3 5 6) s (trap s .memerr 9) && leaves (.add 3 0 6) s (trap s .memerr 8)] = true := by
  decide +kernel

/-- A destination in each of the three forms of R137 and R138. -/
theorem witness_results : all [
    (issues (.add 33 5 5) fifo [9, 9]).any (fun s1 => s1.mine.reserve == some 1 && !(s1.hatch 0 1).isEngine && answers (.add 33 5 5) fifo s1 s1 33 18),
    (issues (.add 0 5 5) fifo [9, 9]).any (fun s1 => answers (.add 0 5 5) fifo s1 s1 0 18),
    let s := hatched (user [(5, 9)]) 2 { kind := 2, slotA := 0, cmd := [{ value := 0x0522000000000000#64 }] }
    (issues (.add 34 5 5) s [9, 9]).any (fun s1 => (s1.hatch 0 2).isEngine && !(s1.hatch 0 2).atHeader && rangesOfPush s1 0 2 18 == [] &&
      answers (.add 34 5 5) s s1 s1 34 18 &&
      gives (.add 34 5 5) s (fun t => (t.hatch 0 2).cmd.map (fun e => e.value) == [0x0522000000000000#64, 18])),
    let s := hatched (user [(5, 9)]) 2 { kind := 2, slotA := 0, rest := some (2, 0) }
    (s.hatch 0 2).swallows s.mine.ctx && gives (.add 34 5 5) s (fun t => (t.hatch 0 2).cmd.isEmpty && (t.hatch 0 2).rest == some (1, 0) && t.mine.pc == 0x104#64)] = true := by
  decide +kernel

/-- SLOTCTL's and CFLUSH's words resolve by their register's value. -/
theorem witness_resolved_forms : all [
    resolve (user [(6, 0x10)]) (.slotctlQuery 5 6 7) == .slotctlStart 5 6 7, resolve (user [(6, 0x20)]) (.slotctlQuery 5 6 7) == .slotctlPreempt 5 6 7,
    resolve (user [(6, 0x30)]) (.slotctlQuery 5 6 7) == .slotctlResume 5 6 7, resolve (user [(6, 0x40)]) (.slotctlQuery 5 6 7) == .slotctlKill 5 6 7,
    resolve (user [(6, 0x50)]) (.slotctlQuery 5 6 7) == .slotctlCopystop 5 6 7, resolve (user [(6, 0x60)]) (.slotctlQuery 5 6 7) == .slotctlRelease 5 6 7,
    resolve (user [(6, 0x70)]) (.slotctlQuery 5 6 7) == .slotctlQuery 5 6 7, resolve (user [(6, 0x0F)]) (.slotctlQuery 5 6 7) == .slotctlQuery 5 6 7,
    resolve (user [(7, 1)]) (.cflushLine 6 7) == .cflushWriteback 6 7, resolve (user [(7, 2)]) (.cflushLine 6 7) == .cflushAll 6 7,
    resolve (user [(7, 3)]) (.cflushLine 6 7) == .cflushLine 6 7, resolve (user [(7, 4)]) (.cflushLine 6 7) == .cflushLine 6 7,
    resolve (user [(6, 0x10)]) (.add 5 6 7) == .add 5 6 7,
    let s := fun (l : List Word) => hatched (user []) 1 { kind := 1, slotA := 0, entries := l.map (fun v => { value := v }) }
    resolve (s [0x20]) (.slotctlQuery 5 33 7) == .slotctlPreempt 5 33 7 && resolve (s [1]) (.cflushLine 6 33) == .cflushWriteback 6 33 &&
      resolve (s [0, 2]) (.cflushLine 33 33) == .cflushAll 33 33] = true := by
  decide +kernel

/-! Scalar results (R164-R177): an instruction issues with the values given and answers the result given. -/

/-- The values are put in the registers named, then `i` issues with them and answers `v` in `rd`. -/
def num (i : Instr) (xs : List (Nat × Word)) (vs : List Word) (rd : RegField) (v : Word) : Bool :=
  (issues i (user xs) vs).any (fun s1 => answers i (user xs) s1 s1 rd v)

/-- A binary instruction of x4 and x5 into x3. -/
def bin (i : Instr) (x y v : Word) : Bool := num i [(4, x), (5, y)] [x, y] 3 v
def un (i : Instr) (x v : Word) : Bool := num i [(4, x)] [x] 3 v

theorem witness_arithmetic_binary : all [
    bin (.add 3 4 5) (-1) 2 1, bin (.sub 3 4 5) 1 2 (-1), bin (.and 3 4 5) 12 10 8, bin (.andn 3 4 5) 12 10 4, bin (.or 3 4 5) 12 10 14,
    bin (.xor 3 4 5) 12 10 6, bin (.min 3 4 5) (-1) 1 (-1), bin (.max 3 4 5) (-1) 1 1, bin (.minn 3 4 5) (-1) 1 1, bin (.maxn 3 4 5) (-1) 1 (-1),
    bin (.sll 3 4 5) 3 65 6, bin (.srl 3 4 5) (-8) 65 0x7FFFFFFFFFFFFFFC, bin (.sra 3 4 5) (-8) 65 (-4), bin (.rot 3 4 5) 3 1 0x8000000000000001,
    bin (.mul 3 4 5) (-3) 5 (-15), bin (.mulh 3 4 5) (-3) 5 (-1), bin (.mulhn 3 4 5) (-3) 5 4, bin (.div 3 4 5) (-7) 2 (-3),
    bin (.div 3 4 5) (-7) 0 (-1), bin (.rem 3 4 5) (-7) 2 (-1), bin (.rem 3 4 5) (-7) 0 (-7), bin (.divn 3 4 5) 7 0 (-1), bin (.divn 3 4 5) (-7) 2 0x7FFFFFFFFFFFFFFC,
    bin (.remn 3 4 5) 7 0 7, bin (.remn 3 4 5) (-7) 4 1, bin (.div 3 4 5) 0x8000000000000000 (-1) 0x8000000000000000,
    bin (.rem 3 4 5) 0x8000000000000000 (-1) 0, bin (.csel 3 4 5 0) 1 2 1, bin (.csel 3 4 5 1) 1 2 2] = true := by
  decide +kernel

theorem witness_arithmetic_unary : all [
    un (.addi 3 4 0x1FFF) 5 4, un (.andi 3 4 0x1FF0) 0xFF 0xF0, un (.ori 3 4 0x1000) 0 0xFFFFFFFFFFFFF000, un (.xori 3 4 0x1FFF) 5 0xFFFFFFFFFFFFFFFA,
    un (.slli 3 4 63) 3 0x8000000000000000, un (.srli 3 4 1) (-8) 0x7FFFFFFFFFFFFFFC, un (.srai 3 4 1) (-8) (-4), un (.roti 3 4 60) 0x12 0x120,
    un (.clz 3 4) 0 64, un (.clz 3 4) 1 63, un (.clz 3 4) (-1) 0, un (.ctz 3 4) 0 64, un (.ctz 3 4) 8 3, un (.popc 3 4) 0xFF01 9,
    un (.brev 3 4) 1 0x8000000000000000, un (.bswap 3 4) 0x0102030405060708 0x0807060504030201,
    un (.extS 3 4 4 7) 0xF30 0xFFFFFFFFFFFFFFF3, un (.extn 3 4 4 7) 0xF30 0xF3, un (.extS 3 4 0 63) 0x8000000000000001 0x8000000000000001,
    num (.insF 6 7 16 7) [(6, 0x1111111111111111), (7, 0xAB)] [0xAB, 0x1111111111111111] 6 0x1111111111AB1111,
    num (.lih 3 37283) [] [] 3 0x12346000, num (.lih 3 0x40000) [] [] 3 0xFFFFFFFF80000000, num (.addpc 3 1) [] [] 3 0x2100,
    num (.pget 3) [] [] 3 1] = true := by
  decide +kernel

/-- A compare or predicate instruction of x4 and x5, with p1 true, writes `r` to p3. -/
def prd (i : Instr) (x y : Word) (vs : List Word) (r : Bool) : Bool :=
  let s := (user [(4, x), (5, y)]).modSlot 0 (fun t => { t with p := 3 })
  (issues i s vs).any (fun s1 => leaves i s (advance (s1.modMe (fun t => t.setP 3 r)) 4))

theorem witness_predicates : all [
    prd (.cmp 3 4 5 0) 7 7 [7, 7] true, prd (.cmp 3 4 5 1) 7 7 [7, 7] false, prd (.cmp 3 4 5 2) (-1) 0 [-1, 0] true, prd (.cmp 3 4 5 3) (-1) 0 [-1, 0] false,
    prd (.cmp 3 4 5 4) (-1) 0 [-1, 0] false, prd (.cmp 3 4 5 5) (-1) 0 [-1, 0] true, prd (.cmpi 3 2 4 0x1FFF) (-2) 0 [-2] true,
    prd (.pand 3 0 1) 0 0 [] true, prd (.pand 3 1 2) 0 0 [] false, prd (.por 3 1 2) 0 0 [] true, prd (.pxor 3 0 1) 0 0 [] false,
    prd (.pandn 3 1 2) 0 0 [] true, prd (.pset 3 4) 0x100 0 [0x100] true, prd (.pset 3 4) 0 0 [0] false] = true := by
  decide +kernel

def goesTo (i : Instr) (xs : List (Nat × Word)) (vs : List Word) (a : Word) : Bool :=
  (issues i (user xs) vs).any (fun s1 => leaves i (user xs) (jumpTo s1 0 a))

theorem witness_branches : all [
    goesTo (.bp 0 8) [] [] 0x110, goesTo (.bp 1 8) [] [] 0x104, goesTo (.bnp 1 0x1FFF) [] [] 0xFE, goesTo (.bnp 0 8) [] [] 0x104,
    goesTo (.cbz 4 2) [(4, 0)] [0] 0x104, goesTo (.cbz 4 8) [(4, 1)] [1] 0x104, goesTo (.cbnz 4 0x1FFA) [(4, 1)] [1] 0xF4, goesTo .nop [] [] 0x104,
    (issues (.jal 1 512) (user []) []).any (fun s1 => (writes s1 s1 1 0x104).any (fun s2 => leaves (.jal 1 512) (user []) (jumpTo s2 0 0x500))),
    (issues (.jalr 1 1 7) (user [(1, 0x1000)]) [0x1000]).any (fun s1 => (writes s1 s1 1 0x104).any (fun s2 =>
      leaves (.jalr 1 1 7) (user [(1, 0x1000)]) (jumpTo s2 0 0x1006)))] = true := by
  decide +kernel

/-- The frame's forms complete, wait and trap (R164-R177). -/
theorem witness_scalar_frame : all [
    (scalarDest (.add 3 4 5)).isSome, (scalarDest (.cmp 1 4 5 0)).isSome, (scalarDest .nop).isSome, (next (exec (.add 3 4 5) (user []))).isSome,
    (next (exec (.add 3 34 5) (user []))).isSome, (next (exec .nop (user []))).isSome] = true := by
  decide +kernel

/-! Memory (R90-R111, R182-R187, R195). -/

/-- The state with bytes of a number at a location. -/
def poke (s : State) (a n v : Nat) : State := { s with mem := s.mem.writes (cellsAt a (leBytes v n)) }

/-- The places an access of `i`'s goes to, and the state, once its checks and what would hold it have passed. -/
def accessed (s : State) (l : List Elem) (acc : Access) (logs writes : Bool) : Option (List Place × State) :=
  match checkAccess s l acc logs with
  | .go ps s0 => match holdAccess s0 (ps.zip (l.map (fun e => e.n))) writes with
    | .go _ s1 => some (ps, s1)
    | .stop _ => none
  | .stop _ => none

theorem accesses_of_accessed {s s1 : State} {l : List Elem} {acc : Access} {logs writes : Bool} {ps : List Place}
    (h : accessed s l acc logs writes = some (ps, s1)) : Accesses s l acc logs writes ps s1 := by
  unfold accessed at h
  split at h
  · rename_i ps0 s0 h0
    split at h
    · rename_i u t h1
      injection h with h
      injection h with h2 h3
      exact ⟨s0, by rw [h0, h2], by rw [← h2, h1, h3]⟩
    · cases h
  · cases h

/-- The places a load's access goes to, and the state, once its checks and what would hold it have passed. -/
def loadAccessed (s : State) (l : List Elem) (acc : Access) : Option (List Place × State) :=
  match checkAccess s l acc false with
  | .go ps s0 => match holdLoad s0 (ps.zip (l.map (fun e => e.n))) with
    | .go _ s1 => some (ps, s1)
    | .stop _ => none
  | .stop _ => none

theorem loadAccesses_of_loadAccessed {s s1 : State} {l : List Elem} {acc : Access} {ps : List Place} (h : loadAccessed s l acc = some (ps, s1)) :
    LoadAccesses s l acc ps s1 := by
  unfold loadAccessed at h
  split at h
  · rename_i ps0 s0 h0
    split at h
    · rename_i u t h1
      injection h with h
      injection h with h2 h3
      exact ⟨s0, by rw [h0, h2], by rw [← h2, h1, h3]⟩
    · cases h
  · cases h

/-- A load of `n` bytes at `a` (in x4) passes, its place is this device's, and it completes with `v` in x3, marked or not. -/
def loads (i : Instr) (s : State) (a : Word) (n : Nat) (v : Word) (bad : Bool) : Bool :=
  (issues i s [a]).any (fun s1 =>
  (loadAccessed s1 [{ a := a, n := n }] .load).any (fun x =>
  match x.1 with
  | [p] => p.own && (let r := readPlace x.2 x.2.curCore p n
    r.2.1 == bad && leaves i s (writeBack r.2.2 0 [(3, v, bad)]))
  | _ => false))

/-- Bytes FE ... at 0x18 of page 0 (cached), page 1 (uncached) and the core's scratchpad. -/
def loadState (a : Word) : State :=
  poke (poke (poke (user [(4, a)]) 0x18 8 0x8070605040FFFEFD) 0x10018 8 0x8070605040FFFEFD) (locScratch 0 0x18) 8 0x8070605040FFFEFD

/-- R80: scratchpad bytes that a protection entry opens to user mode. -/
def opened (s : State) : State := s.modSlot 0 (fun t => { t with lprot0 := BitVec.ofNat 64 (7 * 2 ^ 61 + 0x1000 * 2 ^ 26) })

theorem witness_loads : all [
    loads (.ldN8 3 4 0) (loadState 0x18) 0x18 1 0xFD false, loads (.ldS8 3 4 0) (loadState 0x10018) 0x10018 1 (-3) false,
    loads (.ldN16 3 4 0) (loadState 0x18) 0x18 2 0xFEFD false, loads (.ldS16 3 4 0) (loadState 0x1A) 0x1A 2 0x40FF false,
    loads (.ldN32 3 4 0) (loadState 0x1C) 0x1C 4 0x80706050 false, loads (.ldS32 3 4 0) (loadState 0x1C) 0x1C 4 0xFFFFFFFF80706050 false,
    loads (.ldD64 3 4 0) (opened (loadState 0xFF00000000000018)) 0xFF00000000000018 8 0x8070605040FFFEFD false,
    loads (.ldD64 3 4 0) (let s := loadState 0x18; { s with bad := [0x1F] }) 0x18 8 0x18 true] = true := by
  decide +kernel

theorem witness_load_pairs : all [
    let s := loadState 0x10
    (issues (.ldx 6 4 0) s [0x10]).any (fun s1 => (loadAccessed s1 [{ a := 0x10, n := 16 }] .load).any (fun x =>
      gives (.ldx 6 4 0) s (fun t => t.mine.xr 6 == 0 && t.mine.xr 7 == 0x8070605040FFFEFD && t.mine.pc == 0x104#64 && x.1.length == 1))),
    (issues (.pref 4 0) (loadState 0x18) [0x18]).isSome, gives (.pref 4 0) (loadState 0x18) (fun t => t.mine.pc == 0x104#64),
    gives (.pref 4 0) (loadState 0x100) (fun t => t.mine.pc == 0x104#64 && t.mine.mode == false)] = true := by
  decide +kernel

/-- The premises of the loads' frame hold, for a global address whose translation is cached and for a local one. -/
theorem witness_load_frame : all [
    (tlbFind (loadState 0x18) 0 0x18).isSome && (loadState 0x18).here.sideLog.isEmpty && (next (exec (.ldD64 3 4 0) (loadState 0x18))).isSome,
    decide (spaceOf 0xFF00000000000018 = .window 0) && (next (exec (.ldx 6 4 0) (loadState 0xFF00000000000018))).isSome] = true := by
  decide +kernel

/-- A store of `bs` at `a` (in x4) of x5 passes and completes. -/
def storesTo (i : Instr) (s : State) (vs : List Word) (a : Word) (bs : List Byte) : Bool :=
  (issues i s vs).any (fun s1 =>
  (accessed s1 [{ a := a, n := bs.length }] .store true true).any (fun x =>
  match x.1 with
  | [p] => !logFull x.2 p && leaves i s (advance (storeElem x.2 p bs .store) 4)
  | _ => false))

theorem witness_stores : all [
    storesTo (.stN8 0 4 5) (user [(4, 0x1F), (5, 0x1FE)]) [0x1F, 0x1FE] 0x1F [0xFE], storesTo (.stN16 1 4 5) (user [(4, 0x1F), (5, 0x1FE)]) [0x1F, 0x1FE] 0x20 [0xFE, 1],
    storesTo (.stN32 0 4 5) (user [(4, 0x10004), (5, 0x1FE)]) [0x10004, 0x1FE] 0x10004 [0xFE, 1, 0, 0],
    storesTo (.stD64 0 4 5) (opened (user [(4, 0xFF0000000003FFF8 - 0x20000), (5, 0x1FE)])) [0xFF0000000001FFF8, 0x1FE] 0xFF0000000001FFF8 [0xFE, 1, 0, 0, 0, 0, 0, 0],
    storesTo (.stx 0 4 6) (user [(4, 0x20), (6, 1), (7, 2)]) [0x20, 1, 2] 0x20 (leBytes 1 8 ++ leBytes 2 8),
    storesTo (.stN8 0 4 5) (user [(4, 0x500000), (5, 1)]) [0x500000, 1] 0x500000 [1],
    gives (.stN8 0 4 5) (user [(4, 0x10000), (5, 7)]) (fun t => t.mem == [(0x10000, 7)] && t.mine.pc == 0x104#64),
    gives (.stN8 0 4 5) (user [(4, 0x500000), (5, 1)]) (fun t => t.here.sideLog.length == 1 && t.mem == []),
    gives (.stN8 0 4 5) (user [(4, 0x10), (5, 7)]) (fun t => t.mem == [] && t.here.lines.length == 1)] = true := by
  decide +kernel

/-- The places of the store clauses: an SRAM's, an uncached page's, a cached line already held. -/
theorem witness_store_places : all [
    !cached 0x47F && cached 0x7F, (Place.sram 5).own && (Place.global 0 0 0x7F 0).own,
    ((snapStore (user []) 0 0 0x10 [1] 0).here.lines.any (fun l => l.line == lineNo 0x10)),
    let s := snapStore (user []) 0 0 0x10 [1] 0
    (snapLoad (storeElem s (.global 0x10 0x10 0x7F 0) [9] .store) 0 0x10 1).1 == [9] && s.here.l1.contains (lineNo 0x10) &&
      (storeElem s (.global 0x10 0x10 0x7F 0) [9] .store).mem.isEmpty] = true := by
  decide +kernel

theorem witness_ordering : all [
    (snapLoad (snapStore (user []) 0 0 0x7E [1, 2] 0) 0 0x7E 2).1 == [1, 2], ((user []).core 0).lines.isEmpty, (dirtyLine ((user []).core 1) 0x10).isNone,
    (snapLoad (refreshCore (publishLines (snapStore (user []) 0 0 0x10 (leBytes 0x55 16) 0) 0) 1) 1 0x10 16).1 == leBytes 0x55 16,
    (goes (publish (snapStore (user []) 0 0 0x10 [7] 0) .dev)).any (fun r => r.2.here.lines.isEmpty && r.2.mem == [(0x10, 7)]),
    (goes (publish (snapStore (user []) 0 0 0x10 [7] 0) .sys)).isSome, (goes (publish (user []) .cl)).any (fun r => decide (r.2 = user [])),
    (snapLoad (refreshCore (poke (user []) 0x10 1 9) 0) 0 0x10 1).1 == [9], ((user []).core 0).reverted.isEmpty,
    let s := snapStore (user []) 0 0 0x10 [7] 0
    (dirtyLine (s.core 0) 0x11).any (fun l => !l.zero.contains (sectorNo 0x11)) && (snapLoad s 0 0x10 2).1 == [7, 0] &&
      (goes (publish s .sys)).any (fun r => r.2.here.sideLog.isEmpty && r.2.here.peerOut.isEmpty && r.2.hostLag.isEmpty),
    let s := (user []).modSlot 1 (fun t => { t with inst := some (.stN8 0 1 2, 1), checked := some [.sram 5], wait := some .board, state := .waiting })
    let s := { s with nextId := 9 }
    storeHeld (s.slot 1) (issueOrder s) .cl && (stops (publish s .cl)).any (fun t => decide (t.mine.wait = some .stores)),
    let s := (user []).modCore 0 (fun k => { k with coherent := [0], reverted := [(0x10, 0)] })
    heldHere s 0 0 && !ownStore (s.core 0) 0x10 && ((snapLoad s 0 0x10 1).2.core 0).reverted.isEmpty] = true := by
  decide +kernel

theorem witness_access_checks : all [
    let s := user []
    let at_ := fun (a : Word) (n : Nat) => checkAccess s [{ a := a, n := n }] .load false
    decide (spaceOf 0x0100000000000000 = .none) && decide (stops (at_ 0x0100000000000000 8) = some (trap s .noncanon 0x0100000000000000)) &&
      decide (spaceOf 0xFF04000000000000 = .window 4) && decide (stops (at_ 0xFF04000000000000 8) = some (trap s .priv 0xFF04000000000000)) &&
      decide (stops (at_ 0x19 8) = some (trap s .misalign 0x19)) && !sizeOk s 0 0xFF0000000001FFFC 8 &&
      !sizeOk s 0 0xFF00000000020000 8 && decide (stops (at_ 0xFF00000000020000 8) = some (trap s .protLocal 0xFF00000000020000)),
    let s := sup []
    let ok := fun (a : Word) (n w : Nat) => decide (spaceOf a = .window w) && a.toNat % n == 0 && sizeOk s 0 a n &&
      (goes (checkAccess s [{ a := a, n := n }] .load false)).any (fun r => decide (r.1 = [.sram (sramLoc 0 0 { a := a, n := n })]) && decide (r.2 = s))
    ok 0xFF0000000001FFF8 8 0 && ok 0xFF0400000000FFFF 1 4,
    let s := (sup []).modCore 1 (fun k => { k with lmshare := 1 })
    let a : Word := 0xFF02080000007FF8
    decide (spaceOf a = .window 2) && sizeOk s 0 a 8 && !sizeOk s 0 (a + 8) 8 && (goes (checkAccess s [{ a := a, n := 8 }] .atomic false)).isSome,
    let s := (sup []).modCore 0 (fun k => { k with board := [{ id := 1, ranges := [(100, 163)] }] })
    decide (stops (holdAccess s [(.sram 163, 1)] false) = some (waitSlot (s.modMe (fun t => { t with checked := some [.sram 163] })) 0 .board)) && (goes (holdAccess s [(.sram 164, 1)] false)).isSome &&
      (stops (holdAccess s [(.sram 92, 9)] true)).isSome && (goes (holdAccess s [(.sram 92, 8)] true)).isSome,
    let a : Elem := { a := 0xFF00000000000040, n := 8 }
    let p := Place.sram (locScratch 0 0x40)
    let s := (sup []).modSlot 0 (fun t => { t with checked := some [p] })
    placeFits 0 0 a p && (goes (checkAccess s [a] .load false)).any (fun r => decide (r.1 = [p]) && r.2.mine.checked.isNone)] = true := by
  decide +kernel

/-- An atomic on `n` bytes at x4 is ready, clean, and answers the old value. -/
def amo (i : Instr) (s : State) (vs : List Word) (a : Word) (n ord : Nat) (f : Nat → Nat) (old : Nat) : Bool :=
  (issues i s vs).any (fun s1 => (goes (atomicReady s1 a n ord false)).any (fun r =>
    r.1.own && !anyBad r.2 0 r.1.loc n &&
    (let z := atomicAt r.2 r.2.curCore r.2.me r.1 n f
     z.1 == old && answers i s s1 (acquire z.2 ord) 3 (wd old))))

/-- A reduction on `n` bytes at x4 is ready and completes. -/
def red (i : Instr) (s : State) (vs : List Word) (a : Word) (n ord : Nat) (f : Nat → Nat) : Bool :=
  (issues i s vs).any (fun s1 => (goes (atomicReady s1 a n ord true)).any (fun r =>
    r.1.own && (let z := atomicAt r.2 r.2.curCore r.2.me r.1 n f
     leaves i s (advance (acquire z.2 ord) 4))))

theorem witness_atomics : all [
    let s := poke (user [(4, 0x10), (5, 0xFFFFFFFF00000002)]) 0x10 4 0xFFFFFFFF
    amo (.amo32 3 4 5 1 0) s [0x10, 0xFFFFFFFF00000002] 0x10 4 1 (fun o => (o + 2) % 2 ^ 32) 0xFFFFFFFF,
    let s := poke (user [(4, 0x10008), (5, 1)]) 0x10008 8 5
    amo (.amo64 3 4 5 2 4) s [0x10008, 1] 0x10008 8 2 (fun _ => 1) 5 && amo (.amo64 3 4 5 0 8) s [0x10008, 1] 0x10008 8 0 (fun _ => 1) 5,
    let s := poke (user [(4, 0x10), (5, 7), (3, 5)]) 0x10 8 5
    amo (.cas 3 4 5 5 1) s [0x10, 7, 5] 0x10 8 5 (fun _ => 7) 5 && gives (.cas 3 4 5 6 0) s (fun t => t.mem == [(0x10, 7)]),
    red (.red32 4 5 0 7) (user [(4, 0x10), (5, 7)]) [0x10, 7] 0x10 4 0 (fun o => max o 7),
    red (.red64 4 5 3 1) (user [(4, 0x10), (5, 7)]) [0x10, 7] 0x10 8 3 (fun o => o &&& 7),
    red (.fred 4 5 0 0) (user [(4, 0x10), (5, 0x40000000)]) [0x10, 0x40000000] 0x10 4 0 (fun _ => 0x40000000),
    gives (.fred 4 5 0 1) (poke (user [(4, 0x10), (5, 0x4000)]) 0x10 2 0x4040) (fun t => leNat (t.mem.readN 0x10 2) == 0x40A0)] = true := by
  decide +kernel

/-! Tagged words, monitors, phases and barriers (R189-R210). -/

/-- A word of the tagged page, full or empty, with x4 its address and x5 = 9. -/
def tagged (full : Bool) : State :=
  let s := poke (user [(4, 0x20008), (5, 9)]) 0x20008 8 0x55
  if full then s.setTag 0x20008 true else s

theorem witness_tagged_words : all [
    let ready := fun (i : Instr) (s : State) (vs : List Word) (acc : Access) (w : Bool) => (issues i s vs).any (fun s1 =>
      (if w then accessed s1 [{ a := 0x20008, n := 8 }] acc false true else loadAccessed s1 [{ a := 0x20008, n := 8 }] acc).any (fun x =>
        decide (x.1 = [.global 0x20008 0x20008 0x87F 0]) && x.2.deferred.isEmpty && x.2.bad.isEmpty && !needsDirty x.2 0 0x20008 0x87F &&
          !annulKnown x.2 x.2.mine.rtag (homeDie 0x20008)))
    ready (.ldfull 3 4) (tagged true) [0x20008] .tagLoad false && ready (.ldtake 3 4) (tagged true) [0x20008] .tagLoad false &&
      ready (.tagrd 3 4) (tagged false) [0x20008] .tagLoad false && ready (.stfill 4 5) (tagged false) [0x20008, 9] .tagStore true &&
      ready (.stforce 4 5) (tagged true) [0x20008, 9] .tagStore true,
    gives (.ldfull 3 4) (tagged true) (fun t => t.mine.xr 3 == 0x55#64 && t.full 0x20008 && t.mine.pc == 0x104#64),
    gives (.ldtake 3 4) (tagged true) (fun t => t.mine.xr 3 == 0x55#64 && !t.full 0x20008),
    gives (.tagrd 3 4) (tagged false) (fun t => t.mine.xr 3 == 0#64) && gives (.tagrd 3 4) (tagged true) (fun t => t.mine.xr 3 == 1#64),
    gives (.stfill 4 5) (tagged false) (fun t => t.full 0x20008 && read64 t.mem 0x20008 == 9#64 && t.mine.pc == 0x104#64),
    gives (.stforce 4 5) (tagged true) (fun t => t.full 0x20008 && read64 t.mem 0x20008 == 9#64)] = true := by
  decide +kernel

/-- A state that defers n operations at the word's slice. -/
def crowded (n : Nat) : State :=
  { tagged false with deferred := List.replicate n { slice := homeSlice 0x20008, w := { op := 0, rd := 3, addr := 0x20008, pa := 0x20008, value := 0 }, g := 9 } }

def load20008 : TagOp := { op := 0, rd := 3, addr := 0x20008, pa := 0x20008, value := 0 }

/-- Slot 0 in a wait that began at time 0, at a time, with WAITLIM 12 cycles. -/
def waiting (w : Wait) (time : Nat) : State :=
  let s := (tagged false).modSlot 0 (fun t => { t with wait := some w, state := .waiting, waitlim := 12 })
  { s with time := time, deferred := [{ slice := homeSlice 0x20008, w := load20008, g := 0 }] }

theorem witness_tag_waits : all [
    !tagReady 0 ((tagged false).full 0x20008), gives (.ldfull 3 4) (tagged false) (fun t => decide (t.mine.wait = some (.tagged load20008 true 0 0))),
    gives (.ldfull 3 4) (crowded 63) (fun t => t.deferred.length == 64), gives (.ldfull 3 4) (crowded 64) (fun t => t.deferred.length == 64 &&
      decide (t.mine.wait = some (.tagged load20008 false 1 7))),
    backoff 1 == 16 && backoff 8 == 2048 && backoff 9 == 4096 && backoff 10 == 4096,
    leaves (.twBackoffExpiry 0) (waiting (.tagged load20008 false 1 7) 7) (tagRequest (waiting (.tagged load20008 false 1 7) 7) 0 load20008 1),
    leaves (.twBackoffExpiry 0) (waiting (.tagged load20008 false 1 7) 6) (waiting (.tagged load20008 false 1 7) 6),
    gives (.taggedOpComplete 0) (waiting (.tagAnswer load20008 5 false) 0) (fun t => t.mine.xr 3 == 5#64 && t.mine.pc == 0x104#64 && decide (t.mine.wait = none)),
    gives (.waitLimitExpiry 0) (waiting (.tagged load20008 true 0 0) 5) (fun t => decide (t.mine.wait = some (.withdrawn load20008 .limit)) && t.pending.length == 1),
    leaves (.waitLimitExpiry 0) (waiting (.tagged load20008 true 0 0) 4) (waiting (.tagged load20008 true 0 0) 4),
    gives (.waitLimitExpiry 0) (waiting (.tagged load20008 false 1 9) 5) (fun t => t.mine.trapcause == 0x0C#8 && t.mine.trapval == 0x20008#64),
    gives (.waitLimitExpiry 0) (waiting (.barrier 2) 5) (fun t => t.mine.trapcause == 0x0C#8 && t.mine.trapval == 2#64),
    gives (.withdrawalAnswer 0) (waiting (.withdrawn load20008 .limit) 5) (fun t => t.mine.trapcause == 0x0C#8 && t.deferred.isEmpty),
    gives (.withdrawalAnswer 0) (waiting (.withdrawn load20008 .budget) 5) (fun t => t.mine.trapcause == 0#8 && t.deferred.isEmpty && t.mine.state == .ready),
    leaves (.withdrawalAnswer 0) (waiting (.tagAnswer load20008 5 false) 0) (waiting (.tagAnswer load20008 5 false) 0)] = true := by
  decide +kernel

/-- Slot 0 with lines armed: (entry, line, line). -/
def armed (ms : List (Nat × Nat)) (written : BitVec 4) (xs : List (Nat × Word)) : State :=
  (user xs).modSlot 0 (fun t => { t with monitors := ms.map (fun m => (m.1, (m.2, m.2))), written := written })

theorem witness_monitors : all [
    let arm := fun (s : State) (v : Word) (f : State → State) => (issues (.monarm 3 4) s [0x108]).any (fun s1 =>
      (goes (checkAccess s1 [{ a := 0x108, n := 8 }] .monarm false)).any (fun r => r.1.length == 1 && answers (.monarm 3 4) s s1 (f r.2) 3 v))
    arm (armed [(0, 7), (1, 2)] 0 [(4, 0x108)]) 1 (fun s => s) &&
      arm (armed [(0, 7), (2, 8)] 2 [(4, 0x108)]) 1 (fun s => s.modMe (fun t => armAt t 1 2 2)) &&
      arm (armed [(0, 7), (1, 8), (2, 9)] 0 [(4, 0x108)]) 3 (fun s => s.modMe (fun t => armAt t 3 2 2)) &&
      arm (armed [(0, 7), (1, 8), (2, 9), (3, 10)] 0 [(4, 0x108)]) (-1) (fun s => s),
    let s := armed [(0, 7)] 1 [(4, 100)]
    (issues (.monwait 3 4) s [100]).any (fun s1 => answers (.monwait 3 4) s s1 (s1.modMe (fun t => { t with written := 0, rearm := false })) 3 0x101),
    let s := (armed [(0, 7)] 1 [(4, 100)]).modSlot 0 (fun t => { t with rearm := true })
    (issues (.monwait 3 4) s [100]).any (fun s1 => answers (.monwait 3 4) s s1 (s1.modMe (fun t => { t with rearm := false })) 3 8),
    gives (.monwait 3 4) (armed [] 0 [(4, 100)]) (fun t => t.mine.xr 3 == 0x10#64) && gives (.monwait 3 4) (armed [(0, 7)] 0 [(4, 0)]) (fun t => t.mine.xr 3 == 2#64),
    gives (.monwait 3 4) (armed [(0, 7)] 0 [(4, 5)]) (fun t => decide (t.mine.wait = some (.monitor 0 5))),
    gives (.monclr 0) (armed [(0, 7)] 1 []) (fun t => t.mine.monitors.isEmpty && t.mine.written == 0#4),
    gives (.monclr 4) (armed [(0, 7), (1, 2)] 3 [(4, 0x17F)]) (fun t => t.mine.monitors == [(0, (7, 7))] && t.mine.written == 1#4),
    gives (.monclr 4) (armed [(0, 7)] 1 [(4, 0x100)]) (fun t => t.mine.monitors == [(0, (7, 7))] && t.mine.written == 1#4 && t.mine.pc == 0x104#64),
    gives (.monclr 4) (armed [(0, 7)] 1 [(4, 0x0100000000000000)]) (fun t => t.mine.trapcause == 0x06#8)] = true := by
  decide +kernel

theorem witness_monitor_wakes : all [
    decide ((publishCells (armed [(0, 7)] 0 []) [(0x380, 1)] 0 none none).pending = [.monitorWake 0 0]),
    (publishCells (armed [(0, 7)] 0 []) [(0x400, 1)] 0 none none).pending.isEmpty, (publishCells (armed [(0, 7)] 0 []) [(0x380, 1)] 0 (some 0) none).pending.isEmpty,
    (publishCells (armed [(0, 7)] 0 []) [(0x380, 1)] 0 none (some 0)).pending.isEmpty,
    gives (.monitorWake 0 3) ((armed [(3, 7)] 0 []).modSlot 0 (fun t => { t with state := .waiting, wait := some (.monitor 0 9) }))
      (fun t => t.mine.written == 8#4 && t.mine.state == .ready),
    gives (.monwaitTimeout 0) (waiting (.monitor 0 12) 5) (fun t => t.mine.state == .ready),
    leaves (.monwaitTimeout 0) (waiting (.monitor 0 12) 4) (waiting (.monitor 0 12) 4)] = true := by
  decide +kernel

/-- The monitor instructions complete under conditions on the state and the operands alone. -/
theorem witness_monitors_complete : all [
    let s := fun (ms : List (Nat × Nat)) => armed ms 2 [(4, 0x108)]
    let ok := fun (s : State) => decide (s.mine.checked = none) && s.here.sideLog.isEmpty && spaceOf (s.mine.xr 4) == .global && !s.mine.poisoned 4 &&
      decide (tlbFind s s.curCore 0x108 = some (page 0 0x7F)) && permits 0x7F .monarm true && hasL1 s.here && decide (atsTranslate s 0x108 = (true, s))
    ok (s [(0, 7), (2, 8)]) && gives (.monarm 3 4) (s [(0, 7), (2, 8)]) (fun t => t.mine.monitors.any (fun m => m == (1, (2, 2))) && t.mine.xr 3 == 1#64 &&
        t.mine.written == 0#4 && t.mine.pc == 0x104#64) &&
      ok (s [(0, 7), (1, 2)]) && gives (.monarm 3 4) (s [(0, 7), (1, 2)]) (fun t => t.mine.monitors == [(0, (7, 7)), (1, (2, 2))] && t.mine.xr 3 == 1#64 && t.mine.written == 2#4),
    let waits := fun (s : State) (written : BitVec 4) (r : Nat) => !s.mine.poisoned 4 && !messageQueued s.here s.curSlot &&
      leaves (.monwait 3 4) s (advance (s.modMe (fun t => ({ t with written := written, rearm := false } : Slot).setX 3 (wd r))) 4)
    waits ((armed [(0, 7)] 1 [(4, 100)]).modSlot 0 (fun t => { t with rearm := true })) 1 8 && waits (armed [(0, 7)] 1 [(4, 100)]) 0 0x101 &&
      waits (armed [(0, 7)] 0 [(4, 0)]) 0 2 && waits (armed [] 0 [(4, 0)]) 0 0x10 &&
      waits { (armed [(0, 7)] 0 [(4, 12)]).modSlot 0 (fun t => { t with state := .waiting, wait := some (.monitor 0 12) }) with time := 5 } 0 2,
    let clears := fun (a : RegField) (s : State) (t : Slot) => leaves (.monclr a) s (advance (s.setSlot 0 t) 4)
    let s := armed [(0, 7), (1, 2)] 3 [(4, 0x17F), (5, 0x200)]
    clears 0 s { s.mine with monitors := [], written := 0 } && clears 4 s { s.mine with monitors := [(0, (7, 7))], written := 1 } && clears 5 s s.mine,
    gives (.monitorWake 0 1) (armed [(1, 7)] 0 []) (fun t => t.mine.written == 2#4) && gives (.monitorWake 0 1) (armed [(0, 7)] 0 []) (fun t => decide (t.mine = (armed [(0, 7)] 0 []).mine))] = true := by
  decide +kernel

/-- Core 0 with barrier context 1 configured over a rectangle, and slot 0's recorded phase. -/
def barrier (k : Barrier) (rec : Map (Option Nat)) : State :=
  ((user [(4, 0), (5, 1)]).setBarrier 0 1 k).modSlot 0 (fun t => { t with recorded := rec })

def alone (n : Nat) : Barrier := { configured := true, desc := 0, expected := n, expectedNext := n, expectedLater := n }

theorem witness_phase_and_barriers : all [
    (issues (.phase 1 1) (user []) []).any (fun s1 => (goes (publish s1 .dev)).any (fun r => leaves (.phase 1 1) (user []) (advance r.2 4))),
    (issues (.phase 0 2) (user []) []).any (fun s1 => leaves (.phase 0 2) (user []) (advance (refresh s1 .cl) 4)),
    (issues (.phase 2 3) (user []) []).any (fun s1 => (goes (publish s1 .sys)).any (fun r => leaves (.phase 2 3) (user []) (advance (refresh r.2 .sys) 4))),
    (arrivalPhase (alone 2)).isSome && gives (.bararr 1) (barrier (alone 2) []) (fun t => (t.barrier 0 1).now == 1 && t.mine.recorded == [(1, some 0)] && t.pending.isEmpty),
    gives (.bararr 1) (barrier (alone 1) []) (fun t => decide (t.pending = [.barrierRelease 0 1 0]) && (t.barrier 0 1).sent),
    gives (.bararr 1) (barrier { alone 1 with now := 1, sent := true } []) (fun t => (t.barrier 0 1).next == 1 && t.mine.recorded == [(1, some 1)]),
    gives (.bardrop 1) (barrier (alone 2) []) (fun t => (t.barrier 0 1).expectedLater == 1 && (t.barrier 0 1).expectedNext == 1 && (t.barrier 0 1).expected == 2),
    gives (.bardrop 1) (barrier { alone 1 with expectedLater := 0 } []) (fun t => t.mine.trapcause == 0x11#8 && t.mine.trapval == 1#64),
    gives (.barwait 1) (barrier (alone 1) []) (fun t => t.mine.pc == 0x104#64),
    let full := barrier { alone 1 with now := 1, next := 1, sent := true } []
    gives (.bararr 1) full (fun t => decide (t.mine.wait = some (.arrival 1))) && gives (.bararr 1) ((barrier (alone 2) []).modSlot 0 (fun t => { t with wait := some (.arrival 1) }))
      (fun t => (t.barrier 0 1).now == 1 && t.mine.pc == 0x104#64),
    gives (.barwait 1) (barrier { alone 1 with err := true } [(1, some 0)]) (fun t => t.mine.trapcause == 0x11#8) &&
      gives (.barwait 1) ((barrier { alone 1 with err := true } [(1, some 0)]).modSlot 0 (fun t => { t with wait := some (.barrier 1) })) (fun t => decide (t.mine.wait = some (.barrier 1))),
    gives (.barwait 1) (barrier { alone 1 with phase := 1 } [(1, some 0)]) (fun t => t.mine.pc == 0x104#64),
    gives (.barwait 1) (barrier { alone 1 with phase := 1 } [(1, some 1)]) (fun t => decide (t.mine.wait = some (.barrier 1))),
    barLegal 0 && barInside 0 0 && (barWaiters (barrier {} []) 0 1).isEmpty && gives (.barcfg 4 5 1) (barrier {} []) (fun t => t.barrier 0 1 == alone 1),
    gives (.barcfg 5 4 1) (barrier {} []) (fun t => t.mine.trapcause == 0x11#8)] = true := by
  decide +kernel

/-- A rectangle of two columns and two rows on the die: cores 0, 1, 32, 33. -/
def square : Nat := 0x01010000

theorem witness_synchronisation_events : all [
    gives (.publishComplete 0) (((waiting .publish 0).modSlot 0 (fun t => { t with awaits := some 5 })).modCore 0 (fun k => { k with peerOut := [(4, 0), (5, 0)] }))
      (fun t => t.mine.state == .ready && t.here.peerOut == [(5, 0)]),
    let k := { alone 1 with desc := square }
    leaves (.barrierSignal 0 1 false square) (barrier k []) (barAdvance ((barrier k []).setBarrier 0 1 { k with fromWest := true }) 0 1) &&
      leaves (.barrierSignal 0 1 false 0) (barrier k []) ((barrier k []).setBarrier 0 1 { k with err := true }) &&
      leaves (.barrierRelease 0 1 0) (barrier k []) ((barrier k []).setBarrier 0 1 { k with err := true }) &&
      decide ((barAdvance (barrier { k with now := 1 } []) 0 1).pending = [.barrierSignal 1 1 false square]) &&
      gives (.barrierRelease 0 1 square) ((barrier { k with now := 1, next := 1 } []).modSlot 1 (fun t => { t with wait := some (.barrier 1), state := .waiting }))
        (fun t => (t.barrier 0 1).phase == 1 && (t.barrier 0 1).now == 1 && (t.slot 1).state == .ready && decide (t.pending = [.barrierSignal 1 1 false square])),
    let at33 := fun (n : Barrier) => (user []).setBarrier 33 0 n
    let k := { alone 1 with desc := square, now := 1, fromWest := true }
    decide ((barAdvance (at33 { k with fromNorth := true }) 33 0).pending = [.barrierRelease 33 0 square]) && (barAdvance (at33 k) 33 0).pending.isEmpty &&
      gives (.barrierRelease 33 0 square) (at33 k) (fun t => decide (t.pending = [.barrierRelease 1 0 square, .barrierRelease 32 0 square])
        || decide (t.pending = [.barrierRelease 32 0 square, .barrierRelease 1 0 square])),
    decide ((barAdvance ((user []).setBarrier 1 0 { alone 1 with desc := square, now := 1, fromWest := true }) 1 0).pending = [.barrierSignal 33 0 true square])] = true := by
  decide +kernel

/-! Tasks, requests, messages, Hatches and the Larder (R23-R39, R211-R235, R228-R233). -/

/-- A record at 0x1000: PC 0x400, instant 2^64 - 1, word 2 and x1 = 0x77; x4 its address, x5 a target or operand word. -/
def record (w2 : Word) (x5 : Word) : State :=
  poke (poke (poke (poke (user [(4, 0x1000), (5, x5)]) 0x1000 8 0x400) 0x1008 8 (2 ^ 64 - 1)) 0x1010 8 w2.toNat) 0x1018 8 0x77

def withReqs (l : List (Nat × Req)) (s : State) : State := { s with reqs := l, pools := [(0, { fresh := 100 })], regs := [(pquotaAddr 0, 1000)] }

/-- `n` CRs of class 0 in core 0's queue. -/
def queued (n : Nat) (s : State) : State :=
  s.setLevel 0 0 { entries := List.replicate n { pc := 0, instant := 0, budget := 0, deleg := false, feat := 0, prio := 0, rtag := 0, x := [] } }

/-- SPAWN of the record at x4 to the queue in x5 goes through its checks with the tag `t`, and answers `code`, where `f` holds before it enqueues. -/
def spawns (i : Instr) (s : State) (x5 : Word) (t : Nat) (code : Word) (f : State → CR → Nat → Bool) : Bool :=
  (issues i s [0x1000, x5]).any (fun s1 => (targetQueue s1 x5).any (fun q => (goes (readCr s1 0x1000)).any (fun r =>
    fld (r.1.getD 2 0) 29 3 == 0 && spawnTag r.2 (fld (r.1.getD 2 0) 0 18) == some t && (goes (publish r.2 .dev)).any (fun p =>
      f p.2 (recordCr r.2 r.1 t) q)))) && gives i s (fun u => u.mine.xr 3 == code && u.mine.pc == 0x104#64)

theorem witness_spawn : all [
    spawns (.spawn 3 4 5) (record 0 0) 0 0 0 (fun s cr q => scopeReaches s q cr.feat && s.liveTag cr.rtag && (enqueue s q cr).isSome),
    spawns (.spawn 3 4 5) (queued 64 (record 0 0)) 0 0 1 (fun s cr q => (enqueue s q cr).isNone),
    spawns (.spawn 3 4 5) (record (wd (4 * 2 ^ 20)) 0) 0 0 2 (fun s cr q => !scopeReaches s q cr.feat),
    spawns (.spawn 3 4 5) (withReqs [(5, { state := .annulled })] (record 5 0)) 0 5 3 (fun s _ _ => !s.liveTag 5),
    spawns (.spawnW 3 4 5) (queued 63 (record 0 0)) 0 0 0 (fun s cr q => !wouldRing s q 0 && (enqueue s q cr).isSome),
    gives (.spawn 3 4 5) (record (wd (2 ^ 18)) 2) (fun t => (t.level 2112 1).entries.map (fun c => (c.pc, c.x.headD 0)) == [(0x400#64, 0x77#64)])] = true := by
  decide +kernel

/-- A CR and a level full of them, with a ring of 64. -/
def someCr (prio : Nat) : CR := { pc := 8, instant := 5, budget := 0, deleg := false, feat := 0, prio := prio, rtag := 0, x := [] }

theorem witness_queues : all [
    routeQueue (queued 63 (user [])) 0 == 0 && qCapacity 0 == 64 && (enqueue (queued 63 (user [])) 0 (someCr 0)).isSome,
    (enqueue (queued 64 (user [])) 0 (someCr 0)).isNone && ringCap (user []) 0 0 == 0,
    let s := ({ user [] with regs := [(ringdAddr 0 1, wd (2 ^ 52))] }).setLevel 0 1 { entries := List.replicate 64 (someCr 1) }
    ringCap s 0 1 == 64 && !isEdf s 0 1 && (enqueue s 0 (someCr 1)).any (fun t => (t.level 0 1).ring.length == 1 && (t.level 0 1).entries.length == 64)] = true := by
  decide +kernel

theorem witness_task_ends : all [
    (issues .doneTask (user []) []).isSome && gives .doneTask (user []) (fun t => t.mine == {} && (t.slot 1).state == .ready),
    !workWaits (user []) 0 0 && gives .yield (user []) (fun t => t.mine.pc == 0x104#64),
    let s := queued 1 (user [(1, 9)])
    workWaits s 0 0 && hasRoom s (homeQueue s 0) 0 && (markedCarry s.mine).isNone &&
      gives .yield s (fun t => t.mine == {} && (t.level 0 0).entries.map (fun c => c.pc) == [0#64, 0x104#64]),
    gives (.suspend 4) (user [(4, 0x11000), (1, 9)]) (fun t => t.mine == {} && read64 t.mem 0x11000 == 0x105#64 && read64 t.mem 0x11018 == 9#64),
    let s := user [(4, 0x11000), (5, 0)]
    (goes (checkAccess s (crElems 0x11000) .store false)).any (fun r => r.1.all parkable && (goes (holdAccess r.2 (r.1.map (fun p => (p, 8))) true)).isSome)] = true := by
  decide +kernel

/-- A parked or runnable CR at 0x11000 under a request, for WAKE by x4 with target x5. -/
def parked (w0 : Nat) (rtag : Nat) : State :=
  withReqs [(5, { state := .live, instant := BitVec.allOnes 64, parked := 1 })] (poke (poke (user [(4, 0x11000), (5, 0)]) 0x11000 8 w0) 0x11010 8 rtag)

theorem witness_wake : all [
    gives (.wake 3 4 5) (parked 0x404 5) (fun t => t.mine.xr 3 == 4#64 && (t.level 0 0).entries.isEmpty),
    gives (.wake 3 4 5) (parked 0x405 5) (fun t => t.mine.xr 3 == 0#64 && read64 t.mem 0x11000 == 0x404#64 && (t.req 5).parked == 0 &&
      (t.level 0 0).entries.map (fun c => (c.pc, c.rtag)) == [(0x404#64, 5)])] = true := by
  decide +kernel

/-- Slot 0 works for request 5, with x4 and x5 given, and the requests given beside it. -/
def under (q : Req) (l : List (Nat × Req)) (x4 x5 : Word) : State :=
  (withReqs ((5, q) :: l) (user [(4, x4), (5, x5)])).modSlot 0 (fun t => { t with rtag := 5 })

def live5 : Req := { state := .live, instant := 1000, cls := 1 }
def shared6 : Nat × Req := (6, { state := .live, shared := true, holds := 2, instant := BitVec.allOnes 64 })

theorem witness_requests : all [
    let s := under live5 [] 500 0
    (issues (.rfork 3 4 5) s [500, 0]).isSome && !annulKnown s 5 0 && gives (.rfork 3 4 5) s (fun t => t.mine.xr 3 == 100#64 &&
      t.req 100 == { state := .live, instant := 500, cls := 1, parent := 5 }),
    gives (.rfork 3 4 5) (under live5 [] 0 3) (fun t => t.mine.xr 3 == 0#64) &&
      gives (.rfork 3 4 5) ({ under live5 [] 9 3 with regs := [(pquotaAddr 0, 1)] }) (fun t => t.mine.xr 3 == 0#64),
    gives (.rforkSh 3 5) (under live5 [] 0 2) (fun t => t.mine.xr 3 == 100#64 && (t.req 5).held == [100, 0, 0, 0] && (t.req 100).holds == 1 && (t.req 100).shared),
    gives (.rforkSh 3 5) (under { live5 with shared := true } [] 0 2) (fun t => t.mine.xr 3 == 0#64),
    gives (.rhold 3 4) (under { live5 with shared := true } [shared6] 6 0) (fun t => t.mine.xr 3 == 3#64) &&
      gives (.rhold 3 4) (under live5 [] 6 0) (fun t => t.mine.xr 3 == 2#64) &&
      gives (.rhold 3 4) (under { live5 with held := [6, 0, 0, 0] } [shared6] 6 0) (fun t => t.mine.xr 3 == 0#64 && (t.req 6).holds == 2) &&
      gives (.rhold 3 4) (under { live5 with held := [7, 8, 9, 10] } [shared6] 6 0) (fun t => t.mine.xr 3 == 1#64) &&
      gives (.rhold 3 4) (under { live5 with held := [7, 8, 9, 0] } [shared6] 6 0) (fun t => t.mine.xr 3 == 0#64 && (t.req 5).held == [7, 8, 9, 6] && (t.req 6).holds == 3),
    gives (.rdrop 3 4) (user [(4, 6)]) (fun t => t.mine.xr 3 == 3#64) && gives (.rdrop 3 4) (under live5 [shared6] 6 0) (fun t => t.mine.xr 3 == 1#64) &&
      gives (.rdrop 3 4) (under { live5 with held := [0, 6, 0, 0] } [shared6] 6 0) (fun t => t.mine.xr 3 == 0#64 && (t.req 5).held == [0, 0, 0, 0] && (t.req 6).holds == 1),
    gives (.rcancel 3 4) (under live5 [(7, { live5 with parent := 5 })] 7 0) (fun t => t.mine.xr 3 == 1#64 && (t.req 7).state == .annulled && (t.req 7).why == 1),
    gives (.rretire 3 4) (under live5 [(7, { live5 with parent := 5 })] 7 0) (fun t => t.mine.xr 3 == 1#64 && (t.req 7).state == .retired && (t.req 7).why == 2),
    gives (.rcancel 3 4) (under live5 [(7, { live5 with parent := 5, state := .retired })] 7 0) (fun t => t.mine.xr 3 == 3#64),
    gives (.rretire 3 4) (under live5 [] 5 0) (fun t => t.mine == {} && (t.req 5).state == .retired),
    gives (.rstat 3 4 5) (under live5 [] 0 0) (fun t => t.mine.xr 3 == BitVec.allOnes 64) && gives (.rstat 3 4 5) (under live5 [] 9 0) (fun t => t.mine.xr 3 == 0#64) &&
      gives (.rstat 3 4 5) (under live5 [] 5 0) (fun t => t.mine.xr 3 == 1000#64) &&
      gives (.rstat 3 4 5) (under { live5 with parked := 4 } [] 5 4) (fun t => t.mine.xr 3 == 4#64)] = true := by
  decide +kernel

/-- A message, and core 0's class 2 bound to slot 0 with it queued. -/
def note : Msg := { rtag := 5, words := [11, 12], remote := false, peer := 0, score := 3, sslot := 4 }
def inbound (q : List Msg) (xs : List (Nat × Word)) : State := (user xs).setClass 0 2 { mode := .bound, slot := 0, queue := q }

theorem witness_messages : all [
    destOk (user []) 2 && (issues (.msend 4 9 1) (user [(4, 2), (9, 11), (10, 12)]) [2, 11, 12]).isSome,
    gives (.msend 4 9 1) (user [(4, 2), (9, 11), (10, 12)]) (fun t => t.here.ni.map (fun o => (o.cls, o.msg.words)) == [(2, [11, 12])] && t.mine.pc == 0x104#64),
    gives (.msend 4 9 0) ((user [(4, 2)]).modCore 0 (fun k => { k with ni := List.replicate 8 { dest := 0, cls := 2, msg := note } })) (fun t =>
      decide (t.mine.wait = some .interface)),
    gives (.msend 4 9 0) ({ user [(4, 0x4000)] with regs := [(peerrouteAddr 0, wd (2 ^ 63))] }) (fun t => t.outbox.length == 1 && t.mine.pc == 0x104#64),
    gives (.mrecv 6 4) (inbound [note] [(4, 2)]) (fun t => t.mine.xr 6 == 11#64 && t.mine.xr 7 == 12#64 && t.mine.xr 10 == msgHeader note && (t.msgClass 0 2).queue.isEmpty),
    gives (.mrecv 6 4) (inbound [] [(4, 2)]) (fun t => decide (t.mine.wait = some .message)),
    gives (.mbind 3 4 5) (user [(4, 0x30), (5, 0)]) (fun t => t.mine.xr 3 == 2#64) && gives (.mbind 3 4 5) (inbound [] [(4, 2), (5, 0)]) (fun t =>
      t.mine.xr 3 == 0#64 && (t.msgClass 0 2).mode == .off),
    gives (.mbind 3 4 5) ((user [(4, 0x12), (5, 0)]).setClass 0 2 { mode := .bound, slot := 7 }) (fun t => t.mine.xr 3 == 1#64),
    gives (.mbind 3 4 5) (inbound [note] [(4, 2)]) (fun t => t.mine.xr 3 == 1#64) && gives (.mbind 3 4 5) (user [(4, 0x12), (5, 1)]) (fun t => t.mine.xr 3 == 2#64) &&
      gives (.mbind 3 4 5) (user [(4, 0x42)]) (fun t => t.mine.xr 3 == 2#64) && gives (.mbind 3 4 5) (user [(4, 0x1A)]) (fun t => t.mine.xr 3 == 2#64),
    gives (.mbind 3 4 5) (user [(4, 0x12)]) (fun t => t.mine.xr 3 == 0#64 && (t.msgClass 0 2).mode == .bound && (t.msgClass 0 2).slot == 0) &&
      gives (.mbind 3 4 5) (user [(4, 0x22), (5, 0x801)]) (fun t => t.mine.xr 3 == 0#64 && (t.msgClass 0 2).mode == .pool && (t.msgClass 0 2).handler == 0x800#64)] = true := by
  decide +kernel

theorem witness_hatches : all [
    let s := user [(4, 0x10), (5, 0x10)]
    !bindInvalid 0 0x10 0x10 && !bindBusy s 0x10 0x10 && gives (.hbind 3 4 5) s (fun t => t.mine.xr 3 == 0#64 && (t.hatch 0 0).kind == 1 && (t.hatch 0 0).count == 0 &&
      (t.hatch 0 0).slotA == 0 && (t.hatch 0 0).slotB == 1),
    bindInvalid 0 0x100 0 && gives (.hbind 3 4 5) (user [(4, 0x100), (5, 0)]) (fun t => t.mine.xr 3 == 2#64),
    gives (.hbind 3 4 5) ((user [(4, 0x10), (5, 0x10)]).setHatch 0 0 { kind := 1, slotA := 7, slotB := 6 }) (fun t => t.mine.xr 3 == 1#64),
    gives (.hbind 3 4 5) (user [(4, 0x2F), (5, 0)]) (fun t => (t.hatch 0 15).kind == 2 && (t.hatch 0 15).slotA == 0),
    gives (.hstat 3 4) (user [(4, 16)]) (fun t => t.mine.xr 3 == BitVec.allOnes 64),
    gives (.hstat 3 4) (fifo.modSlot 0 (fun t => t.setX 4 0)) (fun t => t.mine.xr 3 == 0x01102#64)] = true := by
  decide +kernel

/-- Partition 0's tables map the first gigabyte as itself. -/
def mapped (s : State) : State :=
  { poke (poke (poke s 0x200000 8 0x202001) 0x202000 8 0x204001) 0x204000 8 0x27F with regs := (ptbaseAddr 0, 0x200001#64) :: s.regs }

/-- A Larder of one set at page 16, with the entries given; x4, x5 hold the name 7. -/
def larder (l : List LarderEntry) : State :=
  ({ mapped (user [(4, 7), (6, 0x99)]) with regs := [(ptbaseAddr 0, 0x200001#64), (plarderAddr 0, wd (16 * 65536 + 3))] }).setLarder 0 { entries := l }

def entry7 (st : LarderState) (pins : Nat) : LarderEntry := { name := 7, state := st, maker := 0, handle := 0x55, pins := pins, waiters := [] }

/-- The entry being made, with a waiter that core 0's queue takes; the pool holds two. -/
def awaited (f : LarderEntry → LarderEntry) : State :=
  let s := larder [f { entry7 .making 0 with waiters := [({ someCr 0 with instant := BitVec.allOnes 64, x := [0, 0, 0, 0, 0] }, 2, 0)] }]
  { s with regs := [(ptbaseAddr 0, 0x200001#64), (plarderAddr 0, wd (2 ^ 56 + 16 * 65536 + 3))] }

/-- The waiter is in the queue with a result. -/
def resumed (t : State) (code : Nat) (h : Word) : Bool := (t.level 0 0).entries.map (fun c => c.x) == [[0, wd code, h, 0, 0]]

theorem witness_larder_waiters : all [
    poolReached (awaited id) 0 && waitersHeld ((awaited id).larder 0) == 1 && waiterCap (awaited id) 0 == 2 && (markedCarry (awaited id).mine).isNone,
    gives (.claim 2 4) (awaited id) (fun t => t.mine == {} && (t.larder 0).entries.map (fun e => e.waiters.length) == [2]) &&
      gives (.claim 2 4) (awaited (fun e => { e with waiters := e.waiters ++ e.waiters })) (fun t => t.mine.xr 2 == 3#64),
    gives (.fulfil 3 4 6) (awaited id) (fun t => t.mine.xr 3 == 0#64 && (t.larder 0).entries.map (fun e => e.state) == [.ready] && resumed t 0 0x99) &&
      gives (.fulfil 3 4 6) (awaited (fun e => { e with maker := 5 })) (fun t => t.mine.xr 3 == 1#64) && gives (.fulfil 3 4 6) (larder []) (fun t => t.mine.xr 3 == 1#64),
    gives (.abandon 3 4) (awaited id) (fun t => t.mine.xr 3 == 0#64 && (t.larder 0).entries.map (fun e => e.state) == [.making] && resumed t 2 0),
    gives (.linval 3 4) (awaited id) (fun t => t.mine.xr 3 == 0#64 && (t.larder 0).entries.isEmpty && resumed t 4 0),
    gives (.lunpin 3 4) (awaited id) (fun t => t.mine.xr 3 == 1#64) && gives (.lunpin 3 4) (larder []) (fun t => t.mine.xr 3 == 1#64)] = true := by
  decide +kernel

theorem witness_larder : all [
    larderLog2 (larder []) 0 == 3 && (setPa (larder []) 0 (larderSet 7 3)).isSome && (issues (.claim 2 4) (larder []) [7, 0]).isSome,
    gives (.claim 2 4) (larder [entry7 .ready 0]) (fun t => t.mine.xr 2 == 0#64 && t.mine.xr 3 == 0x55#64),
    gives (.claim 2 4) (larder []) (fun t => t.mine.xr 2 == 1#64 && (t.larder 0).entries.map (fun e => e.state) == [.making]),
    gives (.claim 2 4) (larder ((List.range 8).map (fun i => { entry7 .ready 1 with name := BitVec.ofNat 128 (8 + i) }))) (fun t => t.mine.xr 2 == 3#64),
    gives (.claim 2 4) (user [(4, 7)]) (fun t => t.mine.xr 2 == 4#64),
    gives (.fulfil 3 4 6) (larder [entry7 .making 0]) (fun t => t.mine.xr 3 == 0#64 && (t.larder 0).entries.map (fun e => (e.state, e.handle)) == [(.ready, 0x99#64)]),
    gives (.abandon 3 4) (larder [entry7 .making 0]) (fun t => t.mine.xr 3 == 0#64 && (t.larder 0).entries.isEmpty),
    gives (.abandon 3 4) (larder []) (fun t => t.mine.xr 3 == 1#64),
    gives (.lpin 3 4) (larder [entry7 .ready 65534]) (fun t => t.mine.xr 3 == 0#64 && (t.larder 0).entries.map (fun e => e.pins) == [65535]) &&
      gives (.lpin 3 4) (larder [entry7 .ready 65535]) (fun t => t.mine.xr 3 == 2#64) && gives (.lpin 3 4) (larder []) (fun t => t.mine.xr 3 == 1#64),
    gives (.lunpin 3 4) (larder [entry7 .ready 1]) (fun t => t.mine.xr 3 == 0#64 && (t.larder 0).entries.map (fun e => e.pins) == [0]) &&
      gives (.lunpin 3 4) (larder [entry7 .ready 0]) (fun t => t.mine.xr 3 == 1#64),
    gives (.linval 3 4) (larder [entry7 .ready 0]) (fun t => t.mine.xr 3 == 0#64 && (t.larder 0).entries.isEmpty) &&
      gives (.linval 3 4) (larder [entry7 .ready 1]) (fun t => t.mine.xr 3 == 2#64) && gives (.linval 3 4) (larder []) (fun t => t.mine.xr 3 == 1#64)] = true := by
  decide +kernel

/-! Vectors (R237-R258). -/

/-- A slot with 16 lanes and VL 2; lanes 0 and 1 of the registers given, and masks 1 (lane 0) and 2 (lane 1). -/
def lanes (l : List (Nat × Nat × Nat)) (xs : List (Nat × Word)) : State :=
  (vec xs).modSlot 0 (fun t => l.foldl (fun t r => (t.setV r.1 0 (BitVec.ofNat 32 r.2.1)).setV r.1 1 (BitVec.ofNat 32 r.2.2))
    { t with vl := 2, m := [(1, 0xF), (2, 0xF0)] })

/-- v2 and v3 hold the lanes given, v1 holds 9 and 9; `i` issues and completes, its sources unmarked, and leaves the lanes given in v1. -/
def onLanes (i : Instr) (a b r : Nat × Nat) (vt : BitVec 3 := 0) : Bool :=
  let s := (lanes [(1, 9, 9), (2, a.1, a.2), (3, b.1, b.2)] []).modSlot 0 (fun t => { t with vtype := vt })
  (issues i s []).any (fun s1 => (markedLane s1.mine [1, 2, 3] [0, 1]).isNone &&
    gives i s (fun t => (t.mine.vr 1 0).toNat == r.1 && (t.mine.vr 1 1).toNat == r.2 && t.mine.vr 1 2 == 0 && t.mine.pc == s1.mine.pc + (if isShort i then 2 else 4)))

theorem witness_vector_integer : all [
    onLanes (.vadd 1 2 3 0 0) (0xFFFFFFFF, 1) (2, 2) (1, 3), onLanes (.vadd 1 2 3 2 0) (5, 5) (2, 2) (9, 7), onLanes (.vadd 1 2 3 0 4) (0xFF01FF01, 0) (0x02020202, 0) (0x01030103, 0),
    onLanes (.vsub 1 2 3 0 2) (0x00010000, 0) (0x00020001, 0) (0xFFFFFFFF, 0), onLanes (.vmul 1 2 3 0 1) (0x10000, 7) (0x10000, 6) (0, 42),
    onLanes (.vmin 1 2 3 0 0) (0xFFFFFFFF, 3) (1, 2) (0xFFFFFFFF, 2), onLanes (.vmin 1 2 3 0 1) (0xFFFFFFFF, 3) (1, 2) (1, 2),
    onLanes (.vmax 1 2 3 0 0) (0xFFFFFFFF, 3) (1, 2) (1, 3), onLanes (.vmin 1 2 3 0 6) (0xBF800000, 0) (0x3F800000, 0) (0xBF800000, 0),
    onLanes (.vabs 1 3 0 0) (0, 0) (0xFFFFFFFF, 0x80000000) (1, 0x80000000), onLanes (.vneg 1 3 0 4) (0, 0) (0x01FF8000, 0) (0xFF018000, 0),
    onLanes (.vneg 1 3 0 6) (0, 0) (0x3F800000, 0) (0xBF800000, 0x80000000), onLanes (.vand 1 2 3 0 0) (12, 5) (10, 3) (8, 1), onLanes (.vor 1 2 3 0 0) (12, 5) (10, 3) (14, 7),
    onLanes (.vxor 1 2 3 0 0) (12, 5) (10, 3) (6, 6), onLanes (.vnot 1 3 1 0) (0, 0) (0xFF, 0) (0xFFFFFF00, 9), onLanes (.vshl 1 2 3 0 0) (3, 1) (33, 31) (6, 0x80000000),
    onLanes (.vshr 1 2 3 0 0) (0x80000000, 4) (31, 2) (1, 1), onLanes (.vsra 1 2 3 0 0) (0x80000000, 4) (31, 2) (0xFFFFFFFF, 1), onLanes (.vmov 1 3 0 0) (0, 0) (5, 6) (5, 6)] = true := by
  decide +kernel

theorem witness_vector_float : all [
    onLanes (.vfadd 1 2 3 0 6 0) (0x3F800000, 0x40000000) (0x40000000, 0xC0000000) (0x40400000, 0), onLanes (.vfsub 1 2 3 0 5 0) (0x3C003C00, 0) (0x40003C00, 0) (0xBC000000, 0),
    onLanes (.vfmul 1 2 3 0 7 0) (0x40004040, 0) (0x40404000, 0) (0x40C040C0, 0), onLanes (.vfma 1 2 3 0 6 0) (0, 0) (0, 0) (9, 9),
    onLanes (.vfms 1 2 3 0 6 0) (0x3F800000, 0) (0x40000000, 0) (0xC0000000, 9), onLanes (.vsqrt 1 3 0 0) (0, 0) (0x40800000, 0) (0x40000000, 0),
    onLanes (.vrcp 1 3 0 0) (0, 0) (0x40000000, 0x3F800000) (0x3F000000, 0x3F800000), onLanes (.vrsq 1 3 0 0) (0, 0) (0x40800000, 0x3F800000) (0x3F000000, 0x3F800000),
    onLanes (.vexp2 1 3 0 0) (0, 0) (0x40000000, 0) (0x40800000, 0x3F800000), onLanes (.vlog2 1 3 0 0) (0, 0) (0x40800000, 0x3F800000) (0x40000000, 0),
    gives (.vfadd 1 2 3 0 6 0) (lanes [(2, 0x7F800000, 0), (3, 0xFF800000, 0)] []) (fun t => t.mine.vr 1 0 == 0x7FC00000#32 && t.mine.vflags != 0)] = true := by
  decide +kernel

/-- The 16-bit forms, with the first source their destination (9 in each lane), under an element type of VTYPE. -/
theorem witness_vector_short : all [
    onLanes (.vadd16 1 3) (0, 0) (1, 2) (10, 11), onLanes (.vadd16 1 3) (0, 0) (0, 0) (9, 9) 6, onLanes (.vsub16 1 3) (0, 0) (1, 10) (8, 0xFFFFFFFF),
    onLanes (.vsub16 1 3) (0, 0) (0, 0) (9, 9) 6, onLanes (.vmul16 1 3) (0, 0) (2, 3) (18, 27), onLanes (.vmul16 1 3) (0, 0) (0, 0) (0, 0) 6,
    onLanes (.vmin16 1 3) (0, 0) (2, 30) (2, 9), onLanes (.vmax16 1 3) (0, 0) (2, 30) (9, 30), onLanes (.vabs16 1 3) (0, 0) (0xFFFFFFFF, 3) (1, 3),
    onLanes (.vneg16 1 3) (0, 0) (1, 0) (0xFFFFFFFF, 0), onLanes (.vand16 1 3) (0, 0) (8, 1) (8, 1), onLanes (.vor16 1 3) (0, 0) (6, 1) (15, 9),
    onLanes (.vxor16 1 3) (0, 0) (1, 9) (8, 0), onLanes (.vnot16 1 3) (0, 0) (0, 1) (0xFFFFFFFF, 0xFFFFFFFE), onLanes (.vshl16 1 3) (0, 0) (1, 32) (18, 9),
    onLanes (.vshr16 1 3) (0, 0) (1, 3) (4, 1), onLanes (.vsra16 1 3) (0, 0) (1, 3) (4, 1), onLanes (.vmov16 1 3) (0, 0) (4, 5) (4, 5),
    onLanes (.vrcp16 1 3) (0, 0) (0x40000000, 0x3F800000) (0x3F000000, 0x3F800000) 6,
    let s := (lanes [] []).modSlot 0 (fun t => { t with vtype := 5 })
    leaves (.vshl16 1 3) s (trap s .illegalOp (encodingOf (.vshl16 1 3))) && leaves (.vshr16 1 3) s (trap s .illegalOp (encodingOf (.vshr16 1 3))) &&
      leaves (.vsra16 1 3) s (trap s .illegalOp (encodingOf (.vsra16 1 3))) && leaves (.vrcp16 1 3) s (trap s .illegalOp (encodingOf (.vrcp16 1 3)))] = true := by
  decide +kernel

theorem witness_vector_moves : all [
    gives (.vsplat 1 4 0 0) (lanes [] [(4, 0x100000007)]) (fun t => t.mine.vr 1 0 == 7#32 && t.mine.vr 1 1 == 7#32),
    onLanes (.viota 1 0 4) (0, 0) (0, 0) (0x03020100, 0x07060504), onLanes (.viota 1 0 6) (0, 0) (0, 0) (0, 0x3F800000),
    onLanes (.vsel 1 2 3 1 0) (5, 5) (6, 6) (5, 6), onLanes (.vcvt 1 6 3 0 7 0) (0, 0) (0x3F800000, 0x40000000) (0x40003F80, 9),
    onLanes (.vcvt 1 7 3 0 6 0) (0, 0) (0x40003F80, 7) (0x3F800000, 0x40000000), onLanes (.vcvt 1 0 3 0 6 0) (0, 0) (0xFFFFFFFF, 2) (0xBF800000, 0x40000000),
    gives (.vextr 6 4 2 0 4) (lanes [(2, 0x80818283, 0)] [(4, 1)]) (fun t => t.mine.xr 6 == 0xFFFFFFFFFFFFFF82#64),
    gives (.vextr 6 4 2 2 0) (lanes [(2, 5, 6)] [(4, 0), (6, 1)]) (fun t => t.mine.xr 6 == 0#64) && gives (.vextr 6 4 2 0 0) (lanes [(2, 5, 6)] [(4, 2), (6, 1)])
      (fun t => t.mine.xr 6 == 0#64) && gives (.vextr 6 4 2 0 1) (lanes [(2, 5, 0xFFFFFFFF)] [(4, 1)]) (fun t => t.mine.xr 6 == 0xFFFFFFFF#64)] = true := by
  decide +kernel

/-- The bits of mask 3, all set before, after `i` on v2 and v3; VL is 2, so eight bits are written. -/
def masks (i : Instr) (a b : Nat × Nat) (r : Nat) : Bool :=
  let s := (lanes [(2, a.1, a.2), (3, b.1, b.2)] []).modSlot 0 (fun t => { t with m := put 3 0x3FF#512 t.m })
  (issues i s []).isSome && gives i s (fun t => look 0 3 t.mine.m == BitVec.ofNat 512 (0x300 + r))

theorem witness_masks : all [
    masks (.vcmp 3 2 3 0 0 2) (0xFFFFFFFF, 3) (0, 3) 0x01, masks (.vcmp 3 2 3 0 4 3) (0x01020304, 0) (0x01030303, 0) 0xFB, masks (.vcmp 3 2 3 2 1 0) (1, 1) (1, 1) 0x10,
    masks (.mand 3 1 2) (0, 0) (0, 0) 0, masks (.mor 3 1 2) (0, 0) (0, 0) 0xFF, masks (.mnot 3 1) (0, 0) (0, 0) 0xF0, masks (.mnot 3 0) (0, 0) (0, 0) 0,
    gives (.mpop 6 2) (lanes [] []) (fun t => t.mine.xr 6 == 4#64) && gives (.mpop 6 0) (lanes [] []) (fun t => t.mine.xr 6 == 8#64),
    gives (.mfirst 6 2) (lanes [] []) (fun t => t.mine.xr 6 == 4#64) && gives (.mfirst 6 5) (lanes [] []) (fun t => t.mine.xr 6 == BitVec.allOnes 64),
    gives (.mand 0 1 2) (lanes [] []) (fun t => t.mine.m == (lanes [] []).mine.m)] = true := by
  decide +kernel

theorem witness_reductions_and_permutes : all [
    onLanes (.vred 1 0 3 0 0) (0, 0) (40, 2) (42, 9), onLanes (.vred 1 1 3 0 0) (0, 0) (0xFFFFFFFF, 2) (0xFFFFFFFF, 9), onLanes (.vred 1 3 3 2 0) (0, 0) (7, 5) (5, 9),
    onLanes (.vred 1 1 3 3 0) (0, 0) (7, 5) (0x7FFFFFFF, 9), onLanes (.vscan 1 0 3 0 0) (0, 0) (40, 2) (40, 42), onLanes (.vscan 1 0 3 0 4) (0, 0) (0x01010101, 1) (0x04030201, 0x05050505 + 0),
    onLanes (.vperm 1 2 3 0) (10, 20) (1, 0) (20, 10), onLanes (.vperm 1 2 3 0) (10, 20) (2, 0) (10, 10),
    gives (.vslide 1 2 4 1) (lanes [(1, 9, 9), (2, 10, 20)] [(4, 1)]) (fun t => t.mine.vr 1 0 == 10#32 && t.mine.vr 1 1 == 9#32 && look 0 1 t.mine.m == 0#512),
    gives (.vslide 1 2 4 4) ((lanes [(2, 10, 20)] [(4, -1)]).modSlot 0 (fun t => { t with m := put 4 0xFF#512 t.m })) (fun t =>
      t.mine.vr 1 0 == 10#32 && t.mine.vr 1 1 == 10#32 && look 0 4 t.mine.m == 0xF0#512)] = true := by
  decide +kernel

theorem witness_lanes : all [
    gives (.vclaim 3 4) (user [(4, 17)]) (fun t => t.mine.xr 3 == 32#64 && t.mine.grant == 32 && t.mine.vl == 32),
    gives (.vclaim 3 4) (user [(4, 1000)]) (fun t => t.mine.grant == 128) && gives (.vclaim 3 4) (lanes [(2, 5, 6)] [(4, 1)]) (fun t => t.mine.grant == 16 && t.mine.vr 2 1 == 6#32) &&
      gives (.vclaim 3 4) ((user [(4, 100)]).modSlot 1 (fun t => { t with grant := 96, vl := 96 })) (fun t => t.mine.grant == 32) &&
      gives (.vclaim 3 4) (lanes [(2, 5, 6)] [(4, 0)]) (fun t => t.mine.grant == 0 && t.mine.vr 2 1 == 0#32),
    gives .vyield (lanes [(2, 5, 6)] []) (fun t => t.mine.grant == 0 && t.mine.vl == 0) && gives .vyield (user []) (fun t => t.mine.pc == 0x104#64)] = true := by
  decide +kernel

/-- A vector access of the elements given passes, all its places this device's. -/
def vecPasses (s : State) (l : List Elem) (acc : Access) (logs : Bool) (direct : Bool) : Bool :=
  (goes (checkAccess s l acc logs)).any (fun r => (goes (holdAccess r.2 (r.1.map (fun p => (p, (l.headD { a := 0, n := 0 }).n))) false)).isSome &&
    r.1.all (fun p => p.own && (!direct || p.direct)) && r.2.bad.isEmpty)

/-- v3 holds 10 and 20, or the indexes 0 and 2; memory bytes 1, 2, ... from 0x10000. -/
def vecMem (x4 x5 : Word) (v3 : Nat × Nat) : State :=
  poke (lanes [(3, v3.1, v3.2)] [(4, x4), (5, x5)]) 0x10000 16 0x100F0E0D0C0B0A090807060504030201

theorem witness_vector_memory : all [
    vecPasses (vecMem 0x10000 0 (0, 2)) [{ a := 0x10000, n := 4 }, { a := 0x10004, n := 4, lane := 1 }] .vload false true,
    vecPasses (vecMem 0x10000 0 (0, 2)) [{ a := 0x10000, n := 4 }, { a := 0x10004, n := 4, lane := 1 }] .vstore true true,
    vecPasses (opened (vecMem 0xFF01000000000000 0 (0, 2))) [] .vload false true,
    gives (.vld 1 4 2 0) (vecMem 0x10000 0 (0, 2)) (fun t => t.mine.vr 1 0 == 0x04030201#32 && t.mine.vr 1 1 == 0x08070605#32 && t.mine.pc == 0x104#64),
    gives (.vld 1 4 0 2) (vecMem 0x10000 0 (0, 2)) (fun t => t.mine.vr 1 0 == 0#32 && t.mine.vr 1 1 == 0x08070605#32),
    gives (.vlds 1 4 5 2 0) (vecMem 0x10000 8 (0, 2)) (fun t => t.mine.vr 1 0 == 0x04030201#32 && t.mine.vr 1 1 == 0x0C0B0A09#32),
    gives (.vgath 1 4 3 2 0) (vecMem 0x10000 0 (0, 2)) (fun t => t.mine.vr 1 0 == 0x04030201#32 && t.mine.vr 1 1 == 0x0C0B0A09#32),
    gives (.vst 3 4 2 0) (vecMem 0x10000 0 (10, 20)) (fun t => leNat (t.mem.readN 0x10000 8) == 0x140000000A),
    gives (.vsts 3 4 5 2 2) (vecMem 0x10000 8 (10, 20)) (fun t => leNat (t.mem.readN 0x10000 12) == 0x140807060504030201),
    gives (.vscat 3 4 3 2 0) (vecMem 0x10000 0 (1, 2)) (fun t => leNat (t.mem.readN 0x10000 12) == 0x000000020000000104030201),
    gives (.vstl 3 4 2 0) ((vecMem 0xFF01000000000010 0 (10, 20)).modSlot 0 (fun t => { t with mode := true })) (fun t =>
      t.mem.read (locLane 0 0 0x10) == 10#8 && t.mem.read (locLane 0 1 0x10) == 20#8 && t.mine.pc == 0x104#64),
    gives (.vldl 1 4 2 0) (poke ((vecMem 0xFF01000000000010 0 (10, 20)).modSlot 0 (fun t => { t with mode := true })) (locLane 0 1 0x10) 4 0x55) (fun t =>
      t.mine.vr 1 1 == 0x55#32 && t.mine.vr 1 0 == 0#32)] = true := by
  decide +kernel

/-! The matrix unit and key selection (R260-R287). -/

/-- M = N = 1 and K = 2 of T8 by T8: A = 0x48, 0x40 at scratchpad 0x40 and B = 0x58, 0x56 at 0x80; x4, x5 given. -/
def mats (x4 x5 : Word) : State :=
  poke (poke ((opened (vec [(4, x4), (5, x5)])).modSlot 0 (fun t => { t with
    shape := 0x20101, fmt := 5, aBase := 0xFF00000000000040, aStride := 2, bBase := 0xFF00000000000080, bStride := 1 }))
    (locScratch 0 0x40) 2 0x4048) (locScratch 0 0x80) 2 0x5658

theorem witness_matrix_configuration : all [
    (issues (.mcfgShape 4) (mats 0xFFFF2040 0) [0xFFFF2040]).any (fun s1 => leaves (.mcfgShape 4) (mats 0xFFFF2040 0) (advance (s1.modMe (fun t => { t with shape := 0xFFFF2040 })) 4)),
    gives (.mcfgShape 4) (mats 0x41 0) (fun t => t.mine.trapcause == 0x10#8 && t.mine.trapval == 0x1000000000000041#64),
    (issues (.mcfgFmt 4) (mats 0x1F 0) [0x1F]).any (fun s1 => leaves (.mcfgFmt 4) (mats 0x1F 0) (advance (s1.modMe (fun t => { t with fmt := 0x1F })) 4)),
    gives (.mcfgFmt 4) (mats 0x2 0) (fun t => t.mine.trapval == 0x2000000000000002#64),
    gives (.mcfgA 4 5) (mats 8 0x3FFFF) (fun t => t.mine.aBase == 8#64 && t.mine.aStride == 0x3FFFF#64) && gives (.mcfgA 4 5) (mats 8 0x40000) (fun t => t.mine.trapval == 0x3000000000040000#64),
    gives (.mcfgB 4 5) (mats 8 0x3FFFF) (fun t => t.mine.bBase == 8#64 && t.mine.bStride == 0x3FFFF#64) && gives (.mcfgB 4 5) (mats 8 0x40000) (fun t => t.mine.trapval == 0x3000000000040000#64),
    cellOk 0x100000020 && gives (.mcell 4) (mats 0x100000020 0) (fun t => t.mine.cell == 0x100000020#64) && gives (.mcell 4) (mats 7 0) (fun t => t.mine.trapval == 0x5000000000000007#64)] = true := by
  decide +kernel

/-- A region's checks, then what would hold it, pass. -/
def regions (s : State) (l : List (Word × Nat × Nat × Nat × Nat × Access)) (op : UnitOp) : Option State :=
  (l.foldl (fun (r : Option State) x => r.bind (fun s => (goes (regionCheck s x.1 x.2.1 x.2.2.1 x.2.2.2.1 x.2.2.2.2.1 x.2.2.2.2.2)).map (fun y => y.2))) (some s)).bind
    (fun s => (goes (holdAccess s (unitRegions s s.me op) false)).map (fun y => y.2))

def claimed (s : State) (n : Nat) : Option State := (goes (claim s n)).map (fun r => r.2)

/-- The state in which `i` has entered the unit as `op`. -/
def inUnit (i : Instr) (s : State) (op : UnitOp) : Option State :=
  (next (exec i s)).filter (fun t => decide (t.here.unitBusy = some (0, op)) && decide (t.mine.wait = some .matrix) && t.mine.pc == 0x100#64)

theorem witness_unit_issues : all [
    let s := mats 0 0
    (issues .mma s []).any (fun s1 => (claimed s1 0).any (fun s2 => (regions s2 [(0xFF00000000000040, 1, 2, 2, 1, .load), (0xFF00000000000080, 2, 1, 1, 1, .load)]
      (.mma false 0 none)).any (fun s5 => (inUnit .mma s (.mma false 0 (some s5.mem))).isSome && (inUnit .mmaZ s (.mma true 0 (some s5.mem))).isSome))),
    (issues (.mzero 4) (mats 3 0) [3]).any (fun s1 => (claimed s1 1).isSome && (inUnit (.mzero 4) (mats 3 0) (.mzero 3)).isSome),
    let s := mats 0xFF00000000000100 0x1000
    (issues (.mload 4 5) s [0xFF00000000000100, 0x1000]).any (fun s1 => (claimed s1 0).any (fun s2 =>
      (regions s2 [(0xFF00000000000100, 1, 16, 1, 16, .load)] (.mload 0xFF00000000000100 0x1000)).isSome)) && outOk 0x1000 false &&
      (inUnit (.mload 4 5) s (.mload 0xFF00000000000100 0x1000)).isSome,
    let s := mats 0xFF00000000000100 0x401
    (issues (.mstore 6 4 5 0) s [0xFF00000000000100, 0x401]).any (fun s1 => (claimed s1 0).any (fun s2 =>
      (regions s2 [(0xFF00000000000100, 1, 4, 1, 4, .store)] (.mstore 6 0xFF00000000000100 0x401 0)).isSome)) && outOk 0x401 true &&
      (inUnit (.mstore 6 4 5 0) s (.mstore 6 0xFF00000000000100 0x401 0)).isSome,
    let s := mats 0xFF00000000000100 0xFF00000000000110
    (issues (.mscale 4 5) s [0xFF00000000000100, 0xFF00000000000110]).any (fun s1 => (claimed s1 0).any (fun s2 => (claimed s2 1).any (fun s3 =>
      (regions s3 [(0xFF00000000000100, 1, 0, 1, 2, .load), (0xFF00000000000110, 1, 0, 1, 2, .load)] (.mscale 0xFF00000000000100 0xFF00000000000110 0)).isSome))) &&
      (inUnit (.mscale 4 5) s (.mscale 0xFF00000000000100 0xFF00000000000110 0)).isSome] = true := by
  decide +kernel

/-- An operation in the unit, with the first cell of each accumulator given. -/
def busy (s : State) (op : UnitOp) (a0 a1 : BitVec 96) : State :=
  (s.modCore 0 (fun k => { k with unitBusy := some (0, op), acc0 := { owner := some 0, cells := put 0 a0 [] }, acc1 := { owner := some 0, cells := put 0 a1 [] } })).modSlot 0
    (fun t => { t with wait := some .matrix, state := .waiting })

def completes (op : UnitOp) (s : State) (a0 a1 : BitVec 96) (f : State → Bool) : Bool :=
  let t := busy s op a0 a1
  unitClear t 0 op && (t.core 0).unitNext.isNone && gives (.matrixOpComplete 0) t (fun u => u.here.unitBusy.isNone && u.mine.pc == 0x104#64 && f u)

/-- The manual's MMA.z, MSCALE and MSTORE of one cell (R272). -/
theorem witness_unit_completes : all [
    let s := busy (mats 0 0) (.mma true 0 (some (mats 0 0).mem)) 5 0
    unitClear s 0 (.mma true 0 (some s.mem)) && s.here.unitBusy == some (0, .mma true 0 (some s.mem)) && leNat (s.mem.readN (operandLoc 0 s.mine.aBase) 2) == 0x4048 &&
      (mmaStep s.mine (mmaStep s.mine 0 0x48 0x58).1 0x40 0x56).1 == 0x740000000#96,
    completes (.mscale 0xFF00000000000100 0xFF00000000000110 0) (poke (poke (mats 0 0) (locScratch 0 0x100) 2 0x3F00) (locScratch 0 0x110) 2 0x4000) 0x740000000 0
      (fun t => t.here.acc1.cell 0 0 == 0x4001D0000000000000000000#96),
    completes (.mstore 6 0xFF00000000000100 0x401 0) ((mats 0 0).modSlot 0 (fun t => { t with fmt := 0x1F })) 0 0x4001D0000000000000000000
      (fun t => leNat (t.mem.readN (locScratch 0 0x100) 4) == 0x40E80000 && t.mine.xr 6 == 0#64),
    completes (.mstore 6 0xFF00000000000100 0x1000 0) (mats 0 0) 0x740000000 0 (fun t => leNat (t.mem.readN (locScratch 0 0x100) 16) == 0x740000000 && t.mine.xr 6 == 0#64),
    completes (.mload 0xFF00000000000100 0x1000) (poke (mats 0 0) (locScratch 0 0x100) 16 0x123456) 9 0 (fun t => t.here.acc0.cell 0 0 == 0x123456#96),
    completes (.mzero 3) (mats 0 0) 9 9 (fun t => decide (t.here.acc1 = {}) && t.here.acc0.cell 0 0 == 9#96)] = true := by
  decide +kernel

def at0 (n : Nat) : Word := wd (0xFF00000000000000 + n)

/-- The parameter block, descriptor and list that key-selection instructions read, in page 0 from 0x1000, 0x2000 and 0x3000. -/
def block (w : List Nat) (desc : List Nat) (list : List Nat) (x4 x5 : Word) : State :=
  let put8 := fun (s : State) (a : Nat) (l : List Nat) => l.zipIdx.foldl (fun s x => poke s (a + 8 * x.2) 8 x.1) s
  put8 (put8 (put8 (((opened (vec [(4, x4), (5, x5)])).modCore 0 (fun k => { k with featmask := 3 })).modSlot 0 (fun t => { t with grant := 128, vl := 128 })) 0x1000 w)
    0x2000 desc) 0x3000 list

/-- Six pages of a sequence of 384 tokens, included ones only: first and last, and every second. -/
theorem witness_key_selection : all [
    let s := block [0x2000, 6 * 2 ^ 32, 1 + 2 ^ 16 + 3 * 2 ^ 48, 0xFF00000000000200] [0, 0, 0x10000, 384 * 2 ^ 32] [] 0x1000 2
    (issues (.ksel 3 4 5) s [0x1000, 2]).any (fun s1 => (goes (readWords s1 0 0x1000 4)).any (fun r => (goes (readDesc r.2 4 0x2000 0x1000)).any (fun d =>
      (descOf d.1).len == 384 && (goes (regionCheck d.2 0xFF00000000000200 1 0 4 8 .store)).any (fun q => (markedLane q.2.mine [2] (List.range 64)).isNone &&
        (goes (recordPlaces q.2 (descOf d.1) [1, 2, 3, 4])).any (fun v => v.1.map (fun x => x.1) == [1, 2, 3, 4] &&
          gives (.ksel 3 4 5) s (fun t => decide (t.mine.wait = some .keyUnit) && (t.cluster 0).keys == [(0, .select 3 0x1000 r.1 d.1 2 v.1)] &&
            keyClear t 0 (.select 3 0x1000 r.1 d.1 2 v.1) && (markedLane s1.mine [2] (List.range 32)).isNone && (match (readRecords (leaveKeys t 0) 0 0 v.1).1 with
              | .ok z => z.length == 4 && z.all (fun x => !recordGood (descOf d.1) x.2)
              | .error _ => false))))))),
    let s := block [0x2000, 6 * 2 ^ 32, 1 + 2 ^ 16 + 2 ^ 33 + 3 * 2 ^ 48, 0xFF00000000000200] [0, 0, 0x10000, 384 * 2 ^ 32] [] 0x1000 2
    gives (.ksel 3 4 5) s (fun t => gives (.matrixOpComplete 0) t (fun t => t.mine.xr 3 == 3#64 && t.mine.pc == 0x104#64 && (t.cluster 0).keys.isEmpty &&
      (List.range 4).map (fun i => leNat (t.mem.readN (locScratch 0 (0x200 + 8 * i)) 8)) == [3, 0x7F80000000000000, 0x7F80000000000002, 0x7F80000000000005])) &&
    gives (.ksel 3 4 5) s (fun t => gives (.matrixOpComplete 0) { t with bad := (List.range 64).map (fun i => 0x10000 + 64 * i) } (fun t => t.mine.trapcause == 0x0B#8)),
    choosePages [0, 5] [(1, 0x40000000), (2, 0x40E00000), (3, 0x40E00000)] 3 == [(0, 0x7F800000), (2, 0x40E00000), (5, 0x7F800000)]] = true := by
  decide +kernel

theorem witness_key_records : all [
    let s := block [] [] [] 0x30000 0
    (goes (checkAccess s [{ a := 0x30000, n := 1 }] .summary false)).any (fun r => match r.1 with
      | [.global _ pa leaf ext] => leafSm leaf && pa % 65536 % pageBytes (extDc ext) (extKf ext) == 0 &&
          leaves (.ksreset 4) s (advance (publishCells r.2 (resetCells r.2.mem ext pa) 0 none none) 4) && r.2.mem.wf &&
          gives (.ksreset 4) s (fun t => leNat (t.mem.readN (recordPa ext (pa % 65536)) 4) == 1 && leNat (t.mem.readN (recordPa ext (pa % 65536) + 14) 4) == 0x7F800000 &&
            leNat (t.mem.readN (recordPa ext (pa % 65536) + 16 + 2 * dcChannels (extDc ext)) 2) == 0xFF80)
      | _ => false),
    let s := block [0x2000, 0x3000, 0xFF00000000000200, 0xFF00000000004200] [0, 0, 0x10000, 384 * 2 ^ 32] [2, 0, 3] 0x1000 0
    (issues (.kgather 4) s [0x1000]).any (fun s1 => (goes (readWords s1 0 0x1000 8)).any (fun r => (goes (readDesc r.2 8 0x2000 0x1000)).any (fun d =>
      (goes (readWords d.2 16 0x3000 1)).any (fun c => (goes (readWords c.2 17 0x3008 2)).any (fun l => l.1 == [0, 3] && tagAllowed l.2 0 0 && copyRoom l.2 0 && l.2.here.board.isEmpty))))) &&
      gives (.kgather 4) s (fun t => t.mine.pc == 0x104#64 && t.here.board.length == 2 && (t.cluster 0).copies.map (fun x => (x.total, x.plan)) ==
        [(16384, [(0, at0 0x200, 4096), (0x3000, at0 0x1200, 4096), (0, at0 0x4200, 4096), (0x3000, at0 0x5200, 4096)])]),
    let ends := fun (w : List Nat) (l : List (Nat × Req)) (v : Word) => gives (.kgather 4) { block w [0, 0, 0x10000, 384 * 2 ^ 32] [2, 0, 3] 0x1000 0 with reqs := l } (fun t =>
      t.mine.pc == 0x104#64 && t.here.board.isEmpty && (t.cluster 0).copies.isEmpty && read64 t.mem (locScratch 0 0x300) == v)
    ends [0x2000, 0x3000, 0xFF00000000000200, 0xFF0000000003F200, 0, 0xFF00000000000300] [] 0xC003000000000000 &&
      ends [0x2000, 0x3000, 0xFF00000000000200, 0xFF00000000004200, 0, 0xFF00000000000300, 5] [(5, { state := .annulled })] 0x8000000000000000] = true := by
  decide +kernel

/-- Four logits, the second and the third greatest. -/
def logits (t : Nat) (x5 : Word) : State :=
  poke (block [0xFF00000000000200, 4 * 2 ^ 32 + 4, t, 0, 0, 0] [] [] 0x1000 x5) (locScratch 0 0x200) 16 0x3F80000040000000400000007FC00000

/-- A DRAW of the logits enters the unit and completes there. -/
def draws (i : Instr) (x5 : Word) (f : State → Bool) : Bool :=
  gives i (logits 0 x5) (fun t => decide (t.mine.wait = some .keyUnit) && gives (.matrixOpComplete 0) t (fun u => u.mine.pc == 0x104#64 && f u))

theorem witness_draw : all [
    (issues (.drawG 3 4) (logits 0 0) [0x1000]).any (fun s1 => (goes (readWords s1 0 0x1000 6)).any (fun r =>
      (goes (regionCheck r.2 0xFF00000000000200 1 0 4 4 .load)).any (fun q => q.2.bad.isEmpty &&
        gives (.drawG 3 4) (logits 0 0) (fun t => (t.cluster 0).keys == [(0, .draw 3 false r.1 none)] && keyClear t 0 (.draw 3 false r.1 none) &&
          t.mine.pc == 0x100#64) &&
        gives (.drawS 3 4) (logits 0 0) (fun t => (t.cluster 0).keys == [(0, .draw 3 true r.1 none)])))),
    draws (.drawG 3 4) 0 (fun t => t.mine.xr 3 == 1#64) && draws (.drawS 3 4) 0 (fun t => t.mine.xr 3 == 1#64),
    draws (.drawV 3 4 5) 1 (fun t => t.mine.xr 3 == 0x100000001#64 && t.mine.oovdraft == 0#32),
    draws (.drawV 3 4 5) 2 (fun t => t.mine.xr 3 == 1#64 && t.mine.oovdraft == 0#32),
    draws (.drawV 3 4 5) 4 (fun t => t.mine.xr 3 == 1#64 && t.mine.oovdraft == 1#32),
    philox 0 0 0 0 == 0x6627E8D5] = true := by
  decide +kernel

/-! CSRs, traps and the system instructions (R344-R364). -/

theorem witness_csrs : all [
    (issues (.csrr 3 5) (user []) []).any (fun s1 => answers (.csrr 3 5) (user []) s1 s1 3 0),
    let s := user [(4, 0x1B)]
    (issues (.csrw 3 4 0x12) s [0x1B]).any (fun s1 => (goes (csrWrite s1 0x12 0x1B)).any (fun r => answers (.csrw 3 4 0x12) s s1 r.2 3 0 && r.2.mine.vflags == 0x1B#5)),
    let s := (user [(4, 0x11)]).modSlot 0 (fun t => { t with vflags := 3 })
    (issues (.csrset 3 4 0x12) s [0x11]).any (fun s1 => (goes (csrWrite s1 0x12 0x13)).any (fun r => answers (.csrset 3 4 0x12) s s1 r.2 3 3 && r.2.mine.vflags == 0x13#5)) &&
      (issues (.csrclr 3 4 0x12) s [0x11]).any (fun s1 => (goes (csrWrite s1 0x12 2)).any (fun r => answers (.csrclr 3 4 0x12) s s1 r.2 3 3 && r.2.mine.vflags == 2#5)) &&
      (issues (.csrset 3 0 0x12) s []).any (fun s1 => answers (.csrset 3 0 0x12) s s1 s1 3 3) && (issues (.csrclr 3 0 0x12) s []).any (fun s1 => answers (.csrclr 3 0 0x12) s s1 s1 3 3),
    gives (.csrw 3 4 0x12) (user [(4, -1)]) (fun t => t.mine.vflags == 0x1F#5) && gives (.csrw 3 4 0x40) (user [(4, -1)]) (fun t => t.mine.trapcause == 0x03#8),
    gives (.csrw 3 4 0x40) (sup [(4, -1)]) (fun t => t.here.stvec == -2#64 && t.mine.pc == 0x104#64), gives (.csrr 3 0x17) (user []) (fun t => t.mine.trapcause == 0x03#8),
    gives (.csrw 3 4 0x08) (sup [(4, 0x3E0)]) (fun t => t.mine.nest && t.mine.pie && t.mine.ie && !t.mine.pmode && t.here.an && t.here.sched && t.mine.mode),
    gives (.csrw 3 4 0x46) ((sup [(4, 5)]).modCore 0 (fun k => { k with msgpend := 7 })) (fun t => t.here.msgpend == 2#8) &&
      gives (.csrw 3 4 0x34) ((sup [(4, 2 ^ 32)]).setFaultBuf 0 { ovf := true }) (fun t => !(t.faultBuf 0).ovf) &&
      gives (.csrw 3 4 0x34) ((sup [(4, 1)]).setFaultBuf 0 { ovf := true }) (fun t => (t.faultBuf 0).ovf) &&
      gives (.csrw 3 4 0x30) (sup [(4, 0x8000)]) (fun t => (t.msgClass 0 1).trp && !(t.msgClass 0 0).trp)] = true := by
  decide +kernel

theorem witness_csr_events : all [
    gives (.statusSchedWrite 0 true) (user []) (fun t => t.here.sched) && gives (.statusSchedWrite 1 true) (user []) (fun t => !t.here.sched),
    gives (.timercmpWrite 0 9) ((user []).modCore 0 (fun k => { k with timer := true })) (fun t => t.here.timercmp == 9#64 && !t.here.timer),
    (user []).here.board.isEmpty && (user []).here.sideLog.isEmpty && gives (.lmsplitWrite 0 2) (poke (user []) (locScratch 0 0x10008) 8 5) (fun t =>
      t.here.lmsplit == 2#4 && t.mem.read (locScratch 0 0x10008) == 0#8) && gives (.lmsplitWrite 0 8) (poke (user []) (locScratch 0 0x8) 8 5) (fun t =>
      t.here.lmsplit == 8#4 && t.mem.read (locScratch 0 0x8) == 5#8),
    leaves (.lmsplitWrite 0 9) (user []) (user []), leaves (.lmsplitWrite 0 2) ((user []).modCore 0 (fun k => { k with board := [{ id := 1, ranges := [] }] }))
      ((user []).modCore 0 (fun k => { k with board := [{ id := 1, ranges := [] }] })),
    gives (.lmshareWrite 0 0x13) (user []) (fun t => t.here.lmshare == 3#4), gives (.lmgroupWrite 0 1) (user []) (fun t => (t.tile 0).lmgroup), gives (.dsplitWrite 1 5) (user [])
      (fun t => look 0 1 t.dsplit == 5), gives (.vgrantWrite 0 0x1FF) (vec []) (fun t => t.mine.vl == 16),
    gives (.freqreqWrite 0 3) (user []) (fun t => t.here.freqreq == 3#4) && gives (.featmaskWrite 0 1) (vec []) (fun t => t.here.featmask == 1#8) &&
      gives (.featmaskWrite 0 4) (vec []) (fun t => t.here.featmask == 3#8) && gives (.budgetleftWrite 0 7) (user []) (fun t => t.mine.budget == 7#32 && t.mine.inForce)] = true := by
  decide +kernel

/-- A user slot that may take delegated traps at 0x800; the supervisor's handler is at 0x900. -/
def delegates (f : Slot → Slot) : State := ((user []).modCore 0 (fun k => { k with stvec := 0x900 })).modSlot 0 (fun t => f { t with deleg := true, tvec := 0x800 })

theorem witness_traps : all [
    let t := trap (delegates id) .misalign 7
    t.mine.dh && t.mine.pc == 0x800#64 && !t.mine.mode && t.mine.trappc == 0x100#64,
    let t := trap (delegates (fun t => { t with mode := true, nest := true, dcause := 9 })) .priv 7
    t.mine.state == .halted && t.mine.dcause == 9#8 && t.mine.pc == 0x100#64,
    let t := trap (delegates (fun t => { t with dh := true, ie := true, trapcause := 4, trappc := 6, trapval := 8 })) .misalign 7
    t.mine.mode && t.mine.pc == 0x900#64 && t.mine.pdh && t.mine.pie && t.mine.dcause == 4#8 && t.mine.dpc == 6#64 && t.mine.dval == 8#64,
    leaves .brk (user []) (trap (user []) .brk 0) && leaves (.trapImm 0x1FFF) (user []) (trapAt (user []) 0 .trapi 0x104 0x1FFF),
    gives (.trapImm 5) (delegates id) (fun t => t.mine.pc == 0x800#64 && t.mine.trappc == 0x104#64 && t.mine.trapcause == 0x20#8 && t.mine.dh),
    gives .eret ((sup []).modSlot 0 (fun t => { t with trappc := 0x333, pdh := true, dcause := 4, dpc := 6, dval := 8, pie := true, nest := true })) (fun t =>
      t.mine.pc == 0x332#64 && !t.mine.mode && t.mine.dh && t.mine.ie && !t.mine.pdh && !t.mine.nest && t.mine.trapcause == 4#8 && t.mine.trappc == 6#64 && t.mine.trapval == 8#64),
    gives .eret ((sup []).modSlot 0 (fun t => { t with trappc := 0x333, dcause := 4 })) (fun t => t.mine.trapcause == 0#8 && t.mine.trappc == 0x333#64),
    gives .tret (delegates (fun t => { t with dh := true, trappc := 0x333 })) (fun t => t.mine.pc == 0x332#64 && !t.mine.dh),
    gives .tret (delegates id) (fun t => t.mine.trapcause == 0x01#8 && t.mine.trapval == 0x02000061#64), gives .eret (user []) (fun t => t.mine.trapcause == 0x03#8)] = true := by
  decide +kernel

theorem witness_asynchronous_traps : all [
    leaves (.takeAsyncTrap 0) ((user []).modSlot 0 (fun t => { t with budgetPending := true })) (trap (user []) .budget 0),
    let s := ((user []).modSlot 0 (fun t => { t with ie := true })).modCore 0 (fun k => { k with sched := true, msgpend := 4 })
    leaves (.takeAsyncTrap 0) (s.modCore 0 (fun k => { k with timer := true })) (trap (s.modCore 0 (fun k => { k with timer := true })) .timer 0) &&
      leaves (.takeAsyncTrap 0) s (trap s .msg 4) && leaves (.takeAsyncTrap 1) s s,
    let s := (user []).modSlot 0 (fun t => { t with inForce := true })
    gives (.budgetExpiry 0) s (fun t => t.mine.budgetPending && !t.mine.inForce) &&
      gives (.budgetExpiry 0) (s.modSlot 0 (fun t => { t with wait := some (.tagged load20008 true 0 0), state := .waiting })) (fun t =>
        decide (t.mine.wait = some (.withdrawn load20008 .budget)) && t.pending.length == 1),
    let s := (user []).modCore 0 (fun k => { k with sched := true, timercmp := 5 })
    gives (.timercmpExpiry 0) { s with time := 5 } (fun t => t.here.timer) && gives (.timercmpExpiry 0) { s with time := 4 } (fun t => !t.here.timer)] = true := by
  decide +kernel

/-- The record of `record` in supervisor mode. -/
def supRecord (w2 x5 : Word) : State := (record w2 x5).modSlot 0 (fun t => { t with mode := true })

/-- RQENQ's premises hold, and it answers `code` with a queue that satisfies `f`. -/
def enqueues (s : State) (x5 code : Word) (f : State → Bool) : Bool :=
  (issues (.rqenq 3 4 5) s [0x1000, x5]).any (fun s1 => (targetQueue s1 x5).isSome && (goes (readCr s1 0x1000)).any (fun r => fld (r.1.getD 2 0) 29 3 == 0 &&
    !foreignTag r.2 (fld (r.1.getD 2 0) 0 18) && (goes (publish r.2 .dev)).isSome)) && gives (.rqenq 3 4 5) s (fun t => t.mine.xr 3 == code && t.mine.pc == 0x104#64 && f t)

theorem witness_queue_instructions : all [
    enqueues (supRecord 0 0) 0 0 (fun t => (t.level 0 0).entries.map (fun c => c.pc) == [0x400#64]), enqueues (queued 64 (supRecord 0 0)) 0 1 (fun t => (t.level 0 0).entries.length == 64),
    enqueues (supRecord (wd (4 * 2 ^ 20)) 0) 0 2 (fun _ => true), enqueues (withReqs [(5, { state := .annulled })] (supRecord 5 0)) 0 3 (fun _ => true),
    let s := fun (x5 : Word) => (queued 1 (sup [(4, 0x11000), (5, x5)])).setLevel 0 0 { entries := [{ someCr 0 with instant := BitVec.allOnes 64, x := [7] }] }
    gives (.rqdeq 3 4 5) (s 0x40) (fun t => t.mine.xr 3 == 8#64) && gives (.rqdeq 3 4 5) (s 0x31) (fun t => t.mine.xr 3 == 8#64) && gives (.rqdeq 3 4 5) (s 0x0E) (fun t => t.mine.xr 3 == 5#64) &&
      (goes (checkAccess (s 1) (crElems 0x11000) .store false)).any (fun r => (goes (holdAccess r.2 (r.1.map (fun p => (p, 8))) true)).isSome) &&
      gives (.rqdeq 3 4 5) (s 1) (fun t => t.mine.xr 3 == 0#64 && (t.level 0 0).entries.isEmpty && read64 t.mem 0x11000 == 8#64 && read64 t.mem 0x11018 == 7#64)] = true := by
  decide +kernel

/-- SLOTCTL of slot 1, changed by `f`, from slot 0 with operation `op`. -/
def controls (i : Instr) (op : Word) (s : State) (f : Slot → Slot) (p : State → Bool) : Bool :=
  gives i ((s.modSlot 0 (fun t => { t.setX 4 (wd (16 * op.toNat + 1)) with mode := true })).modSlot 1 f) p

theorem witness_slot_control : all [
    controls (.slotctlQuery 3 4 5) 0 (user []) (fun t => { t with mode := true, rtag := 5, prio := 2, state := .waiting }) (fun t => t.mine.xr 3 == 0x80005A00#64),
    controls (.slotctlQuery 3 4 5) 7 (user []) id (fun t => t.mine.xr 3 == 8#64),
    controls (.slotctlStart 3 4 5) 1 (record 0 0x1000) (fun _ => {}) (fun t => t.mine.xr 3 == 0#64 && (t.slot 1).pc == 0x400#64 && (t.slot 1).state == .ready) &&
      controls (.slotctlStart 3 4 5) 1 (record 0 0x1000) id (fun t => t.mine.xr 3 == 6#64),
    controls (.slotctlPreempt 3 4 5) 2 (user []) id (fun t => decide (t.mine.wait = some (.preempting 1)) && t.here.preempt == some { victim := 1, waiter := some (0, 3) }) &&
      controls (.slotctlPreempt 3 4 5) 2 (user []) (fun _ => {}) (fun t => t.mine.xr 3 == 6#64),
    controls (.slotctlResume 3 4 5) 3 ((user [(5, 2)]).modCore 0 (fun k => { k with saved := [{ num := 9, place := some 2 }] })) (fun _ => {})
        (fun t => t.mine.xr 3 == 0#64 && (t.slot 1).occupied && t.here.saved.isEmpty) && controls (.slotctlResume 3 4 5) 3 (user [(5, 2)]) (fun _ => {}) (fun t => t.mine.xr 3 == 6#64) &&
      controls (.slotctlResume 3 4 5) 3 (user [(5, 2)]) id (fun t => t.mine.xr 3 == 6#64),
    controls (.slotctlKill 3 4 5) 4 (user []) id (fun t => t.mine.xr 3 == 0#64 && t.slot 1 == {}) && controls (.slotctlKill 3 4 5) 4 (user []) (fun _ => {}) (fun t => t.mine.xr 3 == 6#64),
    controls (.slotctlCopystop 3 4 5) 5 ((user []).modCluster 0 (fun k => { k with copies := [{ id := 3, op := 0, words := [], rtag := 0, core := 0, g := 1, hatch := 2, user := true, part := 0, ctx := 7 }] })) (fun _ => {})
      (fun t => t.mine.xr 3 == 0#64 && (t.cluster 0).copies.map (fun x => x.suspended) == [true]),
    controls (.slotctlStart 3 4 5) 1 ((record 0 0x1000).modCore 0 (fun k => { k with saved := (List.range 16).map (fun i => { num := 9 + i, place := some i }) })) (fun _ => {})
      (fun t => t.mine.xr 3 == 6#64),
    controls (.slotctlRelease 3 4 5) 6 ((user []).modCore 0 (fun k => { k with stvec := 0x900 })) (fun t => { t with state := .halted, doubleHalt := true })
        (fun t => t.mine.xr 3 == 0#64 && (t.slot 1).state == .ready && (t.slot 1).pc == 0x900#64) &&
      controls (.slotctlRelease 3 4 5) 6 (user []) (fun t => { t with state := .halted }) (fun t => (t.slot 1).pc == 0x200#64) &&
      controls (.slotctlRelease 3 4 5) 6 (user []) id (fun t => t.mine.xr 3 == 6#64)] = true := by
  decide +kernel

/-- One context saved at place 2, its image to go to the uncached page; x4 the place, x5 the address. -/
def saved (x4 x5 : Word) (f : Saved → Saved) : State := (sup [(4, x4), (5, x5)]).modCore 0 (fun k => { k with saved := [f { num := 9, place := some 2 }] })

theorem witness_context_images : all [
    let s := saved 3 0x11000 id
    (issues (.closave 3 4 5) s [3, 0x11000]).any (fun s1 => (namedSaved s1.here 3).isNone && answers (.closave 3 4 5) s s1 s1 3 0),
    let s := saved 2 0x11000 (fun x => { x with fault := some 5 })
    (issues (.closave 3 4 5) s [2, 0x11000]).any (fun s1 => (namedSaved s1.here 2).any (fun c => unserviced s1.here c) && answers (.closave 3 4 5) s s1 s1 3 1),
    let s := saved 2 0x11000 id
    (namedSaved s.here 2).any (fun c => (imageBytes s 0 c).length == 512 && (goes (checkAccess s (imageElems 0x11000 512) .store false)).any (fun r =>
      (goes (holdAccess r.2 (r.1.map (fun p => (p, 64))) true)).isSome)) && gives (.closave 3 4 5) s (fun t => t.mine.xr 3 == 512#64 && t.here.saved.isEmpty),
    gives (.clorest 3 4) (saved 0x11000 0 id) (fun t => t.mine.xr 3 == 8#64 && t.mine.pc == 0x104#64),
    let s := poke (saved 0x11000 0 id) (0x11000 + 8 * 47) 8 1
    (goes (readImage s 0 0x11000 512)).any (fun r => bit (r.1.getD 47 0) 0 && fld (r.1.getD 47 0) 32 32 == 0 && bodyLength (r.1.getD 47 0) == 0 && r.2.liveTag (fld (r.1.getD 32 0) 0 18) &&
      (allotPlaces r.2.here false 0).isSome) && gives (.clorest 3 4) s (fun t => t.mine.xr 3 == 0#64 && t.here.saved.length == 2),
    let s := poke (poke (saved 0x11000 0 id) (0x11000 + 8 * 47) 8 1) (0x11000 + 8 * 32) 8 77
    gives (.clorest 3 4) s (fun t => t.mine.xr 3 == 3#64 && t.here.saved.length == 1) &&
      gives (.clorest 3 4) { s with reqs := [(77, { state := .live, part := 3 })] } (fun t => t.mine.xr 3 == 8#64 && t.here.saved.length == 1)] = true := by
  decide +kernel

theorem witness_maintenance : all [
    gives (.tlbinv 4 5) (sup [(4, 0), (5, 0)]) (fun t => t.here.tlb.length == 3 && t.mine.pc == 0x104#64) && gives (.tlbinv 4 5) (sup [(4, 0), (5, 1)]) (fun t => t.here.tlb.isEmpty) &&
      gives (.tlbinv 4 5) (sup [(4, 0), (5, 2)]) (fun t => t.here.tlb.isEmpty) && gives (.tlbinv 4 5) (sup [(4, 0), (5, 3)]) (fun t => t.mine.trapcause == 0x01#8),
    let s := fun (x5 : Word) => (sup [(4, 0x18), (5, x5)]).modCore 0 (fun k => { k with coherent := [0] })
    (goes (checkAccess (s 0) [{ a := 0x18, n := 8 }] .load false)).any (fun r => decide (r.1 = [.global 0x18 0x18 0x7F 0])) && cached 0x7F &&
      gives (.cflushLine 4 5) (s 0) (fun t => t.mine.pc == 0x104#64 && t.here.coherent.isEmpty) && gives (.cflushWriteback 4 5) (s 1) (fun t => t.mine.pc == 0x104#64 && t.here.coherent.isEmpty) &&
      (goes (publish (s 2) .dev)).isSome && gives (.cflushAll 4 5) (s 2) (fun t => t.mine.pc == 0x104#64 && t.here.coherent.isEmpty && t.here.lines.isEmpty),
    gives .halt (sup []) (fun t => t.mine.state == .halted && t.mine.pc == 0x104#64)] = true := by
  decide +kernel

/-! Events of scheduling, annulment, peers and messages. -/

def launches (l : List (List Word)) : State := (withReqs [] (user [])).setLaunchQ 0 0 { records := l }

theorem witness_scheduling : all [
    let s := (user []).setLevel 0 0 { entries := [{ someCr 0 with instant := 9, x := [7] }] }
    hardwareCore s 0 && !(freeSlots s 0 false).isEmpty && decide (nextWork (purgeFor s 0) 0 = some (.inr (0, 0, 0, { someCr 0 with instant := 9, x := [7] }))) &&
      (pickFree (purgeFor s 0) 0 false).isSome,
    let t := dispatchCr (user []) 5 { someCr 0 with pc := 0x401, x := [7, 8] } .core
    (t.slot 5).pc == 0x400#64 && (t.slot 5).xr 1 == 7#64 && (t.slot 5).xr 2 == 8#64 && (t.slot 5).xr 6 == 0#64,
    let s := (user []).modCore 0 (fun k => { k with saved := [{ num := 9, place := some 2 }] })
    resumeNext s 0 && decide (nextWork (purgeFor s 0) 0 = some (.inl { num := 9, place := some 2 })) && (pickFree (purgeFor s 0) 0 false).isSome,
    let full := (List.range 16).foldl (fun s g => s.setSlot g { state := .ready, prio := 1 }) (queued 1 (user []))
    let demand := full.setReg (dqctlAddr 0 0) 1
    let timer := { (full.setReg (dqctlAddr 0 0) 0x100) with time := 9 }
    mayPreempt demand 0 && demandVictim demand 0 == some 15 && gives (.demandPreemption 0) demand (fun t => t.here.preempt == some { victim := 15 }) &&
      mayPreempt timer 0 && demandVictim timer 0 == none && timerVictim timer 0 == some 15 && gives (.timerPreemption 0) timer (fun t => t.here.preempt == some { victim := 15, timer := true }),
    let s := (user []).modCore 0 (fun k => { k with preempt := some { victim := 1 } })
    (s.slot 1).occupied && saveReady s 1 && canSave s 1 && gives (.preemptionComplete 0) s (fun t => t.here.saved.length == 1 && t.slot 1 == {} && t.here.preempt.isNone),
    let s := ({ user [] with regs := [(ringdAddr 0 1, wd (2 ^ 52 + 0x40))] }).setLevel 0 1 { entries := List.replicate 64 (someCr 1) }
    (enqueue s 0 (someCr 1)).any (fun t => (t.level 0 1).ring == [0] && decide (ringCr t 0 1 0 = { someCr 1 with x := [0, 0, 0, 0, 0] }) && read64 t.mem 0x40 == 8#64 &&
      (let t := t.setLevel 0 1 { t.level 0 1 with entries := [] }
       gives (.ringMove 0 1) t (fun t => (t.level 0 1).entries.map (fun c => c.pc) == [8#64] && (t.level 0 1).ring.isEmpty)))] = true := by
  decide +kernel

theorem witness_launch : all [
    leaves (.launchQueueWrite 0 0 64 []) (launches []) (launches []), gives (.launchQueueWrite 0 0 8 (leBytes 5 64)) (launches []) (fun t => (t.launchQ 0 0).disc == 1),
    gives (.launchQueueWrite 0 0 0 (leBytes 5 64)) (launches []) (fun t => (t.launchQ 0 0).records == [[5, 0, 0, 0, 0, 0, 0, 0]]),
    gives (.launchQueueWrite 0 0 0 (leBytes 5 64)) (launches (List.replicate 256 [])) (fun t => (t.launchQ 0 0).fulls == 1),
    gives (.launchQueueWrite 0 0 0 (leBytes 5 64)) { launches [] with ready := false } (fun t => (t.launchQ 0 0).fulls == 1 && (t.launchQ 0 0).records.isEmpty),
    gives (.launchAccept 0 0) (launches [[0x400, 0, 0, 0, 0, 0, 0, 0]]) (fun t => (t.launchQ 0 0).disc == 1),
    let s := launches [[0x400, 50, 0x40000, 7, 0, 0, 0, 0]]
    !recordWaits s 0 0 [0x400, 50, 0x40000, 7, 0, 0, 0, 0] && gives (.launchAccept 0 0) s (fun t => t.req 100 == { state := .live, instant := 50, cls := 1 } &&
      (t.level 2112 1).entries.map (fun c => (c.pc, c.rtag, c.x.headD 0)) == [(0x400#64, 100, 7#64)])] = true := by
  decide +kernel

/-- Request 5 with an instant, LIVE or not, notices seen at some dies; slot 1 works under it. -/
def ending (st : ReqState) (noticed : List Nat) : State :=
  (withReqs [(5, { state := st, instant := 7, noticed := noticed, swept := [1, 2, 3] })] (user [])).modSlot 1 (fun t => { t with rtag := 5 })

theorem witness_annulment : all [
    gives (.requestExpiry 5) { ending .live [] with time := 7 } (fun t => (t.req 5).state == .annulled && t.pending.length == 4), leaves (.requestExpiry 5) { ending .live [] with time := 6 }
      { ending .live [] with time := 6 },
    gives (.annulNoticeArrival 0 5) ((ending .annulled []).setLevel 0 0 { entries := [{ someCr 0 with rtag := 5 }, someCr 0] }) (fun t => (t.level 0 0).entries == [someCr 0] &&
      decide (t.pending = [.slotAnnul 1])), leaves (.annulNoticeArrival 0 5) (ending .annulled [0]) (ending .annulled [0]),
    leaves (.requestExpiry 5) ((ending .live []).setReq 5 { state := .live, instant := BitVec.allOnes 64 }) ((ending .live []).setReq 5 { state := .live, instant := BitVec.allOnes 64 }),
    annulKnown (ending .annulled [0]) 5 0 && gives (.slotAnnul 1) (ending .annulled [0]) (fun t => t.slot 1 == {}),
    let s := (ending .annulled [0]).modSlot 1 (fun t => { t with wait := some (.peer (.load [(3, 0)] 0x8000000000000010 2 false) false) })
    replyAwaited s 1 && leaves (.slotAnnul 1) s s && leaves (.slotAnnul 1) (ending .live []) (ending .live []),
    gives (.slotAnnul 1) ((user []).modSlot 1 (fun t => { t with killed := true })) (fun t => t.slot 1 == {} && t.here.ni.isEmpty),
    let s := (ending .annulled [0]).setSlot 1 {}
    dieClear s 5 0 && !dieClear (ending .annulled [0]) 5 0 && gives (.annulAckArrival 5 0) s (fun t => (t.req 5).state == .free),
    let s := (larder []).setLarder 0 { entries := [], stalled := [(someCr 0, 0)] }
    (enqueue s 0 (someCr 0)).isSome && gives (.larderDeferredEnqueue 0) s (fun t => (t.larder 0).stalled.isEmpty && (t.level 0 0).entries.length == 1),
    let s := (queued 64 (larder [])).setLarder 0 { entries := [], stalled := [(someCr 0, 0)] }
    (enqueue s 0 (someCr 0)).isNone && leaves (.larderDeferredEnqueue 0) s (s.setLarder 0 (s.larder 0)),
    gives (.rtfreeWrite 0 9) (ending .live []) (fun t => look 0 0 t.rtfree == 3) && gives (.rtfreeWrite 0 5) (ending .live []) (fun t => look 0 0 t.rtfree == 1) &&
      gives (.rtfreeWrite 0 5) (ending .annulled []) (fun t => look 0 0 t.rtfree == 2 && (t.req 5).state == .annulled),
    let s := (ending .annulled []).setReq 5 { state := .annulled, swept := [0, 1, 2, 3], parked := 3 }
    gives (.rtfreeWrite 0 5) s (fun t => look 0 0 t.rtfree == 0 && (t.req 5).state == .free)] = true := by
  decide +kernel

/-- Device 3's partition 0 works as this device's partition 0; the loads and stores of its work. -/
def hosting : State := { mapped (user []) with regs := [(peerinAddr 0, wd (2 ^ 63 + 3 * 2 ^ 32)), (ptbaseAddr 0, 0x200001#64)], reqs := [(5, { state := .live, proxyOf := some (3, 9), proxies := [2] })] }
def peerDoes (op : PeerOp) (a : Nat) (data : List Byte) : PeerWork := { port := 0, dev := 3, part := 0, rtag := 0, instant := 0, cls := 0, op := op, addr := a, data := data, compare := 0 }

theorem witness_peers : all [
    leaves (.peerWorkArrival (peerDoes (.load 8) 0x11000 [])) { hosting with ready := false } { hosting with ready := false },
    (peerPart { hosting with regs := [] } (peerDoes (.load 8) 0x11000 [])).isNone && gives (.peerWorkArrival (peerDoes (.load 8) 0x11000 [])) { hosting with regs := [] } (fun t => t.dropped == 1 &&
      decide (t.replies = [(3, 0, .failed 9)])),
    let s := poke hosting 0x11000 8 0x1234
    (match reach s 0 0x11000 .load with | (.at pa _, s1) => pa == 0x11000 && s1.bad.isEmpty | _ => false) && peerPart s (peerDoes (.load 8) 0x11000 []) == some 0 &&
      gives (.peerWorkArrival (peerDoes (.load 8) 0x11000 [])) s (fun t => decide (t.replies = [(3, 0, .value (leBytes 0x1234 8))])),
    (match reach hosting 0 0x11FFF .store with | (.at pa _, _) => pa == 0x11FFF | _ => false) &&
      gives (.peerWorkArrival (peerDoes (.store 1) 0x1FFFF [0x77])) hosting (fun t => t.mem.read 0x1FFFF == 0x77#8 && t.dropped == 0),
    leaves (.peerWorkArrival (peerDoes (.store 1) 0x11000 [7])) { hosting with cancelled := [(3, 0)] } { hosting with cancelled := [(3, 0)], dropped := 1 },
    let w := peerDoes (.load 8) 0x11000 []
    streamBusy [(peerDoes (.load 8) 0x90000 [], [9])] w && gives (.peerWorkArrival w) { hosting with inbox := [(peerDoes (.load 8) 0x90000 [], [9])] } (fun t => t.inbox.length == 2 && t.replies.isEmpty),
    gives (.peerCancelNotice 3 8) hosting (fun t => t.cancelled == [(3, 8)]) && gives (.drainMarker 3 8) { hosting with cancelled := [(3, 8)] } (fun t => t.cancelled.isEmpty),
    gives (.peerCancelNotice 3 9) hosting (fun t => (t.req 5).state == .annulled && (t.req 5).why == 3), gives (.drainMarker 3 9) hosting (fun t => (t.req 5).marker),
    gives (.drainMarker 3 8) hosting (fun t => decide (t.replies = [(3, 8, .drained)])), gives (.drainAck 5 2) hosting (fun t => (t.req 5).acked == [2])] = true := by
  decide +kernel

/-- Slot 0 waits for a peer's answer. -/
def remote (w : Wait) : State := { (user []).modSlot 0 (fun t => { t with wait := some w, state := .waiting }) with regs := [(peerrouteAddr 0, wd (2 ^ 63))] }

theorem witness_peer_answers : all [
    let w : Wait := .peer (.load [(3, 0)] 0x8000000000000010 2 false) false
    gives (.loadComplete 0 0x12345 0) (remote w) (fun t => t.mine.xr 3 == 0x2345#64 && t.mine.pc == 0x104#64 && decide (t.mine.wait = none)) &&
      gives (.loadComplete 0 0 14) (remote w) (fun t => decide (t.mine.wait = some (.peer (.load [(3, 0)] 0x8000000000000010 2 false) true))) &&
      gives (.loadComplete 0 0 9) (remote w) (fun t => t.mine.trapcause == 9#8 && t.mine.trapval == 0x8000000000000010#64) &&
      gives (.linkFailure 0) (remote w) (fun t => t.mine.trapcause == 0x0B#8 && decide (t.vectors = [3]) && !look true 0 t.ports),
    let s := ({ remote (.peer (.load [(3, 0)] 0x8000000000000010 2 false) false) with reqs := [(5, { state := .annulled, noticed := [0] })] }).modSlot 0 (fun t => { t with rtag := 5 })
    slotDoomed s 0 && gives (.loadComplete 0 0x12345 0) s (fun t => decide (t.mine.wait = none) && t.mine.xr 3 == 0#64 && t.mine.pc == 0x104#64),
    gives (.atomicComplete 0 0x123456789 0) (remote (.peer (.atomic 3 0x8000000000000010 4 0) false)) (fun t => t.mine.xr 3 == 0x23456789#64 && t.mine.pc == 0x104#64),
    let w : Wait := .peer (.load [(3, 0)] 0x8000000000000010 2 false) true
    gives (.noproxyResend 0) { remote w with time := nsOf 4096 } (fun t => decide (t.mine.wait = none) && t.mine.state == .ready)] = true := by
  decide +kernel

/-- Core 3 offers a message to class 2 of core 0, whose queue is given. -/
def offering (refused : Bool) (q : MsgClass) : State :=
  let s := user []
  { s with cores := [(3, { ni := [{ dest := 0, cls := 2, msg := { note with rtag := 0 }, refused := refused }] })] }.setClass 0 2 q

theorem witness_message_events : all [
    gives (.messageArrival 0 2 { note with rtag := 0 }) (offering false { mode := .bound }) (fun t => (t.msgClass 0 2).queue.length == 1 && (t.core 3).ni.isEmpty),
    gives (.messageArrival 0 2 { note with rtag := 0 }) (offering false { mode := .bound, queue := List.replicate 16 note }) (fun t => (t.core 3).ni.map (fun o => o.refused) == [true]),
    gives (.messageArrival 0 2 { note with rtag := 0 }) (offering false {}) (fun t => t.dropped == 1 && (t.core 3).ni.isEmpty),
    let s := { user [] with cores := [(0, { ni := [{ dest := 0, cls := 2, msg := { note with rtag := 0, score := 0 }, refused := true }] })] }
    refusedAt s 0 && leaves (.freeSlotNotice 0) s (arriveLocal s 0 { dest := 0, cls := 2, msg := { note with rtag := 0, score := 0 }, refused := true }),
    !refusedAt (user []) 0 && leaves (.freeSlotNotice 0) (user []) (user []),
    let from3 := fun (op : PeerOp) => peerDoes op 0 []
    let bound := fun (n : Nat) => hosting.setClass 0 2 { mode := .bound, queue := List.replicate n note }
    gives (.peerWorkArrival (from3 (.message 7 0 2 note))) (bound 0) (fun t => decide (t.replies = [(3, 0, .accepted 7)]) && (t.msgClass 0 2).queue.map (fun m => (m.remote, m.rtag)) == [(true, 0)]) &&
      gives (.peerWorkArrival (from3 (.message 7 0 2 note))) (bound 16) (fun t => decide (t.replies = [(3, 0, .refused 7)]) && t.here.turnedAway == [3]),
    let s := { hosting with
      regs := (peerrouteAddr 0, wd (2 ^ 63 + 3 * 2 ^ 32)) :: hosting.regs
      cores := [(0, { ni := [{ dest := 0, cls := 2, msg := note, peer := some 0, num := 7 }] })] }
    gives (.peerWorkArrival (peerDoes (.accepted 7) 0 [])) s (fun t => t.here.ni.isEmpty) && gives (.peerWorkArrival (peerDoes (.refused 7) 0 [])) s (fun t => t.here.ni.map (fun m => m.refused) == [true])] = true := by
  decide +kernel

/-! Engine commands (R293-R314). -/

/-- A header word: operation, words after it, and the rest. -/
def head (op nw : Nat) (rest : Nat := 0) : Word := wd (op * 2 ^ 59 + nw * 2 ^ 54 + rest)

/-- A command of slot 0 in Hatch 2 of core 0, bound to an engine. -/
def command (s : State) (kind arg : Nat) (words : List Word) : State :=
  hatched s 2 { kind := kind, slotA := 0, arg := arg, cmd := words.map (fun w => { value := w }) }

/-- The engine takes the command by the event named, and it passes the checks: the command and the state. -/
def taken (s : State) (e : Event) (bad : State → Cmd → Bool) : Option (Cmd × State) :=
  (takeable s 0 2).bind (fun l =>
    let x := cmdOf s 0 2 l
    let s1 := takeWords s 0 2 l.length
    if takeEvent (s.hatch 0 2) 0 2 = e && !headerBad s1 x (l.any (fun e => e.failed)) && !bad s1 x && s1.liveTag x.rtag && (completionError s1 x).isNone
    then some (x, s1) else none)

/-- Every engine command is taken, and goes on as its operation starts. -/
def starts (i : Instr) (e : Event) (s : State) (bad : State → Cmd → Bool) (run : State → Cmd → State) : Bool :=
  (taken s e bad).any (fun r => leaves i s (run r.2 r.1))

def linked : State := { user [] with dieLinks := [(0, true), (1, true), (2, true), (3, true)], ready := true }

/-- Clauses of the issue, access and synchronisation statements at their other ends: both places of the unit taken; a late value without a scoreboard entry;
an atomic on bytes in error; a tagged word after the annul notice. -/
theorem witness_waits_and_errors : all [
    let s := (mats 0 0).modCore 0 (fun k => { k with unitBusy := some (1, .mma false 0 none), unitNext := some (2, .mma false 0 none) })
    leaves .mma s (waitSlot s 0 .unitBusy),
    let cmdWords := [head 0 4, at0 0x300, at0 0, at0 0x100]
    let s := (command (user []) 2 0 cmdWords).modCore 0 (fun k => { k with board := List.replicate 16 { id := 1, ranges := [] } })
    lateBlocked s 0 34 16 && decide (writeBack s 0 [(34, 16, false)] = waitSlot s 0 (.late [(34, 16, false)])),
    let bad := fun (s : State) (a : Nat) => ({ s with bad := [a] } : State)
    let err := fun (i : Instr) (s : State) (vs : List Word) (a : Word) (n ord : Nat) (f : Nat → Nat) => (issues i s vs).any (fun s1 =>
      (goes (atomicReady s1 a n ord false)).any (fun r => r.1.own && anyBad r.2 0 r.1.loc n &&
        (let z := acquire (atomicAt r.2 r.2.curCore r.2.me r.1 n f).2 ord
         leaves i s (writeBack z z.me [(3, a, true)]))))
    err (.amo32 3 4 5 1 0) (bad (user [(4, 0x10), (5, 2)]) 0x13) [0x10, 2] 0x10 4 1 (fun o => (o + 2) % 2 ^ 32) &&
      err (.amo64 3 4 5 0 8) (bad (user [(4, 0x10008), (5, 1)]) 0x1000F) [0x10008, 1] 0x10008 8 0 (fun _ => 1) &&
      err (.cas 3 4 5 5 1) (bad (user [(3, 5), (4, 0x10), (5, 7)]) 0x10) [0x10, 7, 5] 0x10 8 5 (fun o => if o = 5 then 7 else o),
    let s := ({ tagged true with reqs := [(65541, { state := .annulled, noticed := [0] })] }).modSlot 0 (fun t => { t with rtag := 65541 })
    annulKnown s 65541 (homeDie 0x20008) && decide (tagRequest s 0 load20008 0 = waitSlot s 0 .turn)] = true := by
  decide +kernel

/-- Clauses of the request, message and Larder statements: an instant that is never reached, a hold by a request that has left LIVE, a link that is down, a
capped cluster, a waiter pool outside its region. -/
theorem witness_requests_and_queues : all [
    gives (.rfork 3 4 5) (under { live5 with instant := BitVec.allOnes 64 } [] (BitVec.allOnes 64) 0) (fun t => t.mine.xr 3 == 100#64 && (t.req 100).instant == BitVec.allOnes 64),
    let s := under { live5 with state := .annulled } [shared6, (65542, { state := .live, shared := true, holds := 2 })] 65542 0
    !annulKnown s 5 1 && leaves (.rhold 3 4) s (waitSlot s 0 .turn),
    let s := { user [(4, 0x4000)] with regs := [(peerrouteAddr 0, wd (2 ^ 63))], ports := [(0, false)] }
    portDown s 0 && leaves (.msend 4 9 0) s (advance (countDropped s) 4),
    let s := { user [(4, 0x4000)] with regs := [(peerrouteAddr 0, wd (2 ^ 63))], ports := [(0, true)] }
    !portDown s 0 && gives (.msend 4 9 0) s (fun t => t.outbox.length == 1 && t.here.ni.map (fun m => m.peer) == [some 0]),
    let s := larder [entry7 .ready 1]
    !capReached s 0 && poolReached s 0] = true := by
  decide +kernel

/-- Clauses of the CSR, trap, slot-control and context statements: LMSHARE while copies hold the old size and after; PTEMPL0; a second trap in a handler; MSG
during MONWAIT; START and RESUME while draining; KILL of a slot that awaits an answer; CLOSAVE checks its image's address in each case; CLOREST needs room. -/
theorem witness_system_ends : all [
    let s := sup [(4, 3)]
    (copiesOld s 0).length == 32 && gives (.csrw 3 4 0x029) s (fun t => decide (t.mine.wait = some .share)),
    let s := (clusterCores 0).foldl (fun s d => s.modCore d (fun k => { k with csmCopy := [(0, 3)] })) ((sup [(4, 3)]).modSlot 0 (fun t => { t with wait := some .share, state := .waiting }))
    (copiesOld s 0).isEmpty && gives (.csrw 3 4 0x029) s (fun t => t.here.lmshare == 3#4 && t.mine.pc == 0x104#64),
    leaves (.csrw 3 4 0x048) (sup [(4, 9)]) (advance ((sup [(4, 9)]).modMe (fun t => t.setX 3 0)) 4),
    (trap (delegates (fun t => { t with mode := true, nest := true })) .priv 7).doubleTraps == [0] && (trap (delegates id) .priv 7).doubleTraps.isEmpty,
    let s := ((user []).modSlot 0 (fun t => { t with ie := true, state := .waiting, wait := some (.monitor 0 9) })).modCore 0 (fun k => { k with sched := true, msgpend := 4 })
    leaves (.takeAsyncTrap 0) s (trap s .msg 4),
    let drains := fun (s : State) => s.modCluster 0 (fun k => { k with state := 1 })
    controls (.slotctlStart 3 4 5) 1 (drains (record 0 0x1000)) (fun _ => {}) (fun t => t.mine.xr 3 == 6#64 && !(t.slot 1).occupied) &&
      controls (.slotctlResume 3 4 5) 3 (drains ((user [(5, 2)]).modCore 0 (fun k => { k with saved := [{ num := 9, place := some 2 }] }))) (fun _ => {})
        (fun t => t.mine.xr 3 == 6#64 && t.here.saved.length == 1),
    controls (.slotctlKill 3 4 5) 4 (user []) (fun t => { t with state := .waiting, wait := some (.peer (.load [(3, 0)] 0x8000000000000010 2 false) false) })
      (fun t => t.mine.xr 3 == 0#64 && (t.slot 1).killed && (t.slot 1).occupied),
    let s := saved 3 0x0100000000000000 id
    gives (.closave 3 4 5) s (fun t => t.mine.trapcause != 0#8) && gives (.closave 3 4 5) (saved 2 0x90000 (fun x => { x with fault := some 5 })) (fun t => t.mine.xr 3 != 1#64),
    let s := (poke (saved 0x11000 0 id) (0x11000 + 8 * 47) 8 1).modCore 0 (fun k => { k with
      preempt := some { victim := 1 }, saved := (List.range 15).map (fun i => { num := 9 + i, place := some i }) })
    gives (.clorest 3 4) s (fun t => t.mine.xr 3 == 7#64 && t.here.saved.length == 15)] = true := by
  decide +kernel

theorem witness_engine_commands : all [
    starts (.copyLinear 0 2) (.copyLinear 0 2) (command (user []) 2 0 [head 0 4, at0 0x300, at0 0, at0 0x100, 16]) copyBad startCopy,
    starts (.copyStrided 0 2) (.copyStrided 0 2) (command (user []) 2 0 [head 1 6, 0, at0 0, at0 0x100, 2 * 2 ^ 32 + 16, 32, 64]) copyBad startCopy,
    starts (.copyGather 0 2) (.copyGather 0 2) (command (user []) 2 0 [head 2 4, 0, at0 0, at0 0x100, 1]) copyBad startCopy,
    starts (.copyScatter 0 2) (.copyScatter 0 2) (command (user []) 2 0 [head 3 4, 0, at0 0, at0 0x100, 1]) copyBad startCopy,
    starts (.copyResume 0 2) (.copyResume 0 2) (command (user []) 2 0 [head 4 1, at0 0x300]) copyBad resumeCopy,
    starts (.collGroup 0 2) (.collGroup 0 2) (command (user []) 3 0 [head 12 2, 0, at0 0]) groupBad (fun s x => ({ s with colls := s.colls ++ [x] }).post (.commandCompletion x.id)),
    starts (.cellarRead 0 2) (.cellarRead 0 2) (command (user []) 4 0 [head 16 4, 0, at0 0, 0, 1]) cellarBad startCellar,
    starts (.cellarWrite 0 2) (.cellarWrite 0 2) (command (user []) 4 0 [head 17 4, 0, at0 0, 0, 1]) cellarBad startCellar,
    (taken (command linked 5 0 [head 20 3, 0, at0 0, 7]) (.stairSend 0 2) stairBad).any (fun r => !leavesSpace r.2 0 (stairAddr r.1) 256 && look false (dirOf r.2 r.1 / 2) r.2.dieLinks),
    starts (.stairReset 0 2) (.stairReset 0 2) (command linked 5 0 [head 21 2, 0, 7]) stairBad startReset,
    starts (.stairBuf 0 2) (.stairBuf 0 2) (command linked 5 2 [head 22 3, 0, at0 0, 2 ^ 32 + 4]) stairBad startBuf,
    starts (.stairFree 0 2) (.stairFree 0 2) (command linked 5 2 [head 23 2, 0, 7]) stairBad startFree] = true := by
  decide +kernel

/-- The commands refused: a wrong word count, a dead request, a completion address in a forbidden page, a range outside its space. -/
theorem witness_refused_commands : all [
    let completes := fun (s : State) (v : Word) => gives (.copyLinear 0 2) s (fun t => read64 t.mem (locScratch 0 0x300) == v && (t.cluster 0).copies.isEmpty)
    completes (command (user []) 2 0 [head 0 3, at0 0x300, at0 0, at0 0x100]) 0xC002000000000000 &&
      completes (hatched (user []) 2 { kind := 2, cmd := [head 0 4, at0 0x300, at0 0, at0 0x100, 16].map (fun w => { value := w, rtag := 9 }) }) 0x8000000000000000 &&
      completes (command (user []) 2 0 [head 0 4, at0 0x300, at0 0x3FFF8, at0 0x100, 16]) 0xC003000000000000,
    copySpace (user []) { id := 1, op := 0, words := [head 0 4, 0, at0 0x3FFF8, at0 0x100, 16], rtag := 0, core := 0, g := 0, hatch := 2, user := true, part := 0 },
    gives (.copyResume 0 2) (command (user []) 2 0 [head 4 1, at0 0x300]) (fun t => read64 t.mem (locScratch 0 0x300) == 0xC002000000000000#64)] = true := by
  decide +kernel

/-- A command at its engine. -/
def cmd (op : Nat) (words : List Word) : Cmd := { id := 3, op := op, words := words, rtag := 0, core := 0, g := 0, hatch := 2, user := true, part := 0 }

/-- The suspended copy a RESUME names goes on, and a completion word goes to memory and to a DONE Hatch. -/
theorem witness_completions : all [
    let y := { cmd 0 [head 0 4, at0 0x300] with suspended := true }
    let s := (user []).modCluster 0 (fun k => { k with copies := [y] })
    decide (resumeCopy s (cmd 4 [head 4 1, at0 0x300]) = (modCmd s 3 (fun z => { z with suspended := false })).post (.commandCompletion 3)) &&
      (let z := hatched s 4 { kind := 6, slotA := 0, resv := 1 }
       ((resumeCopy z { cmd 4 [head 4 1, at0 0x300] with done := some 4 }).hatch 0 4).entries.map (fun e => e.value) == [0x4000000000000000#64]),
    let s := (user []).modCluster 0 (fun k => { k with copies := [{ cmd 0 [head 0 4, at0 0x300] with suspended := true, owes := true, bytes := 128 }] })
    gives (.commandCompletion 3) s (fun t => read64 t.mem (locScratch 0 0x300) == 0x0001000000000080#64 && (t.cluster 0).copies.map (fun x => x.owes) == [false]),
    let x := { cmd 9 [head 9 5, 0, at0 0, at0 0x100, 2, at0 0x200] with ended := true, state := 2, error := 7, left := [8], snap := [(0, 3)] }
    gives (.commandCompletion 3) { user [] with colls := [x] } (fun t => read64 t.mem (locScratch 0 0x200) == 3#64 && t.colls.isEmpty),
    completionWord 3 15 7 == 0xC00F000000000007#64, leaves (.commandCompletion 3) (user []) (user []),
    let s := fun (x : Cmd) => (user []).modCluster 0 (fun k => { k with copies := [x] })
    (findCmd (s (cmd 0 [])) 3).isSome && leaves (.commandCompletion 3) (s (cmd 0 [])) (copyComplete (s (cmd 0 [])) (cmd 0 [])) &&
      leaves (.commandCompletion 3) (s { cmd 0 [] with ended := true, state := 3, error := 6 }) (endCmd (s { cmd 0 [] with ended := true, state := 3, error := 6 }) { cmd 0 [] with ended := true, state := 3, error := 6 } 3 6 0),
    let s := hatched (user []) 4 { kind := 6, slotA := 0, resv := 1 }
    let t := endCmd s { cmd 0 [0, 0] with done := some 4 } 1 0 16
    (t.hatch 0 4).entries.map (fun e => e.value) == [0x4000000000000010#64] && (t.hatch 0 4).resv == 0,
    spaceOf (at0 0x300) == .window 0 && sizeOk (user []) 0 (at0 0x300) 8 && read64 (endCmd (user []) (cmd 0 [0, at0 0x300]) 1 0 16).mem (locScratch 0 0x300) == 0x4000000000000010#64,
    let x := { cmd 0 [] with plan := [(at0 0, at0 0x100, 16)], total := 16, left := [0] }
    spans (user []) 0 true .engineIn (at0 0) 16 == ([.run (locScratch 0 0) 0 0 0 16], user []) && spans (user []) 0 true .engineOut (at0 0x100) 16 == ([.run (locScratch 0 0x100) 0 0 0 16], user []) &&
      x.mask.isNone && decide (sramBase ≤ locScratch 0 0)] = true := by
  decide +kernel

/-- Cores 0 and 1 are a group, and core 0 has pushed a command of two 4-byte elements to it. -/
def grouped (op : Nat) (rest : Nat) (groups : List Group) : State := { command (user []) 3 0 [head op 5 rest, 0, at0 0, at0 0x100, 2, 0] with groups := groups }
def pair : Group := { die := 0, part := 0, id := 0, members := [0, 8], ranks := [(0, 0), (1, 1)] }

def joins (i : Instr) (e : Event) (op : Nat) (red : Nat) : Bool :=
  let s := grouped op (2 * 2 ^ 18 + red * 2 ^ 21) [pair]
  (taken s e (fun _ x => collBad x 2)).any (fun r => (groupOf r.2 r.1).any (fun g => rankOf g 0 == some 0 && !collSpace r.2 r.1 2 &&
    (let s3 : State := { (countIndex r.2 g 0).2 with colls := [{ r.1 with seq := 0 }] }
     (routeError s3 g.members).isNone && !matchFull s3 g 0 && (tellPeers s3 g r.1.rtag 0 0 (matchFields r.1) false []).1.isNone && leaves i s (tellPeers s3 g r.1.rtag 0 0 (matchFields r.1) false []).2))) &&
    gives i { s with groups := [] } (fun t => t.colls.isEmpty && (t.hatch 0 2).cmd.isEmpty)

theorem witness_collectives : all [
    joins (.collAllreduce 0 2) (.collAllreduce 0 2) 8 0, joins (.collAllgather 0 2) (.collAllgather 0 2) 9 0, joins (.collRedscat 0 2) (.collRedscat 0 2) 10 0,
    joins (.collBcast 0 2) (.collBcast 0 2) 11 0,
    let src := fun (r : Nat) => some (leBytes (r + 1) 4 ++ leBytes (10 * (r + 1)) 4)
    let res := fun (op : Nat) (n own : Nat) => leNat ((collResult (cmd op [wd (2 * 2 ^ 18), 0, 0, 0, n]) own 2 src).map (fun b => b.getD 0))
    res 8 2 0 == 3 + 30 * 2 ^ 32 && res 9 2 0 == 1 + 10 * 2 ^ 32 + 2 * 2 ^ 64 + 20 * 2 ^ 96 && res 10 1 1 == 30 && res 11 2 1 == 1 + 10 * 2 ^ 32,
    combElem 2 0 0xFFFFFFFF 2 == 1] = true := by
  decide +kernel

/-- A READ of one block at the head of its drive, whose namespace has 100 blocks. -/
def drives (r : Bool) : State := { user [] with
  drives := [(0, { present := true, ready := r, spaces := [{ port := 0, nsid := 1, blocks := 100, format := true }] })]
  regs := [(nsassignAddr 0 0, wd (2 ^ 63 + 1))] }

/-- Page 9 in service, its read with the drive. -/
def service9 : Service :=
  { id := 5, part := 0, asid := 0, die := 0, page := 9, leafPa := 0x205000, leaf := 0x1234, ext := 0, frame := some 0x700000, port := 0, rtag := 0, core := 0, va := 0x90008 }

theorem witness_storage : all [
    let x := fun (first : Word) => cmd 16 [head 16 4, 0, at0 0, first, 1]
    !leavesSpace (user []) 0 (at0 0) 4096 && (endCmd (user []) (x 0) 3 9 0 == startCellar (user []) (x 0)) && (endCmd (drives true) (x 100) 3 10 0 == startCellar (drives true) (x 100)) &&
      (endCmd (drives false) (x 99) 3 15 0 == startCellar (drives false) (x 99)) && (startCellar (drives true) (x 99)).cellars.map (fun y => y.pieces) == [[(99, at0 0, 1)]],
    (cellarPieces 10 70 0)[2]? == some (74, 262144, 6),
    let x := { cmd 16 [head 16 4, 0, at0 0, 99, 1] with pieces := [(99, at0 0, 1)], sent := true }
    let s := { drives true with cellars := [x] }
    (outstanding x).contains 0 && spans s 0 true .engineOut (at0 0) 4096 == ([.run (locScratch 0 0) 0 0 0 4096], s) && s.services.isEmpty && s.liveTag 0,
    let v := service9
    let s := poke { drives true with services := [v] } 0x205000 8 0x1234
    gives (.nvmeCompletion 20480 2 []) s (fun t => t.services.isEmpty) && read64 s.mem v.leafPa == v.leaf,
    leaves (.nvmeCompletion 9 0 []) (user []) (user []),
    gives (.driveLinkDown 0) (drives true) (fun t => decide (t.vectors = [4]) && !(t.drive 0).ready) &&
      gives (.driveControllerReady 0) (drives false) (fun t => (t.drive 0).ready),
    let s := fun (n : Nat) => { drives true with cellars := [{ cmd 16 [head 16 4, 0, at0 0, 99, 1] with pieces := [(99, at0 0, 1)], sent := true, times := [(0, 5)] }], time := n }
    gives (.driveTimeout 0) (s 30000000005) (fun t => t.cellars.isEmpty) && leaves (.driveTimeout 0) (s 30000000004) (s 30000000004),
    let s := fun (n : Nat) => { drives true with services := [{ service9 with since := 5 }], time := n }
    gives (.driveTimeout 0) (s 30000000005) (fun t => t.services.isEmpty) && leaves (.driveTimeout 0) (s 30000000004) (s 30000000004),
    let x := { cmd 16 [head 16 4, 0, at0 0, 99, 1] with pieces := [(99, at0 0, 1)], left := [0] }
    let s := { drives true with cellars := [x] }
    driveLoad (modCmd s 3 (fun _ => x)) 0 == 0 && (queuedServices (modCmd s 3 (fun _ => x)) 0).isEmpty &&
      (submitPieces s x 2).nvme == [{ id := 12288, port := 0, nsid := 1, write := false, first := 99, blocks := 1, data := [] }]] = true := by
  decide +kernel

/-- Direction 0's ring of two slots at core 1's receive Hatch, and a record with a number at its head. -/
def stairs (made : Bool) (e f n rtag : Nat) : State :=
  { linked with
    sends := [{ cmd 20 [head 20 3, 0, at0 0, wd n] with planned := true, snap := Memory.writes [] (cellsAt 0 [7, 8]), rtag := rtag }]
    stairs := [(0, { queue := [3], made := made, base := at0 0x400, core := 512, hatch := 3, n := 2, e := e, f := f })]
    }.setHatch 512 3 { kind := 5, arg := 3, slotA := 0 }

theorem witness_stairs : all [
    (headRecord (stairs true 5 4 5 0) 0).isSome && arrivalRoom (stairs true 5 4 5 0) 0 && spans (stairs true 5 4 5 0) 512 true .engineOut (at0 0x400 + 256) 256 ==
      ([.run (locScratch 512 0x500) 0 0 0 256], stairs true 5 4 5 0),
    gives (.stairRecordArrival 0) (stairs true 5 4 5 0) (fun t => (t.stair 0).e == 6 && t.mem.readN (locScratch 512 0x500) 2 == [7, 8] && t.sends.isEmpty &&
      (t.hatch 512 3).entries.map (fun e => e.value) == [0x500000000#64]),
    gives (.stairRecordArrival 0) (stairs false 5 4 5 0) (fun t => t.sends.length == 1 && (t.stair 0).e == 5),
    leaves (.stairRecordArrival 0) (stairs false 5 4 5 0) (stairs false 5 4 5 0) && leaves (.stairRecordArrival 0) (stairs true 5 2 5 0) (stairs true 5 2 5 0),
    gives (.stairRecordArrival 0) (stairs true 5 4 4 0) (fun t => t.sends.isEmpty && (t.stair 0).e == 5), gives (.stairRecordArrival 0) (stairs true 5 4 6 0) (fun t => t.sends.isEmpty && (t.stair 0).e == 5),
    gives (.stairRecordArrival 0) (stairs true 0xFFFFFFFF 4 0xFFFFFFFF 9) (fun t => t.sends.isEmpty && (t.stair 0).e == 0),
    let s := { stairs false 0 0 0 0 with sends := [{ cmd 21 [head 21 2, 0, 7] with seq := 0 }] }
    gives (.stairResetArrival 0 3) s (fun t => (t.stair 0).e == 8 && (t.stair 0).f == 7 && t.sends.isEmpty),
    let s := ({ stairs true 5 4 0 0 with sends := [{ cmd 21 [head 21 2, 0, 7] with seq := 0 }] }).setHatch 512 3 { kind := 5, arg := 3, entries := [{ value := 0x700000000 }, { value := 0x800000000 }] }
    gives (.stairResetArrival 0 3) s (fun t => (t.stair 0).e == 8 && (t.stair 0).f == 7 && t.sends.isEmpty && (t.hatch 512 3).entries.map (fun e => e.value) == [0x700000000#64]) &&
      gives (.stairResetArrival 0 3) (s.modCore 512 (fun k => { k with part := 3 })) (fun t => (t.stair 0).e == 5 && t.sends.isEmpty) &&
      gives (.stairResetArrival 0 3) (s.setHatch 512 3 { kind := 5, arg := 1, entries := [{ value := 0x800000000 }] }) (fun t => (t.stair 0).f == 7 && (t.hatch 512 3).entries.length == 1),
    gives (.dieToDieLinkFailure 0) (stairs true 5 4 5 0) (fun t => t.sends.isEmpty && !look true 0 t.dieLinks),
    leaves (.dieToDieLinkFailure 1) linked { linked with dieLinks := put 1 false linked.dieLinks },
    (startFree (command linked 5 2 []) (cmd 23 [head 23 2, 0, 7])).stairs.map (fun d => d.2.f) == [7]] = true := by
  decide +kernel

/-! Translation, the configuration space, power, bring-up, and the step (R366-R443). -/

/-- Slot 0 is held on page 9, which entry 4 of die 0's fault buffer reports. -/
def heldOn (x : List FaultEntry) : State :=
  ((user []).modSlot 0 (fun t => { t with wait := some (.fault 0x90008), state := .faultHeld })).setFaultBuf 0 { entries := x }
def fault4 : FaultEntry := { index := 4, level := 1, reason := 0, rtag := 0, core := 0, kind := 0, asid := 0, part := 0, va := 0x90008 }

theorem witness_translation : all [
    let s := (user []).modSlot 0 (fun t => { t with wait := some (.fault 0x18), state := .faultHeld })
    (tlbFind s 0 0x18).isSome && gives (.walkComplete 0) s (fun t => t.mine.state == .ready && decide (t.mine.wait = none)),
    (tlbFind (heldOn []) 0 0x90008).isNone && (match walk (heldOn []) 0 0x90008 with | .fault _ _ => true | _ => false) && leaves (.walkComplete 0) (heldOn [fault4]) (heldOn [fault4]) &&
      gives (.walkComplete 0) (heldOn []) (fun t => (t.faultBuf 0).entries.map (fun e => (e.va, e.part, e.shown)) == [(0x90008, 0, false)]),
    let s := (mapped (user [])).modCore 0 (fun k => { k with dirtyLog := [(0, 0, 0)] })
    gives (.dirtyLogMerge 0) s (fun t => t.here.dirtyLog.isEmpty && read64 t.mem 0x204000 == 0x2FF#64) && gives (.dharvestGo 0) s (fun t => t.here.dirtyLog.isEmpty && (t.cluster 0).harvest),
    gives (.harvestComplete 0) ((user []).modCluster 0 (fun k => { k with harvest := true })) (fun t => !(t.cluster 0).harvest),
    gives (.fbheadRead 0) (heldOn [fault4]) (fun t => t.fbhead == BitVec.ofNat 128 (4 * 2 ^ 118 + 2 ^ 114 + 0x90008) && (t.faultBuf 0).entries.map (fun e => e.shown) == [true]),
    gives (.fbheadRead 0) (heldOn []) (fun t => t.fbhead == BitVec.ofNat 128 (3 * 2 ^ 116)),
    leaves (.fbrespRetry 0 5) (heldOn [fault4]) (heldOn [fault4]) && leaves (.fbrespFailXlate 0 5) (heldOn [fault4]) (heldOn [fault4]) && leaves (.fbrespFailPerm 0 5) (heldOn [fault4]) (heldOn [fault4]),
    gives (.fbrespRetry 0 4) (heldOn [fault4]) (fun t => t.mine.state == .ready && (t.faultBuf 0).entries.isEmpty) &&
      gives (.fbrespFailXlate 0 4) (heldOn [fault4]) (fun t => t.mine.trapcause == 8#8 && t.mine.trapval == 0x90008#64) &&
      gives (.fbrespFailPerm 0 4) (heldOn [fault4]) (fun t => t.mine.trapcause == 9#8 && t.mine.trappc == 0x100#64),
    let logged : Nat → LogEntry := fun a => { id := a, va := a, data := [1], op := .store, rtag := 0, ctx := 0, user := true }
    let s := (heldOn [fault4]).modCore 0 (fun k => { k with sideLog := [logged 0x90020, logged 0x90010] })
    goneOf (s.core 0) 0 9 == [0x90020, 0x90010] && gives (.fbrespFailXlate 0 4) s (fun t => t.mine.trapcause == 8#8 && t.mine.trapval == 0x90010#64 && t.mine.logFailed.isNone &&
      t.here.sideLog.isEmpty),
    gives (.fbrespFailXlate 0 4) ((heldOn [fault4]).modSlot 0 (fun t => { t with wait := some (.fault 0x80000), also := [0x90008] })) (fun t => t.mine.trapval == 0x90008#64) &&
      gives (.fbrespRetry 0 4) ((heldOn [fault4]).modSlot 0 (fun t => { t with wait := some (.fault 0x80000), also := [0x90008] })) (fun t => t.mine.state == .ready),
    (decodeHalves 0xFFFF 0xFFFF).isNone && gives (.illegalOp 0 0xFFFFFFFF) (user []) (fun t => t.mine.trapcause == 1#8 && t.mine.trapval == 0xFFFFFFFF#64),
    gives (.fetchFault 0) ((user []).modSlot 0 (fun t => { t with pc := 0x0100000000000000 })) (fun t => t.mine.trapcause == 6#8 && t.mine.trapval == 0x0100000000000000#64) &&
      gives (.fetchFault 0) ((user []).modSlot 0 (fun t => { t with pc := 0xFF00000000000000 })) (fun t => t.mine.trapcause == 5#8)] = true := by
  decide +kernel

theorem witness_configuration : all [
    gives (.dqctlWrite 0 0 (-1)) (user []) (fun t => t.reg (dqctlAddr 0 0) == 0xFFFFFFFF7F#64), gives (.ringdWrite 0 1 (-1)) (user []) (fun t => t.reg (ringdAddr 0 1) == 0xFFFFFFFFFFFFC0#64),
    leaves (.ringdWrite 0 0 (-1)) (queued 1 (user [])) (queued 1 (user [])), gives (.ffpoolWrite 0 0 (-1)) (user []) (fun t => t.reg (ffpoolAddr 0 0) == 0xFFFFFFFFFFFFE000#64),
    let s := (user []).setReg (ffpoolAddr 0 0) (wd (4 * 2 ^ 52))
    gives (.fftailWrite 0 0 3) s (fun t => t.reg (fftailAddr 0 0) == 3#64) && leaves (.fftailWrite 0 0 4) s s &&
      leaves (.fftailWrite 0 0 2) ((s.setReg (fftailAddr 0 0) 3)) (s.setReg (fftailAddr 0 0) 3),
    gives (.walkshareWrite 0 0 16) (user []) (fun t => t.reg (walkshareAddr 0 0) == 16#64) && leaves (.walkshareWrite 0 1 1) ((user []).setReg (walkshareAddr 0 0) 16) ((user []).setReg (walkshareAddr 0 0) 16),
    gives (.tilecapWrite 0 0x13) (user []) (fun t => t.reg (tilecapAddr 0) == 3#64 && (t.tile 0).level == 3 && (t.tile 0).moving == some (false, 100)),
    gives (.registerWrite (busAddr 1 0x108) (-1)) (user []) (fun t => t.reg (busAddr 1 0x108) == 0xFFFFFFFFFF000#64) && registerOf 0x10 == .none && leaves (.registerWrite 0x10 7) (user []) (user []) &&
      gives (.registerWrite (busAddr 0 0x41008) (-1)) (user []) (fun t => t.reg (busAddr 0 0x41008) == 0x8000FFFF0000000F#64),
    let idle := (user []).modCluster 1 (fun k => { k with state := 2 })
    leaves (.clustctlDrain 1) idle idle && leaves (.clustctlAssign 1 3) (user []) (user []),
    ((user []).cluster 1).state == 0 && (clusterCores 1).length == 32,
    gives (.clustctlAssign 1 3) ((user []).modCluster 1 (fun k => { k with state := 2 })) (fun t => (t.cluster 1).state == 0 && (t.core (coreAt 1 0)).part == 3#4 && (t.core (coreAt 1 31)).part == 3#4)] = true := by
  decide +kernel

theorem witness_power_time_host : all [
    let s := { user [] with tiles := [(0, { moving := some (false, 50) })], time := 50 }
    leaves (.dvfsStep 0) s (retarget (s.modTile 0 (fun k => { k with voltage := 29, moving := none })) 0) && leaves (.dvfsStep 0) { s with time := 49 } { s with time := 49 },
    targetLevel (user []) 0 == 15 && ((retarget (user []) 0).tile 0).level == 15 && ((retarget ((user []).setReg (tilecapAddr 0) 5) 0).tile 0).moving == some (false, 100) &&
      ((retarget { user [] with tiles := [(0, { voltage := 10, level := 5 })] } 0).tile 0).moving == some (true, 100),
    let s := { user [] with regs := [(pwrlimAddr, 1)] }
    leaves (.powerPeriod { tiles := [], total := 950, peak := 949 }) { s with overTime := 3 } { s with power := 950 } &&
      leaves (.powerPeriod { tiles := [], total := 900, peak := 950 }) s { s with power := 900 } &&
      gives (.powerPeriod { tiles := [], total := 949, peak := 949 }) ({ s with actions := [.cap 2] }.modCluster 2 (fun k => { k with memcap := 255 })) (fun t =>
        (t.cluster 2).memcap == 0 && t.actions.isEmpty) &&
      gives (.powerPeriod { tiles := [], total := 949, peak := 949 }) ({ s with actions := [.cap 2] }.modCluster 2 (fun k => { k with memcap := 31 })) (fun t =>
        (t.cluster 2).memcap == 62 && t.actions == [.cap 2]) &&
      gives (.powerPeriod { tiles := [], total := 949, peak := 949 }) ({ s with actions := [.removal [0]] }.modCore 0 (fun k => { k with removed := 2 })) (fun t =>
        t.here.removed == 1 && t.actions.isEmpty) &&
      gives (.powerPeriod { tiles := [], total := 1001, peak := 1001 }) { s with overTime := 9 } (fun t => decide (t.vectors = [5]) && (t.cluster 0).memcap == 127 && t.overTime == 10),
    gives (.timeSync 20 true) { user [] with tslost := true, goodRuns := 9 } (fun t => !t.tslost && decide (t.vectors = [1])) && gives (.timeSync 21 true) { user [] with badRuns := 9 } (fun t =>
      t.tslost && decide (t.vectors = [1])) && gives (.timeSync 0 false) (user []) (fun t => t.tslost && t.badRuns == 1),
    ((retarget { user [] with tiles := [(0, { voltage := 10, level := 10, settled := 15, moving := some (false, 9) })], regs := [(tilecapAddr 0, 10)] } 0).tile 0).level == 10,
    gives (.atsInvalidation 5) { user [] with atc := [4, 5] } (fun t => t.atc == [4] && t.atsDone == [5]) &&
      gives (.atsInvalidation 5) ((user []).modSlot 1 (fun t => { t with checked := some [.global 0 (2 ^ 51 + 5 * 4096) 0x7F 0] })) (fun t => t.atsWaits == [5] && t.atsDone.isEmpty),
    gives (.hostMemAccess false 0x40 [0, 0]) { user [] with hdm := 0x1000 } (fun t => t.hostData == [[0, 0]]),
    gives (.hostMemAccess true 0x40 [1, 2]) { user [] with hdm := 0x1000 } (fun t => t.mem.readN 0x40 2 == [1, 2]) && gives (.hostMemAccess false 0x40 [1, 2]) { user [] with hdm := 0x1000 } (fun t => t.mem.isEmpty) &&
      leaves (.hostMemAccess true 0xFFF [1, 2]) { user [] with hdm := 0x1000 } { user [] with hdm := 0x1000 }] = true := by
  decide +kernel

/-- The device at a stage. -/
def stage (n : Nat) : State := { State.reset with stage := n }
def image : Image := { svn := 1, publicKey := [], body := [], signature := [] }

theorem witness_bring_up : all [
    gives .deviceReset (poke (poke (user []) 0x40 8 5) (2 ^ 51) 8 6) (fun t => t.stage == 0 && !t.ready && t.mem.read 0x40 == 0 && t.mem.read (2 ^ 51) == 6#8 && t.slots.isEmpty) &&
      gives .deviceReset { poke (user []) (2 ^ 51) 8 6 with hostLag := [(2 ^ 51, (5, [(0, 5)]))] } (fun t => t.mem.read (2 ^ 51) == 5#8),
    gives .firmwareVerify (stage 1) (fun t => t.stage == 2 && t.failed && decide (t.vectors = [0])),
    let c : Calibration := { hbm := true, links := [true, true, true, true], ports := [true], drives := [true], spaces := [] }
    gives (.calibration c) (stage 2) (fun t => t.stage == 3 && !t.failed && (t.drive 0).ready && look false 0 t.ports && !look false 1 t.ports) &&
      gives (.calibration { c with links := [true] }) (stage 2) (fun t => t.failed),
    gives (.memoryInit (List.replicate 8 true)) (poke (stage 3) 0x40 8 5) (fun t => t.stage == 4 && t.mem.isEmpty) && gives (.memoryInit []) (stage 3) (fun t => t.failed && decide (t.vectors = [0])),
    gives (.firmwareConfig true 77 [(busAddr 0 0x40180, 300), (2 ^ 32 + 2048 * 5 + 0x29, 3), (2 ^ 33, 0x1000)]) (stage 4) (fun t => t.stage == 5 && t.time == 77 && busRead t pwrlimAddr == 300#64 &&
      (t.core 5).lmshare == 3#4 && t.hdm == 0x1000),
    gives .setReady (stage 5) (fun t => t.ready && t.stage == 6 && decide (t.vectors = [0])), leaves .setReady (stage 4) (stage 4),
    gives (.firmwareDelivery image) (stage 3) (fun t => t.backup == some image) && gives (.firmwareDelivery image) { stage 3 with usedBackup := true } (fun t => t.primary == some image),
    gives (.rollbackRaise 5) { stage 3 with rollback := 9 } (fun t => t.rollback == 9) && gives (.rollbackRaise 12) { stage 3 with rollback := 9 } (fun t => t.rollback == 12),
    gives .getVersion (stage 2) (fun t => t.spdm == [spdmBusy]),
    (next (runEvent (.spdmRequest 0x83) (stage 2))).any (fun t => t.spdm == [spdmBusy]) && (next (runEvent (.spdmRequest 0x83) (stage 3))).any (fun t => t.spdm == [[0x13, 0x7F, 0x07, 0x83]]),
    (Sys2Proof.Machine.record { stage 1 with measured := [(1, [])] } 1 [5]).measured == [(1, [])],
    sha256 [0x61, 0x62, 0x63] == leBytes 0xAD1500F261FF10B49C7A1796A36103B02322AE5DDE404141EACF018FBF1678BA 32] = true := by
  decide +kernel

/-- Clauses of the statements at their other ends: one half of a pair in error; an instruction that has issued; a marked register of SUSPEND; PREEMPT
without a place; BUDGET of a tagged operation that is backing off; TIME at TIMERCMP; a lane in error; MLOAD and the flags. -/
theorem witness_marks_and_waits : all [
    let s := { loadState 0x10 with bad := [0x1A] }
    (issues (.ldx 6 4 0) s [0x10]).any (fun s1 => (loadAccessed s1 [{ a := 0x10, n := 16 }] .load).any (fun x => match x.1 with
      | [p] => !anyBad x.2 0 p.loc 8 && anyBad x.2 0 (p.loc + 8) 8
      | _ => false)) && gives (.ldx 6 4 0) s (fun t => t.mine.xr 6 == 0#64 && !t.mine.poisoned 6 && t.mine.xr 7 == 0x18#64 && t.mine.poisoned 7),
    let s := (user [(4, 7), (5, 8)]).modSlot 0 (fun t => { t with inst := some (.add 3 4 5, 1), wait := some .board, state := .waiting })
    s.mine.issued == some (.add 3 4 5, 1) && (issues (.add 3 4 5) s [7, 8]).any (fun s1 => s1 == s),
    let s := (user [(4, 0x11000)]).modSlot 0 (fun t => t.setX 2 99 true)
    markedCarry s.mine == some 99 && (issues (.suspend 4) s [0x11000]).any (fun s1 => leaves (.suspend 4) s (trap s1 .memerr 99)),
    let full := fun (units : Word) (k : Core) => { k with clspill := units, saved := (List.range 16).map (fun i => { num := 9 + i, place := some i }) }
    let preempts := fun (f : Core → Core) (p : State → Bool) => controls (.slotctlPreempt 3 4 5) 2 ((user []).modCore 0 f) id p
    preempts (fun k => { k with preempt := some { victim := 3 } }) (fun t => decide (t.mine.wait = some .turn)) &&
      (freePlace (full 0 {})).isNone && (freeUnits (full 0 {})).isEmpty && preempts (full 0) (fun t => t.mine.xr 3 == 7#64) &&
      (freeUnits (full (2 ^ 32) {})).length == 1 && preempts (full (2 ^ 32)) (fun t => decide (t.mine.wait = some .turn)),
    let s := (user []).modSlot 0 (fun t => { t with inForce := true, wait := some (.tagged load20008 false 0 0), state := .waiting })
    gives (.budgetExpiry 0) s (fun t => t.mine.budgetPending && decide (t.mine.wait = none) && t.mine.pc == s.mine.pc),
    let s := { ((user []).modSlot 0 (fun t => { t with ie := true })).modCore 0 (fun k => { k with sched := true, msgpend := 4, timercmp := 5 }) with time := 5 }
    leaves (.takeAsyncTrap 0) s (trap s .timer 5),
    let s := { vecMem 0x10000 0 (0, 2) with bad := [0x10005] }
    gives (.vld 1 4 2 0) s (fun t => t.mine.vr 1 1 == 0x10004#32 && markedLane t.mine [1] [1] == some 0x10004 && (markedLane t.mine [1] [0]).isNone),
    completes (.mload 0xFF00000000000100 0x1000) (poke (mats 0 0) (locScratch 0 0x100) 16 0x123456) 9 0 (fun t => !t.here.acc0.aovf && !t.here.acc0.anar),
    gives (.walkComplete 0) ((user []).modSlot 0 (fun t => { t with wait := some (.fault 0x18), state := .faultHeld, inst := some (.ldD64 3 4 0, 2) })) (fun t =>
      t.mine.state == .ready && decide (t.mine.wait = some .turn))] = true := by
  decide +kernel

/-- The same for the statements about engines, peers and attestation: a ring of another partition, a SEND pushed before or after a RESET, work under a proxy,
an answer of one word, SPDM's order. -/
theorem witness_engines_and_peers : all [
    gives (.stairRecordArrival 0) ((stairs true 5 4 5 0).modCore 512 (fun k => { k with part := 3 })) (fun t => t.sends.isEmpty && (t.stair 0).e == 5),
    (startFree ((stairs true 5 4 5 0).modCore 512 (fun k => { k with part := 3 })) { cmd 23 [head 23 2, 0, 7] with core := 512, hatch := 3 }).stairs.map (fun d => d.2.f) == [4],
    let es := [head 20 3, 0, at0 0, 7].map (fun w => ({ value := w } : HatchEntry))
    let s := command linked 5 0 [head 20 3, 0, at0 0, 7]
    ((resetFrom s 0 2 5 es [] 2).hatch 0 2).cmd.isEmpty && ((resetFrom s 0 2 0 es [] 2).hatch 0 2).cmd.length == 4,
    let w := { peerDoes (.load 8) 0x11000 [] with rtag := 9 }
    let s := poke hosting 0x11000 8 0x1234
    proxyFor s 3 9 == some 5 && gives (.peerWorkArrival w) s (fun t => decide (t.replies = [(3, 9, .value (leBytes 0x1234 8))])) &&
      gives (.peerWorkArrival w) { s with reqs := [(5, { state := .annulled, proxyOf := some (3, 9) })] } (fun t => t.dropped == 1 && t.replies.isEmpty) &&
      gives (.peerWorkArrival { w with rtag := 8 }) s (fun t => decide (t.replies = [(3, 8, .noproxy)]) && t.dropped == 1) &&
      gives (.peerWorkArrival { w with rtag := 8 }) { s with regs := (pquotaAddr 0, 1000) :: s.regs, pools := [(0, { fresh := 100 })] } (fun t =>
        decide (t.replies = [(3, 8, .value (leBytes 0x1234 8))]) && (t.req 100).proxyOf == some (3, 8)),
    gives (.loadComplete 0 0x1234 0) (remote (.peer (.word 0x8000000000000010) false)) (fun t => t.mine.read == [0x1234#64] && t.mine.pc == 0x100#64 && t.mine.state == .ready),
    gives .getVersion (stage 3) (fun t => t.spdmStage == 1 && t.spdm.length == 1) && gives .getCapabilities (stage 3) (fun t => t.spdm == [spdmUnexpected]) &&
      gives .getCapabilities { stage 3 with spdmStage := 1 } (fun t => t.spdm.length == 1 && t.spdmStage == 2) &&
      gives (.negotiateAlgorithms true false) { stage 3 with spdmStage := 2 } (fun t => t.spdmHash && !t.spdmSlh && t.spdmStage == 3) &&
      gives .getDigests { stage 3 with spdmStage := 3 } (fun t => t.spdm == [spdmInvalid]) &&
      gives (.getMeasurements 0 true []) { stage 3 with spdmStage := 3 } (fun t => t.spdm == [spdmInvalid])] = true := by
  decide +kernel

/-- ADDI x3, x0, #5 at slot 1's PC, which the next step fetches. -/
theorem witness_step : all [
    let s := poke (user []) 0x200 4 (word32 (.addi 3 0 5)).toNat
    let t := turnState s 1
    decide (t = (s.actFor 1).modCore 0 (fun k => { k with lastSlot := 1, turns := k.turns + 1 })) && s.cores.all (fun k => k.2.barriers.isEmpty) && s.ready && s.pending.isEmpty && (due s).isNone && nextSlot s == some 1 && (asyncCause t 1).isNone && (t.slot 1).logFailed.isNone && s.schedule.isEmpty && t.bad.isEmpty && t.atc.isEmpty &&
      translate t 0 0x200 .fetch true == (.ok 0x200 0x7F 0, t) && translate t 0 0x202 .fetch true == (.ok 0x202 0x7F 0, t) &&
      decide (decode (t.mem.readN 0x200 4) = some (.addi 3 0 5, [])) && spaceOf (0x200 : Word) == .global,
    let s := poke (user []) 0x200 4 0xFFFFFFFF
    nextSlot s == some 1 && (decodeHalves 0xFFFF 0xFFFF).isNone && (s.slot 1).occupied] = true := by
  decide +kernel

theorem witness_whole_machine : all [
    encoded (.add 3 4 5) && wellFormed (.add 3 4 5), encoded (.vadd16 1 3) && wellFormed (.vadd16 1 3), decide (decode (encode (.add 3 4 5) ++ [7]) = some (.add 3 4 5, [7])),
    State.reset.mem.wf && (poke (user []) 0x40 8 0x100).mem.wf, (user []).mine.state == .ready && (user []).mine.held.isEmpty,
    leaves .nop (user []) ((user []).setSlot 0 { (user []).mine with pc := 0x104 }), (match exec (.slotAnnul 32768) (user []) with | .fault .noSuchUnit => true | _ => false)] = true := by
  decide +kernel

end Sys2Proof.Tests
end

section
/-! PROOFS. How an encoded instruction issues (R138, R140): every one of them begins with `issue`, and what `issue` does once checks 2 to 5 have passed. -/

namespace Sys2Proof.Machine

/-- An instruction is its issue and what it does with the operands; one with a value kept from before its wait (MSTORE) is resumed without one. -/
theorem exec_eq_issue_bnd {i : Instr} {s : State} {k : Issue} (hk : needs i s.mine = some k)
    (hr : s.mine.issued = none ∨ s.mine.read = []) :
    ∃ f : List Word → State → Res Unit, exec i s = ((issue i k s).bnd f).outcome := by
  cases i
  case mstore rd a b rm =>
    obtain rfl := Option.some.inj hk
    have hnew : (if s.mine.issued.isSome then s.mine.read else []) = [] := by
      rcases hr with h | h <;> simp [h]
    simp only [exec, execMstore, hnew]
    exact ⟨_, rfl⟩
  case csrset rd a n =>
    obtain rfl := Option.some.inj hk
    by_cases ha : a = 0#6
    · subst ha; exact ⟨_, rfl⟩
    · simp only [exec, execCsrset, if_neg ha, bne_iff_ne.2 ha]
      exact ⟨_, rfl⟩
  case csrclr rd a n =>
    obtain rfl := Option.some.inj hk
    by_cases ha : a = 0#6
    · subst ha; exact ⟨_, rfl⟩
    · simp only [exec, execCsrclr, if_neg ha, bne_iff_ne.2 ha]
      exact ⟨_, rfl⟩
  -- an encoded instruction is written so; an event needs no issue
  all_goals first
    | (obtain rfl := Option.some.inj hk; exact ⟨_, rfl⟩)
    | cases hk

/-- An instruction whose issue ends it, ends there. -/
theorem exec_of_issue_stop {i : Instr} {s s1 : State} {k : Issue} (hk : needs i s.mine = some k)
    (hr : s.mine.issued = none ∨ s.mine.read = []) (h : issue i k s = .stop s1) : exec i s = .next s1 := by
  obtain ⟨f, hf⟩ := exec_eq_issue_bnd hk hr
  rw [hf, h]; rfl

/-- Checks 2 to 5 of R140 pass. -/
structure ChecksPass (i : Instr) (k : Issue) (s : State) : Prop where
  wellFormed : wellFormed i = true
  legal : k.legal = true
  level : k.level ≤ s.here.featmask.toNat
  mode : k.sup = true → s.mine.mode = true
  lanes : k.vec = true → s.mine.grant ≠ 0

/-- The instruction names a Hatch. -/
def Issue.hatched (k : Issue) : Bool := k.srcs.any isHatch || (match k.dst with | some r => isHatch r | none => false)

/-- The instruction needs a place in the matrix unit or its queue, and there is none (R260). -/
def unitFull (s : State) (k : Issue) : Bool := k.unit && s.here.unitBusy.isSome && s.here.unitNext.isSome

/-- What `issue` does between checks 5 and 7: check 6, the waits of R138 and R260, and the taking of Hatch entries (`issue_of_checks`). -/
def takeOperandPlaces (s : State) (k : Issue) : Res Unit :=
  if !s.mine.held.isEmpty || s.mine.reserve.isSome then .go () s
  else if !k.hatched then (if unitFull s k then waitHere s .unitBusy else .go () s)
  else
    match hatchDirection s k with
    | some v => trapRes s .hatch v
    | none =>
      if unitFull s k then waitHere s .unitBusy
      else if hatchReady s k then .go () (takeHatches s k) else waitHere s .hatch

theorem issue_of_checks {i : Instr} {k : Issue} {s : State} (hi : s.mine.issued = none) (h : ChecksPass i k s) :
    issue i k s = (takeOperandPlaces s k).bnd fun _ s1 => operands k s1 := by
  obtain ⟨hw, hl, hf, hm, hv⟩ := h
  have hsup : ¬ (k.sup && !s.mine.mode) = true := by simpa using hm
  have hvec : ¬ (k.vec && decide (s.mine.grant = 0)) = true := by simpa using hv
  unfold issue
  dsimp only
  rw [if_neg (by simp [hi]), if_neg (by simp [hw, hl]), if_neg (Nat.not_lt.2 hf), if_neg hsup, if_neg hvec]
  rfl

/-- The scalar fields of an instruction that names no Hatch read their registers, whatever its slot holds. -/
theorem sourceValues_registers (t : Slot) (l : List RegField) (held : List (Nat × HatchEntry)) (h : ∀ q ∈ l, isHatch q = false) :
    sourceValues t l held = l.map (fun r => (t.xr r.toNat, r != 0#6 && t.poisoned r.toNat)) := by
  induction l with
  | nil => rfl
  | cons r l ih =>
    obtain ⟨hr, hl⟩ := List.forall_mem_cons.1 h
    simp [sourceValues, hr, ih hl]

theorem isHatch_eq_false {r : RegField} : isHatch r = false ↔ r.toNat < 32 := by simp [isHatch]

/-- The slot holds nothing of an earlier issue: it begins anew. -/
structure Begins (s : State) : Prop where
  issued : s.mine.issued = none
  held : s.mine.held = []
  reserve : s.mine.reserve = none

section
variable {i : Instr} {k : Issue} {s : State}

theorem issue_turnsAway (hb : Begins s) (h : ChecksPass i k s) {v : Word} (hk : k.hatched = true) (hd : hatchDirection s k = some v) :
    issue i k s = .stop (trap s .hatch v) := by
  rw [issue_of_checks hb.issued h]
  simp [takeOperandPlaces, hb.held, hb.reserve, hk, hd, trapRes]

theorem issue_waitsForUnit (hb : Begins s) (h : ChecksPass i k s) (hd : hatchDirection s k = none) (hu : unitFull s k = true) :
    issue i k s = .stop (waitSlot s s.me .unitBusy) := by
  rw [issue_of_checks hb.issued h]
  cases hk : k.hatched <;> simp [takeOperandPlaces, hb.held, hb.reserve, hk, hd, hu, waitHere]

theorem issue_waitsForHatch (hb : Begins s) (h : ChecksPass i k s) (hk : k.hatched = true) (hd : hatchDirection s k = none)
    (hu : unitFull s k = false) (hr : hatchReady s k = false) : issue i k s = .stop (waitSlot s s.me .hatch) := by
  rw [issue_of_checks hb.issued h]
  simp [takeOperandPlaces, hb.held, hb.reserve, hk, hd, hu, hr, waitHere]

theorem unitFull_eq_false (hu : k.unit = true → s.here.unitBusy = none ∨ s.here.unitNext = none) : unitFull s k = false := by
  cases hk : k.unit
  · simp [unitFull, hk]
  · rcases hu hk with h | h <;> simp [unitFull, h]

/-- An instruction that names registers only comes to check 7 at once, with nothing taken. -/
theorem issue_eq_operands (h : ChecksPass i k s) (hk : k.hatched = false) (hu : unitFull s k = false) : issue i k s = operands k s := by
  cases hi : s.mine.issued with
  | some x => simp [issue, hi]
  | none =>
    rw [issue_of_checks hi h]
    by_cases hh : (!s.mine.held.isEmpty || s.mine.reserve.isSome) = true
    · simp [takeOperandPlaces, hh]
    · simp [takeOperandPlaces, hh, hk, hu]

end

/-- Check 7 traps for the first marked source (log 56), with the marked value. -/
theorem operands_marked {k : Issue} {s : State} {l1 l2 : List RegField} {r : RegField} (hs : ∀ q ∈ k.srcs, isHatch q = false)
    (hl : k.srcs = l1 ++ r :: l2) (hc : ∀ q ∈ l1, q ≠ 0#6 → s.mine.poisoned q.toNat = false) (hr : r ≠ 0#6)
    (hp : s.mine.poisoned r.toNat = true) : operands k s = .stop (trap s .memerr (s.mine.xr r.toNat)) := by
  have hclean : (l1.map (fun q => (s.mine.xr q.toNat, q != 0#6 && s.mine.poisoned q.toNat))).find? (fun v => v.2) = none := by
    refine List.find?_eq_none.2 fun v hv => ?_
    obtain ⟨q, hq, rfl⟩ := List.mem_map.1 hv
    simpa only [Bool.and_eq_true, bne_iff_ne, ne_eq, not_and, Bool.not_eq_true] using hc q hq
  have hmarked : (r != 0#6 && s.mine.poisoned r.toNat) = true := by rw [bne_iff_ne.2 hr, hp]; rfl
  unfold operands
  dsimp only
  rw [sourceValues_registers _ _ _ hs, hl, List.map_append, List.map_cons, hmarked, List.find?_append, hclean, Option.none_or]
  rfl

/-- A first source that does not pop to the slot is what check 6 finds. -/
theorem hatchDirection_source {s : State} {k : Issue} {r : RegField} (hr : isHatch r = true) (hh : k.srcs.head? = some r)
    (hp : (s.hatch s.curCore (hatchNo r)).pops s.curSlot = false) : hatchDirection s k = some (wd (hatchNo r)) := by
  obtain ⟨l, hl⟩ := List.head?_eq_some_iff.1 hh
  simp [hatchDirection, hl, hr, hp]

/-- With no source a Hatch, a destination that takes no push of the slot is what check 6 finds. -/
theorem hatchDirection_destination {s : State} {k : Issue} {r : RegField} (hr : isHatch r = true) (hd : k.dst = some r)
    (hs : ∀ q ∈ k.srcs, isHatch q = false) (hp : (s.hatch s.curCore (hatchNo r)).pushes s.curSlot = false) :
    hatchDirection s k = some (wd (16 + hatchNo r)) := by
  have hf : k.srcs.find? (fun q => isHatch q && !(s.hatch s.curCore (hatchNo q)).pops s.curSlot) = none :=
    List.find?_eq_none.2 fun q hq => by simp [hs q hq]
  simp [hatchDirection, hf, hd, hr, hp]

theorem Issue.hatched_eq_true {k : Issue} : k.hatched = true ↔ k.srcs.any isHatch = true ∨ ∃ d, k.dst = some d ∧ isHatch d = true := by
  cases hd : k.dst <;> simp [Issue.hatched, hd]

theorem Issue.hatched_eq_false {k : Issue} (hs : ∀ q ∈ k.srcs, isHatch q = false) (hd : ∀ d, k.dst = some d → isHatch d = false) :
    k.hatched = false := by
  refine Bool.eq_false_iff.2 fun h => ?_
  rcases Issue.hatched_eq_true.1 h with h | ⟨d, h, hh⟩
  · obtain ⟨q, hq, hh⟩ := List.any_eq_true.1 h
    simp [hs q hq] at hh
  · simp [hd d h] at hh

end Sys2Proof.Machine

open Sys2Proof Sys2Proof.Machine

/-- Settles O11: each clause is a way in which `issue` ends an instruction, which then ends there. -/
theorem issueStops : Obligations.IssueStops := by
  unfold Obligations.IssueStops
  refine ⟨fun i s k hk hw hl hf hm hv hi hh hr hd => ?_, fun i s k r hk hw hl hf hm hv hi hh hr hx => ?_,
    fun i s k l1 l2 r hk hw hl hf hm hv hu hs hd hi hsrc hc hr hp => ?_⟩
  · have hb : Begins s := ⟨hi, hh, hr⟩
    have ok : ChecksPass i k s := ⟨hw, hl, hf, hm, hv⟩
    refine ⟨fun hx hu hnot => ?_, fun hu hbusy hnext => ?_⟩
    · exact exec_of_issue_stop hk (.inl hi) (issue_waitsForHatch hb ok (Issue.hatched_eq_true.2 hx) hd (unitFull_eq_false hu) hnot)
    · exact exec_of_issue_stop hk (.inl hi) (issue_waitsForUnit hb ok hd (by simp [unitFull, hu, hbusy, hnext]))
  · have hb : Begins s := ⟨hi, hh, hr⟩
    have ok : ChecksPass i k s := ⟨hw, hl, hf, hm, hv⟩
    refine ⟨fun hhead hpop => ?_, fun hdst hsrc hpush => ?_⟩
    · have hany : k.srcs.any isHatch = true := List.any_eq_true.2 ⟨r, List.mem_of_head? hhead, hx⟩
      exact exec_of_issue_stop hk (.inl hi)
        (issue_turnsAway hb ok (Issue.hatched_eq_true.2 (.inl hany)) (hatchDirection_source hx hhead hpop))
    · exact exec_of_issue_stop hk (.inl hi)
        (issue_turnsAway hb ok (Issue.hatched_eq_true.2 (.inr ⟨r, hdst, hx⟩)) (hatchDirection_destination hx hdst hsrc hpush))
  · have hregs : ∀ q ∈ k.srcs, isHatch q = false := fun q hq => isHatch_eq_false.2 (hs q hq)
    have hno : k.hatched = false := Issue.hatched_eq_false hregs fun d h => isHatch_eq_false.2 (hd d h)
    refine exec_of_issue_stop hk hi ?_
    rw [issue_eq_operands ⟨hw, hl, hf, hm, hv⟩ hno (unitFull_eq_false hu)]
    exact operands_marked hregs hsrc hc hr hp
end

section
/-! PROOFS. What publishing and writing a result leave alone of the slots, and that a vacated slot is discarded. -/

namespace Sys2Proof.Machine

/-! Slots that stand. -/

theorem OthersSame.refl (s : State) (g : Nat) : OthersSame s s g := fun _ _ => rfl

theorem OthersSame.trans {s t u : State} {g : Nat} (h1 : OthersSame s t g) (h2 : OthersSame t u g) : OthersSame s u g :=
  fun h hg => (h2 h hg).trans (h1 h hg)

theorem slot_of_slots {s t : State} (h : t.slots = s.slots) (g : Nat) : t.slot g = s.slot g := by
  unfold State.slot; rw [h]

theorem OthersSame.of_slots {s t u : State} {g : Nat} (h : OthersSame s t g) (e : u.slots = t.slots) : OthersSame s u g :=
  fun k hk => (slot_of_slots e k).trans (h k hk)

theorem OthersSame.setSlot {s t : State} {g : Nat} (h : OthersSame s t g) (x : Slot) : OthersSame s (t.setSlot g x) g :=
  fun k hk => by simp [hk, h k hk]

theorem OthersSame.modSlot {s t : State} {g : Nat} (h : OthersSame s t g) (f : Slot → Slot) : OthersSame s (t.modSlot g f) g := h.setSlot _

theorem SlotStep.othersSame {s t : State} {g : Nat} (h : SlotStep s t g) : OthersSame s t g := h.slots

/-! Folds and maps. -/

/-- A fold of operations that leave something of a state alone leaves it alone. -/
theorem foldl_leaves {α β σ : Type} {f : σ → α → σ} {p : σ → β} (h : ∀ s a, p (f s a) = p s) (l : List α) (s : σ) :
    p (l.foldl f s) = p s :=
  foldl_keeps (P := fun t => p t = p s) (fun t a ht => (h t a).trans ht) l rfl

/-- What a change of a map's records leaves of each, it leaves of the record at a number. -/
theorem look_map_leaves {α β : Type} (d : α) (k : Nat) (p : α → β) (F : Nat × α → Nat × α) (hk : ∀ x, (F x).1 = x.1)
    (hp : ∀ x, p (F x).2 = p x.2) (m : List (Nat × α)) : p (look d k (m.map F)) = p (look d k m) := by
  induction m with
  | nil => rfl
  | cons x r ih =>
    have h1 := hk x
    have h2 := hp x
    generalize hF : F x = y at h1 h2
    obtain ⟨i, v⟩ := x
    obtain ⟨j, w⟩ := y
    obtain rfl : j = i := h1
    simp only [List.map_cons, hF, look]
    split
    · exact h2
    · exact ih

/-! What publishing changes. -/

/-- Of `s` and `t` only what a published write reaches may differ: memory and its history, errors, what the host has still to see, events that are due, and cores. -/
def PublishStep (s t : State) : Prop :=
  t = { s with mem := t.mem, history := t.history, hostLag := t.hostLag, bad := t.bad, pending := t.pending, cores := t.cores }

theorem PublishStep.refl (s : State) : PublishStep s s := rfl

theorem PublishStep.trans {s t u : State} (h1 : PublishStep s t) (h2 : PublishStep t u) : PublishStep s u :=
  Eq.trans h2 (by rw [h1])

theorem PublishStep.slots {s t : State} (h : PublishStep s t) : t.slots = s.slots := by rw [h]
theorem PublishStep.me {s t : State} (h : PublishStep s t) : t.me = s.me := by rw [h]; rfl
theorem PublishStep.curCore {s t : State} (h : PublishStep s t) : t.curCore = s.curCore := by rw [h]
theorem PublishStep.nextId {s t : State} (h : PublishStep s t) : t.nextId = s.nextId := by rw [h]

theorem foldl_publishStep {α : Type} {f : State → α → State} (h : ∀ s a, PublishStep s (f s a)) (l : List α) (s : State) :
    PublishStep s (l.foldl f s) :=
  foldl_keeps (P := PublishStep s) (fun t a ht => ht.trans (h t a)) l (.refl s)

theorem recallLine_publishStep (s : State) (ln : Nat) (c : Option Nat) : PublishStep s (recallLine s ln c) := rfl

theorem publishCells_publishStep (s : State) (cells : List Host.Cell) (ext : Word) (c g : Option Nat) :
    PublishStep s (publishCells s cells ext c g) := by
  have hr := fun l (t : State) => foldl_publishStep (fun s ln => recallLine_publishStep s ln c) l t
  unfold publishCells
  dsimp only
  cases c with
  | none => exact PublishStep.trans (by exact rfl) (hr _ _)
  | some c => exact PublishStep.trans (by exact rfl) ((hr _ _).trans rfl)

theorem publishLine_publishStep (s : State) (c ln : Nat) : PublishStep s (publishLine s c ln) := by
  unfold publishLine
  split
  · exact .refl s
  · next l _ => exact (foldl_publishStep (fun s (f : Nat × Nat) => publishCells_publishStep s _ _ _ _) l.fills s).trans rfl

theorem publishLines_publishStep (s : State) (c : Nat) : PublishStep s (publishLines s c) :=
  foldl_publishStep (fun s _ => publishLine_publishStep s _ _) _ _

theorem reachHost_publishStep (s : State) (c : Nat) : PublishStep s (reachHost s c) := rfl

/-- What a publication of a scope writes before it waits for others. -/
def published (s : State) : Scope → State
  | .cl => s
  | .dev => publishLines s s.curCore
  | .sys => reachHost (publishLines s s.curCore) s.curCore

theorem published_publishStep (s : State) (scope : Scope) : PublishStep s (published s scope) := by
  cases scope
  · exact .refl s
  · exact publishLines_publishStep ..
  · exact (publishLines_publishStep ..).trans (reachHost_publishStep ..)

/-- A publication waits for stores that are held, or publishes and then goes on or waits for what is outstanding. -/
theorem publish_cases (s : State) (scope : Scope) :
    publish s scope = waitHere s .stores ∨ publish s scope = .go () (published s scope) ∨
      ∃ n, publish s scope = waitHere ((published s scope).modMe (fun t => { t with awaits := n })) .publish := by
  unfold publish
  dsimp only
  split
  · exact .inl rfl
  · cases scope <;> dsimp only <;> split
    all_goals first
      | exact .inr (.inl rfl)
      | exact .inr (.inr ⟨_, rfl⟩)

theorem publish_go_published {s t : State} {scope : Scope} {u : Unit} (h : publish s scope = .go u t) : t = published s scope := by
  obtain ⟨-, rfl⟩ := publish_go h
  cases scope <;> rfl

/-! What the acting slot does to slots. -/

/-- The same slot acts, and the others stand. -/
structure OwnStep (s t : State) : Prop where
  me : t.me = s.me
  others : OthersSame s t s.me

theorem OwnStep.refl (s : State) : OwnStep s s := ⟨rfl, .refl s _⟩

theorem OwnStep.trans {s t u : State} (h1 : OwnStep s t) (h2 : OwnStep t u) : OwnStep s u :=
  ⟨h2.me.trans h1.me, h1.others.trans (h1.me ▸ h2.others)⟩

theorem OwnStep.of_slots {s t : State} (hm : t.me = s.me) (h : t.slots = s.slots) : OwnStep s t := ⟨hm, (OthersSame.refl s _).of_slots h⟩

theorem SlotStep.own {s t : State} (h : SlotStep s t s.me) : OwnStep s t := ⟨h.me, h.slots⟩
theorem PublishStep.own {s t : State} (h : PublishStep s t) : OwnStep s t := .of_slots h.me h.slots

theorem OwnStep.modSlot {s t : State} {g : Nat} (h : OwnStep s t) (hg : g = s.me) (f : Slot → Slot) : OwnStep s (t.modSlot g f) := by
  subst hg
  exact ⟨h.me, h.others.modSlot f⟩

theorem OwnStep.setHatch {s t : State} (h : OwnStep s t) (c n : Nat) (v : Hatch) : OwnStep s (t.setHatch c n v) := ⟨h.me, h.others⟩

theorem modMe_own (s : State) (f : Slot → Slot) : OwnStep s (s.modMe f) := (modSlot_step s s.me f).own
theorem setHatch_own (s : State) (c h : Nat) (v : Hatch) : OwnStep s (s.setHatch c h v) := (setHatch_step s c h v s.me).own
theorem waitHere_own {α : Type} (s : State) (w : Wait) : OwnStep s (waitHere s w : Res α).state := (waitSlot_step s s.me w).own
theorem trapRes_own {α : Type} (s : State) (c : Cause) (v : Word) : OwnStep s (trapRes s c v : Res α).state := (trap_step s c v).own
theorem advance_own (s : State) (n : Nat) : OwnStep s (advance s n) := (advance_step s n).own

/-- A sequence leaves the other slots if both of its parts do. -/
theorem Res.bnd_own {α β : Type} {s : State} {r : Res α} {f : α → State → Res β} (hr : OwnStep s r.state)
    (hf : ∀ a t, OwnStep t (f a t).state) : OwnStep s (r.bnd f).state := by
  cases r with
  | go a t => exact hr.trans (hf a t)
  | stop t => exact hr

/-- Of a test, both ways leave the other slots. -/
theorem Res.ite_own {α : Type} {s : State} {b : Bool} {x y : Res α} (hx : OwnStep s x.state) (hy : OwnStep s y.state) :
    OwnStep s (if b = true then x else y).state := by
  cases b
  · exact hy
  · exact hx

theorem publish_own (s : State) (scope : Scope) : OwnStep s (publish s scope).state := by
  have hp := (published_publishStep s scope).own
  rcases publish_cases s scope with h | h | ⟨n, h⟩ <;> rw [h]
  · exact waitHere_own ..
  · exact hp
  · exact hp.trans ((modMe_own ..).trans (waitHere_own ..))

/-! The lines of a core under publishing. -/

theorem recallLine_lines (s : State) (ln : Nat) (c : Option Nat) (d : Nat) : ((recallLine s ln c).core d).lines = (s.core d).lines :=
  look_map_leaves _ _ Core.lines _ (fun x => by split <;> rfl) (fun x => by split <;> rfl) _

theorem publishCells_lines (s : State) (cells : List Host.Cell) (ext : Word) (c g : Option Nat) (d : Nat) :
    ((publishCells s cells ext c g).core d).lines = (s.core d).lines := by
  have h : ∀ (l : List Nat) (t : State), ((l.foldl (fun s ln => recallLine s ln c) t).core d).lines = (t.core d).lines := fun l t =>
    foldl_leaves (p := fun s => (s.core d).lines) (fun s ln => recallLine_lines s ln c d) l t
  cases c with
  | none => exact h _ _
  | some c =>
    simp only [publishCells, State.modCore_eq, State.core_setCore]
    split
    · next hd => subst hd; exact h _ _
    · exact h _ _

/-- Publishing a line leaves the others of its core. -/
theorem publishLine_lines (s : State) (c ln : Nat) :
    ((publishLine s c ln).core c).lines = (s.core c).lines.filter (fun l => l.line != ln) := by
  unfold publishLine
  split
  · next h => exact (List.filter_eq_self.2 fun l hl => by simpa using List.find?_eq_none.1 h l hl).symm
  · next l h =>
    have hf : ((l.fills.foldl (fun s f => publishSector s c l f.1) s).core c).lines = (s.core c).lines :=
      foldl_leaves (p := fun s => (s.core c).lines) (fun s f => publishCells_lines s _ _ _ _ c) l.fills s
    simp [hf]

/-- Publishing the lines of some numbers takes away the core's lines of those numbers. -/
theorem publishEach_lines (c : Nat) (ls : List Line) (s : State) :
    ((ls.foldl (fun s l => publishLine s c l.line) s).core c).lines =
      (s.core c).lines.filter (fun l => ls.all (fun k => l.line != k.line)) := by
  induction ls generalizing s with
  | nil => exact (List.filter_eq_self.2 fun _ _ => rfl).symm
  | cons k ls ih =>
    rw [List.foldl_cons, ih, publishLine_lines, List.filter_filter]
    exact List.filter_congr fun l _ => Bool.and_comm ..

theorem publishLines_lines (s : State) (c : Nat) : ((publishLines s c).core c).lines = [] := by
  unfold publishLines
  rw [publishEach_lines]
  refine List.filter_eq_nil_iff.2 fun l hl h => ?_
  simpa using List.all_eq_true.1 h l hl

/-! Writing a result changes no other slot. -/

theorem OwnStep.unreserve {s t : State} {g : Nat} (h : OwnStep s t) (hg : g = s.me) (n : Nat) : OwnStep s (unreserve t g n) := by
  unfold Machine.unreserve
  split
  · exact (h.setHatch ..).modSlot hg _
  · exact h

theorem OwnStep.recordRanges {s t : State} (h : OwnStep s t) (c : Nat) (l : List (Nat × Nat)) : OwnStep s (recordRanges t c l).2 := by
  unfold Machine.recordRanges
  split
  · exact h
  · exact ⟨h.me, h.others⟩

theorem OwnStep.enterCommand {s t : State} (h : OwnStep s t) (g n : Nat) (e : HatchEntry) : OwnStep s (enterCommand t g n e) :=
  ⟨h.me, h.others⟩

theorem pushValue_own (s : State) (h : Nat) (v : Word) : OwnStep s (pushValue s s h v).state := by
  unfold pushValue
  extract_lets g c t q tag done take rel ranges
  have hg : g = s.me := rfl
  have hu : OwnStep s (unreserve s g h) := (OwnStep.refl s).unreserve hg h
  have ht : OwnStep s (take s) := by
    unfold take
    cases done with
    | none => exact .refl s
    | some n =>
      dsimp only
      split
      · exact ((OwnStep.refl s).setHatch ..).modSlot hg _
      · exact .refl s
  have hrel : OwnStep s rel.state := by
    unfold rel
    split
    · exact ht.trans (publish_own ..)
    · exact ht
  clear_value g rel take done
  split
  · exact hu.setHatch ..
  split
  · exact hu.setHatch ..
  split
  · refine Res.ite_own (trapRes_own ..) (Res.ite_own (trapRes_own ..) (Res.ite_own (waitHere_own ..) ?_))
    split
    · split
      · exact ht.trans (waitHere_own ..)
      · exact (ht.trans (publishLines_publishStep ..).own).trans ((modMe_own ..).trans (waitHere_own ..))
    · exact ((hrel.unreserve hg h).modSlot hg _).enterCommand ..
  · exact Res.ite_own (waitHere_own ..) ((hu.recordRanges ..).enterCommand ..)

theorem writeRd_own (s : State) (rd : RegField) (v : Word) : OwnStep s (writeRd s s rd v).state := by
  unfold writeRd
  split
  · exact pushValue_own ..
  · exact modMe_own ..

/-- Writing a result, and going on or not, changes no other slot. -/
theorem finish_own (s : State) (rd : RegField) (v : Word) : OwnStep s (finish s s rd v).state :=
  Res.bnd_own (writeRd_own ..) fun _ _ => advance_own ..

/-! Freeing a slot. -/

theorem announce_slots (s : State) (c : Nat) : (announce s c).slots = s.slots := by
  unfold announce
  dsimp only
  split <;> split <;> rfl

theorem answerPreempt_othersSame (s : State) (w : Nat × Nat) (st place : Nat) : OthersSame s (answerPreempt s w st place) w.1 := by
  unfold answerPreempt
  split
  · have h := (finish_own (s.actFor w.1) (BitVec.ofNat 6 w.2) (wd (st + place * 256))).others
    rw [State.me_actFor] at h
    exact h
  · exact .refl s _

/-- A free slot answers to no preemption. -/
theorem answerPreempt_slot_free {s : State} {g : Nat} (h : s.slot g = {}) (w : Nat × Nat) (st place : Nat) :
    (answerPreempt s w st place).slot g = {} := by
  by_cases hg : g = w.1
  · subst hg
    simp [answerPreempt, h]
  · exact (answerPreempt_othersSame s w st place g hg).trans h

/-- All of a vacated slot's state is discarded. -/
theorem vacate_slot (s : State) (g : Nat) : (vacate s g).slot g = {} := by
  unfold vacate
  extract_lets c s1 s2
  have h2 : s2.slot g = {} := by
    rw [slot_of_slots (announce_slots ..)]
    simp
  clear_value s2
  split
  · split
    · split
      · exact answerPreempt_slot_free (by exact h2) ..
      · exact h2
    · exact h2
  · exact h2

theorem leaveSlot_slot (s : State) (g : Nat) : (leaveSlot s g).slot g = {} := vacate_slot ..

end Sys2Proof.Machine
end

section
/-! PROOFS. DONE, YIELD, SUSPEND and WAKE (O28): what publishing one line and writing a CR leave in memory, and the instructions as the sequence of
their parts. -/

namespace Sys2Proof.Machine

theorem Issued.issue_eq {i : Instr} {s s1 : State} {vs : List Word} {k : Issue} (h : Issued i s vs s1) (hk : needs i s.mine = some k) :
    issue i k s = .go vs s1 := by
  obtain ⟨k', hk', h⟩ := h
  obtain rfl := Option.some.inj (hk.symm.trans hk')
  exact h

/-- An issued instruction is what follows its issue. -/
theorem Issued.exec_eq {i : Instr} {s s1 : State} {vs : List Word} {k : Issue} {f : List Word → State → Res Unit} (h : Issued i s vs s1)
    (hk : needs i s.mine = some k) (he : exec i s = ((issue i k s).bnd f).outcome) : exec i s = (f vs s1).outcome := by
  rw [he, h.issue_eq hk, Res.bnd_go]

/-! Memory after a publication, and after a CR is written. -/

/-- A location reads what all writes of it agree on. -/
theorem Memory.read_writes_of_mem {m : Memory} {l : List Host.Cell} {a : Nat} {b : Byte} (h : ∀ c ∈ l, c.1 = a → c.2 = b)
    (ha : ∃ c ∈ l, c.1 = a) : (m.writes l).read a = b := by
  induction l generalizing m with
  | nil => obtain ⟨c, hc, -⟩ := ha; cases hc
  | cons c r ih =>
    obtain ⟨x, v⟩ := c
    rw [Memory.writes]
    by_cases hr : ∃ c ∈ r, c.1 = a
    · exact ih (fun c hc => h c (List.mem_cons_of_mem _ hc)) hr
    · have hx : x = a := by
        obtain ⟨c, hc, e⟩ := ha
        rcases List.mem_cons.1 hc with rfl | hc
        · exact e
        · exact absurd ⟨c, hc, e⟩ hr
      rw [Memory.read_writes_outside fun c hc e => hr ⟨c, hc, e⟩, Memory.read_write, if_pos hx.symm]
      exact h (x, v) (List.mem_cons_self ..) hx

theorem look_of_find? {α : Type} (d : α) {k : Nat} {v : α} {m : List (Nat × α)} (h : m.find? (fun c => decide (c.1 = k)) = some (k, v)) :
    look d k m = v := by
  induction m with
  | nil => cases h
  | cons c r ih =>
    obtain ⟨j, w⟩ := c
    by_cases hj : j = k
    · simp_all [look]
    · simp_all [look]

/-- A sector's publication writes what its core has stored there. -/
theorem publishSector_read {s : State} {c : Nat} {l : Line} {a : Nat} {b : Byte} (hl : l.leaf = 0)
    (h : l.cells.find? (fun c => decide (c.1 = a)) = some (a, b)) : (publishSector s c l (sectorNo a)).mem.read a = b := by
  unfold publishSector
  rw [hl, publishCells_mem]
  refine Memory.read_writes_of_mem (fun x hx e => ?_) ?_
  · obtain ⟨i, -, rfl⟩ := List.mem_map.1 hx
    dsimp only at e ⊢
    rw [e]
    exact look_of_find? _ h
  · refine ⟨_, List.mem_map.2 ⟨a % 16, List.mem_range.2 (Nat.mod_lt _ (by decide)), rfl⟩, ?_⟩
    simp only [sectorNo]
    omega

/-- A core's one line, with stores in one sector, is in memory once it is published. -/
theorem publishLines_read {s : State} {c : Nat} {l : Line} {f a : Nat} {b : Byte} (hs : (s.core c).lines = [l]) (hf : l.fills = [(sectorNo a, f)])
    (hl : l.leaf = 0) (h : l.cells.find? (fun c => decide (c.1 = a)) = some (a, b)) : (publishLines s c).mem.read a = b := by
  have hp : publishLines s c = (publishSector s c l (sectorNo a)).modCore c
      (fun q => { q with lines := q.lines.filter (fun k => k.line != l.line) }) := by
    simp [publishLines, hs, publishLine, hf]
  rw [hp]
  exact publishSector_read hl h

theorem rereadContexts_mem (s : State) (c o n : Nat) : (rereadContexts s c o n).mem = s.mem := by
  refine foldl_leaves (p := State.mem) (fun s x => ?_) _ s
  split
  · split
    · split <;> rfl
    · rfl
  · rfl

theorem sramStore_mem (s : State) (loc : Nat) (bs : List Byte) : (sramStore s loc bs).mem = s.mem.writes (cellsAt loc bs) := by
  unfold sramStore
  dsimp only
  split
  · exact rereadContexts_mem ..
  · rfl

theorem Memory.readN_add (m : Memory) (a n k : Nat) : m.readN a (n + k) = m.readN a n ++ m.readN (a + n) k := by
  induction n generalizing a with
  | zero => simp [Memory.readN]
  | succ n ih => simp [Nat.succ_add, Memory.readN, ih, Nat.add_assoc]

theorem Memory.readN_writes_leBytes_apart (m : Memory) {a n b k : Nat} (v : Nat) (h : a + n ≤ b ∨ b + k ≤ a) :
    (m.writes (cellsAt b (leBytes v k))).readN a n = m.readN a n := by
  induction n generalizing a with
  | zero => rfl
  | succ n ih =>
    simp only [Memory.readN]
    rw [ih (by omega), Memory.read_writes_cellsAt_outside (by rw [length_leBytes]; omega)]

theorem Memory.readN_writes_leBytes (m : Memory) (a v n : Nat) : (m.writes (cellsAt a (leBytes v n))).readN a n = leBytes v n := by
  have h := Memory.readN_writes_cellsAt m a (leBytes v n)
  rwa [length_leBytes] at h

/-- A CR in an SRAM reads back as its 64 bytes: its words stand apart, the one written last too. -/
theorem writeCr_sram (s : State) (loc : Nat) (cr : CR) :
    (writeCr s ((List.range 8).map (fun i => .sram (loc + 8 * i))) (crWords cr)).mem.readN loc 64 = crBytes cr := by
  have hr : List.range 8 = [0, 1, 2, 3, 4, 5, 6, 7] := rfl
  obtain ⟨w0, w1, w2, w3, w4, w5, w6, w7, hw⟩ :
      ∃ w0 w1 w2 w3 w4 w5 w6 w7, crWords cr = [w0, w1, w2, w3, w4, w5, w6, w7] := ⟨_, _, _, _, _, _, _, _, rfl⟩
  have h64 : ∀ m : Memory, m.readN loc 64 = m.readN loc 8 ++ m.readN (loc + 8) 8 ++ m.readN (loc + 16) 8 ++ m.readN (loc + 24) 8 ++
      m.readN (loc + 32) 8 ++ m.readN (loc + 40) 8 ++ m.readN (loc + 48) 8 ++ m.readN (loc + 56) 8 := fun m => by
    simp only [← Memory.readN_add]
  unfold crBytes writeCr
  rw [hw, hr, h64]
  simp [writePublished, sramStore_mem]
  simp (disch := omega) only [Memory.readN_writes_leBytes_apart, Memory.readN_writes_leBytes]

/-! The instructions, their parts going on. -/

theorem exec_doneTask {s s1 s3 : State} {u : Unit} (hi : Issued .doneTask s [] s1) (hp : publish s1 .dev = .go u s3) :
    exec .doneTask s = .next (leaveSlot s3 s3.me) := by
  rw [hi.exec_eq rfl rfl, hp]
  simp only [Res.bnd_go, Res.outcome_eq, Res.state_go]

theorem exec_yield_alone {s s1 : State} (hi : Issued .yield s [] s1) (hw : workWaits s1 s1.curCore s1.mine.prio = false) :
    exec .yield s = .next (advance s1 4) := by
  rw [hi.exec_eq rfl rfl]
  simp [hw, pass]

theorem needCarry_unmarked {s : State} (h : markedCarry s.mine = none) : needCarry s = .go () s := by simp [needCarry, h]
theorem needCarry_marked {s : State} {m : Word} (h : markedCarry s.mine = some m) : needCarry s = .stop (trap s .memerr m) := by
  simp [needCarry, h, trapRes]

theorem exec_yield_enqueues {s s1 s3 s4 : State} {u : Unit} (hi : Issued .yield s [] s1) (hw : workWaits s1 s1.curCore s1.mine.prio = true)
    (hr : hasRoom s1 (homeQueue s1 s1.me) (s1.mine.prio % 4) = true) (hm : markedCarry s1.mine = none) (hp : publish s1 .dev = .go u s3)
    (hq : enqueue s3 (homeQueue s1 s1.me) (suspensionCr s3 s3.me (s1.mine.pc + 4)) = some s4) :
    exec .yield s = .next (leaveSlot s4 s4.me) := by
  rw [hi.exec_eq rfl rfl]
  simp only [hw, hr, Bool.and_self, if_true, needCarry_unmarked hm, Res.bnd_go, hp, hq, Res.outcome_eq, Res.state_go]

theorem exec_suspend {s s1 s2 s3 s4 : State} {a : RegField} {x : Word} {ps : List Place} {u v : Unit} (hi : Issued (.suspend a) s [x] s1)
    (hm : markedCarry s1.mine = none) (hc : checkAccess s1 (crElems x) .store false = .go ps s2) (hps : ps.all parkable = true)
    (hh : holdAccess s2 (ps.map (fun p => (p, 8))) true = .go v s3) (hp : publish s3 .dev = .go u s4) :
    exec (.suspend a) s = .next (leaveSlot (parkedUp (writeCr s4 ps (crWords { suspensionCr s4 s4.me (s4.mine.pc + 4) with
      pc := (s4.mine.pc + 4) ||| 1#64 })) s4.mine.rtag) s4.me) := by
  rw [hi.exec_eq rfl rfl]
  simp only [List.getD_cons_zero, needCarry_unmarked hm, Res.bnd_go, hc, hps, need_true, hh, hp, keepPlaces_go, Res.outcome_eq, Res.state_go]
  rfl

theorem exec_suspend_marked {s s1 : State} {a : RegField} {x m : Word} (hi : Issued (.suspend a) s [x] s1) (hm : markedCarry s1.mine = some m) :
    exec (.suspend a) s = .next (trap s1 .memerr m) := by
  rw [hi.exec_eq rfl rfl, needCarry_marked hm]
  rfl

/-- A written result ends its instruction, which goes on at the next. -/
theorem finish_written {s0 s s1 : State} {rd : RegField} {v : Word} (h : Written s0 s rd v s1) (n : Nat) :
    finish s0 s rd v n = .go () (advance s1 n) := by
  unfold finish
  rw [show writeRd s0 s rd v = .go () s1 from h, Res.bnd_go]

/-- WAKE up to its point: the word is read from a line that the core has obtained. -/
structure WakeReaches (s s1 s2 s3 s4 : State) (rd a b : RegField) (x y : Word) (q : Nat) (ps : List Place) : Prop where
  issued : Issued (.wake rd a b) s [x, y] s1
  queue : targetQueue s1 y = some q
  checks : checkAccess s1 (crElems x) .atomic false = .go ps s2
  parkable : ps.all parkable = true
  holds : ∃ v, holdAccess s2 (ps.map (fun p => (p, 8))) true = .go v s3
  room : lineCapped s3 (placeOf ps) = false
  publishes : ∃ u, publish s3 .dev = .go u s4
  lives : annulKnown s4 s4.mine.rtag (placeDie s4.curCore (placeOf ps)) = false

section
variable {s s1 s2 s3 s4 : State} {rd a b : RegField} {x y : Word} {q : Nat} {ps : List Place}

theorem WakeReaches.answers_unparked (h : WakeReaches s s1 s2 s3 s4 rd a b x y q ps) :
    let s5 := atomicPrep s4 s4.curCore (placeOf ps)
    bit ((ps.map (fun p => read64 s5.mem p.loc)).getD 0 0) 0 = false → Answers (.wake rd a b) s s1 s5 rd 4 := by
  intro s5 hb s6 hw
  obtain ⟨hi, hq, hc, hps, ⟨v, hh⟩, hl, ⟨u, hp⟩, hk⟩ := h
  rw [hi.exec_eq rfl rfl]
  simp only [List.getD_cons_zero, List.getD_cons_succ, hq, hc, hps, need_true, hh, hl, Bool.false_eq_true, if_false, hp, keepPlaces_go,
    unlessAnnulled, hk, Res.bnd_go]
  rw [if_pos (by simpa using hb), finish_written hw]
  rfl

theorem WakeReaches.answers_enqueued {s6 : State} (h : WakeReaches s s1 s2 s3 s4 rd a b x y q ps) :
    let s5 := atomicPrep s4 s4.curCore (placeOf ps)
    let w := ps.map (fun p => read64 s5.mem p.loc)
    let r := crOf w
    bit (w.getD 0 0) 0 = true → (r.rtag ≠ 0 ∨ s5.mine.rtag = 0) → s5.liveTag r.rtag = true → scopeReaches s5 q r.feat = true →
      enqueue (unpark (atomicWrite s5 s5.curCore (placeOf ps) s5.me ((w.getD 0 0).toNat - 1) 8) r.rtag) q
        { r with pc := wd ((w.getD 0 0).toNat - 1), instant := s5.instantOf r.rtag, prio := max (s5.classOf r.rtag) r.prio } = some s6 →
      Answers (.wake rd a b) s s1 s6 rd 0 := by
  intro s5 w r hb hr hlive hs he s7 hw
  obtain ⟨hi, hq, hc, hps, ⟨v, hh⟩, hl, ⟨u, hp⟩, hk⟩ := h
  have hown : (!(decide (r.rtag = 0) && s5.mine.rtag != 0)) = true := by
    rcases hr with h | h <;> simp [h]
  rw [hi.exec_eq rfl rfl]
  simp only [List.getD_cons_zero, List.getD_cons_succ, hq, hc, hps, need_true, hh, hl, Bool.false_eq_true, if_false, hp, keepPlaces_go,
    unlessAnnulled, hk, Res.bnd_go]
  rw [if_neg (show ¬ (!bit (w.getD 0 0) 0) = true by rw [hb]; decide), hown, need_true, Res.bnd_go, if_neg (by simpa using hlive), if_neg (by simpa using hs), he]
  simp only []
  rw [finish_written hw]
  rfl

end

end Sys2Proof.Machine

open Sys2Proof Sys2Proof.Machine

/-- Settles O28. -/
theorem taskEndsAndSuspends : Obligations.TaskEndsAndSuspends := by
  unfold Obligations.TaskEndsAndSuspends
  refine ⟨fun s s1 s3 s4 u => ⟨fun hi hp => ?_, exec_yield_alone, fun hi hw hr hm hp hq => ?_⟩,
    fun s s1 s2 s3 s4 s6 rd a b x y ps q loc u v cr => ⟨exec_suspend, fun m => exec_suspend_marked, writeCr_sram s loc cr, ?_, ?_⟩⟩
  · obtain ⟨-, rfl⟩ := publish_go hp
    have hme := (publishLines_publishStep s1 s1.curCore).me
    refine ⟨exec_doneTask hi hp, hme ▸ leaveSlot_slot .., rfl, ?_, fun l f a b hl _ hf hleaf ha => publishLines_read hl hf hleaf ha⟩
    unfold State.here
    rw [(publishLines_publishStep s1 s1.curCore).curCore]
    exact publishLines_lines ..
  · exact ⟨exec_yield_enqueues hi hw hr hm hp hq, leaveSlot_slot ..⟩
  · intro found hb
    obtain ⟨hi, hq, hc, hps, hh, hl, hp, hk⟩ := found
    exact (WakeReaches.mk hi hq hc hps ⟨v, hh⟩ hl ⟨u, hp⟩ hk).answers_unparked hb
  · intro found hb hr hlive hs he
    obtain ⟨hi, hq, hc, hps, hh, hl, hp, hk⟩ := found
    exact (WakeReaches.mk hi hq hc hps ⟨v, hh⟩ hl ⟨u, hp⟩ hk).answers_enqueued hb hr hlive hs he

end

section
/-! PROOFS. The request instructions (O29): their parts one by one, what a slot ended leaves, and a request that leaves LIVE alone. -/

namespace Sys2Proof.Machine

theorem unlessAnnulled_known {s : State} {d : Nat} (h : annulKnown s s.mine.rtag d = false) (f : Unit → Res Unit) :
    unlessAnnulled s d f = f () := by simp [unlessAnnulled, h]

/-! RFORK and RFORK.SH (R221). -/

/-- The earlier of two instants, as a word. -/
theorem wd_min (a b : Word) : wd (min a.toNat b.toNat) = if a.toNat ≤ b.toNat then a else b := by
  split
  · next h => rw [Nat.min_eq_left h]; simp [wd]
  · next h => rw [Nat.min_eq_right (by omega)]; simp [wd]

theorem reached_iff {i : Word} {now : Nat} : reached i now = true ↔ i ≠ BitVec.allOnes 64 ∧ i.toNat ≤ now := by
  rw [reached, Bool.and_eq_true, bne_iff_ne, decide_eq_true_eq]

theorem not_reached {i : Word} {now : Nat} (h : i = BitVec.allOnes 64 ∨ now < i.toNat) : ¬ reached i now = true := fun hr =>
  (reached_iff.1 hr).elim fun h1 h2 => h.elim h1 (Nat.not_lt.2 h2)

theorem allocate_some {s s2 : State} {d t : Nat} {r : Req} (h : allocate s d r = some (t, s2)) :
    nextTag s d = some t ∧ quotaSpent s r.part = false ∧ s2 = (popTag s d).setReq t r := by
  unfold allocate at h
  split at h
  · cases h
  · next hq =>
    obtain ⟨u, hu, e⟩ := Option.map_eq_some_iff.1 h
    obtain ⟨rfl, rfl⟩ := Prod.mk.inj e
    exact ⟨hu, by simpa using hq, rfl⟩

theorem allocate_req {s s2 : State} {d t : Nat} {r : Req} (h : allocate s d r = some (t, s2)) : s2.req t = r := by
  obtain ⟨-, -, rfl⟩ := allocate_some h
  simp

section
variable {s s1 s2 : State} {rd a b : RegField} {x y : Word} {t : Nat}

/-- The instant of a child: the earlier of its parent's and the operand (R29). -/
def childInstant (s : State) (x : Word) : Word := wd (min (s.instantOf s.mine.rtag).toNat x.toNat)

/-- The entry of a child that RFORK makes (R221). -/
def forkChild (s : State) (x y : Word) : Req :=
  { state := .live, instant := childInstant s x, cls := max (s.classOf s.mine.rtag) (fld y 0 2), parent := s.mine.rtag, part := s.partOf s.curCore }

/-- The entry of a shared child that RFORK.SH makes (R221). -/
def sharedChild (s : State) (y : Word) : Req :=
  { state := .live, instant := BitVec.allOnes 64, cls := fld y 0 2, parent := s.mine.rtag, shared := true, holds := 1, part := s.partOf s.curCore }

theorem exec_rfork (hi : Issued (.rfork rd a b) s [x, y] s1) (hk : annulKnown s1 s1.mine.rtag (dieOf s1.curCore) = false) :
    exec (.rfork rd a b) s = (if reached (childInstant s1 x) s1.time then finish s1 s1 rd 0 else
      match allocate s1 (dieOf s1.curCore) (forkChild s1 x y) with
      | some (t, s2) => finish s1 s2 rd (wd t)
      | none => finish s1 s1 rd 0).outcome := by
  rw [hi.exec_eq rfl rfl, unlessAnnulled_known hk]
  rfl

theorem exec_rforkSh (hi : Issued (.rforkSh rd b) s [y] s1) (hr : s1.mine.rtag ≠ 0)
    (hk : annulKnown s1 s1.mine.rtag (dieOf s1.curCore) = false) :
    exec (.rforkSh rd b) s = (match (if (s1.req s1.mine.rtag).shared then none else heldPlace (s1.req s1.mine.rtag)) with
      | none => finish s1 s1 rd 0
      | some i =>
        match allocate s1 (dieOf s1.curCore) (sharedChild s1 y) with
        | some (t, s2) => finish s1 (s2.setReq s1.mine.rtag { s2.req s1.mine.rtag with held := (s2.req s1.mine.rtag).held.set i t }) rd (wd t)
        | none => finish s1 s1 rd 0).outcome := by
  rw [hi.exec_eq rfl rfl]
  change ((need s1 (s1.mine.rtag != 0) .perm 0).bnd _).outcome = _
  rw [bne_iff_ne.2 hr, need_true, Res.bnd_go, unlessAnnulled_known hk]
  rfl

theorem exec_rforkSh_zero (hi : Issued (.rforkSh rd b) s [y] s1) (hr : s1.mine.rtag = 0) :
    exec (.rforkSh rd b) s = .next (trap s1 .perm 0) := by
  rw [hi.exec_eq rfl rfl]
  change ((need s1 (s1.mine.rtag != 0) .perm 0).bnd _).outcome = _
  rw [hr]
  rfl

theorem outcome_finish_written {s1 s2 s3 : State} {rd : RegField} {v : Word} (h : Written s1 s2 rd v s3) :
    (finish s1 s2 rd v).outcome = .next (advance s3 4) := by
  rw [finish_written h]; rfl


end

/-! RHOLD and RDROP (R222). -/

section
variable {s s1 : State} {rd a : RegField} {x : Word} {r h i : Nat}

theorem exec_rhold (hi : Issued (.rhold rd a) s [x] s1) (hk : annulKnown s1 s1.mine.rtag (fld x 0 18 / 65536) = false)
    (hl : s1.mine.rtag ≠ 0 → s1.liveTag s1.mine.rtag = true) :
    exec (.rhold rd a) s = (finish s1 (if holdStatus s1 s1.mine.rtag (fld x 0 18) = 0 then addHold s1 s1.mine.rtag (fld x 0 18) else s1) rd
      (wd (holdStatus s1 s1.mine.rtag (fld x 0 18)))).outcome := by
  have hn : ¬ (s1.mine.rtag != 0 && !s1.liveTag s1.mine.rtag) = true := by simpa using hl
  rw [hi.exec_eq rfl rfl]
  change (unlessAnnulled s1 _ _).outcome = _
  rw [show tagOf ([x].getD 0 0) = fld x 0 18 from rfl, unlessAnnulled_known hk, if_neg hn]

theorem exec_rhold_dead (hi : Issued (.rhold rd a) s [x] s1) (hk : annulKnown s1 s1.mine.rtag (fld x 0 18 / 65536) = false)
    (hr : s1.mine.rtag ≠ 0) (hl : s1.liveTag s1.mine.rtag = false) : exec (.rhold rd a) s = .next (waitSlot s1 s1.me .turn) := by
  have hn : (s1.mine.rtag != 0 && !s1.liveTag s1.mine.rtag) = true := by simp [hr, hl]
  rw [hi.exec_eq rfl rfl]
  change (unlessAnnulled s1 _ _).outcome = _
  rw [show tagOf ([x].getD 0 0) = fld x 0 18 from rfl, unlessAnnulled_known hk, if_pos hn]
  rfl

/-- With no hold taken, RHOLD answers its status. -/
theorem rhold_answers_unheld (hi : Issued (.rhold rd a) s [x] s1) (hk : annulKnown s1 s1.mine.rtag (fld x 0 18 / 65536) = false)
    (hl : s1.mine.rtag ≠ 0 → s1.liveTag s1.mine.rtag = true) {n : Nat} (hs : holdStatus s1 s1.mine.rtag (fld x 0 18) = n) (hn : n ≠ 0) :
    Answers (.rhold rd a) s s1 s1 rd (wd n) := by
  intro s3 hw
  rw [exec_rhold hi hk hl, hs, if_neg hn]
  exact outcome_finish_written hw

theorem rhold_answers_held (hi : Issued (.rhold rd a) s [x] s1) (hk : annulKnown s1 s1.mine.rtag (fld x 0 18 / 65536) = false)
    (hl : s1.mine.rtag ≠ 0 → s1.liveTag s1.mine.rtag = true) (hs : holdStatus s1 s1.mine.rtag (fld x 0 18) = 0) :
    Answers (.rhold rd a) s s1 (addHold s1 s1.mine.rtag (fld x 0 18)) rd 0 := by
  intro s3 hw
  rw [exec_rhold hi hk hl, hs, if_pos rfl]
  exact outcome_finish_written hw

theorem holdStatus_cannot (h1 : r = 0 ∨ (s.req r).shared = true) : holdStatus s r h = 3 := by
  rcases h1 with h | h <;> simp [holdStatus, h]

section
variable (hr : r ≠ 0) (hs : (s.req r).shared = false)
include hr hs

theorem holdStatus_target (hq : (s.req h).state ≠ .live ∨ (s.req h).shared = false ∨ (s.req h).part ≠ s.partOf s.curCore) :
    holdStatus s r h = 2 := by
  rcases hq with h | h | h <;> simp [holdStatus, hr, hs, h]

variable (hl : (s.req h).state = .live) (hsh : (s.req h).shared = true) (hp : (s.req h).part = s.partOf s.curCore)
include hl hsh hp

theorem holdStatus_held (hm : h ∈ (s.req r).held) : holdStatus s r h = 0 := by simp [holdStatus, hr, hs, hl, hsh, hp, hm]
theorem holdStatus_full (hm : h ∉ (s.req r).held) (hf : heldPlace (s.req r) = none) : holdStatus s r h = 1 := by
  simp [holdStatus, hr, hs, hl, hsh, hp, hm, hf]
theorem holdStatus_free (hm : h ∉ (s.req r).held) (hf : heldPlace (s.req r) = some i) : holdStatus s r h = 0 := by
  simp [holdStatus, hr, hs, hl, hsh, hp, hm, hf]

end

theorem addHold_held (hm : h ∈ (s.req r).held) : addHold s r h = s := by simp [addHold, hm]

theorem heldPlace_lt {q : Req} (hf : heldPlace q = some i) : i < 4 := by
  simpa using List.mem_of_find?_eq_some hf

/-- A hold taken stands in the holder's list, and is counted (R28). -/
theorem addHold_takes (hm : h ∉ (s.req r).held) (hf : heldPlace (s.req r) = some i) (hl : (s.req r).held.length = 4) (hne : h ≠ r) :
    h ∈ ((addHold s r h).req r).held ∧ ((addHold s r h).req h).holds = (s.req h).holds + 1 := by
  have hi : i < (s.req r).held.length := hl ▸ heldPlace_lt hf
  simp [addHold, hm, hf, hne, hne.symm, setAt, List.mem_set hi]

/-- A hold dropped is gone from the holder's list, and while others hold the request it stays LIVE with one less (R26, R28). -/
theorem endHold_drops (h0 : h ≠ 0) (hc : 2 ≤ (s.req h).holds) (hne : h ≠ r) :
    h ∉ ((endHold s r h).req r).held ∧ ((endHold s r h).req h).holds = (s.req h).holds - 1 := by
  have h1 : (s.req h).holds ≠ 1 := by omega
  simp [endHold, dropHold, hne, hne.symm, h1]
  grind

theorem exec_rdrop (hi : Issued (.rdrop rd a) s [x] s1) (hk : annulKnown s1 s1.mine.rtag (fld x 0 18 / 65536) = false) :
    exec (.rdrop rd a) s = (if s1.mine.rtag = 0 then finish s1 s1 rd 3
      else if fld x 0 18 = 0 || !(s1.req s1.mine.rtag).held.contains (fld x 0 18) then finish s1 s1 rd 1
      else finish s1 (endHold s1 s1.mine.rtag (fld x 0 18)) rd 0).outcome := by
  rw [hi.exec_eq rfl rfl]
  change (unlessAnnulled s1 _ _).outcome = _
  rw [show tagOf ([x].getD 0 0) = fld x 0 18 from rfl, unlessAnnulled_known hk]

end

/-! RCANCEL and RRETIRE (R223). -/

/-- The instructions that end a request, with the WHY and the state each gives it. -/
inductive EndsRequest : Instr → RegField → Nat → ReqState → Prop
  | cancel (rd a : RegField) : EndsRequest (.rcancel rd a) rd 1 .annulled
  | retire (rd a : RegField) : EndsRequest (.rretire rd a) rd 2 .retired

section
variable {s s1 : State} {i : Instr} {rd : RegField} {x : Word} {why : Nat} {goal : ReqState}

theorem exec_endRequest (he : EndsRequest i rd why goal) (hi : Issued i s [x] s1) (h0 : fld x 0 18 ≠ 0)
    (ha : tagAllowed s1 s1.me (fld x 0 18) = true) (hk : annulKnown s1 s1.mine.rtag (fld x 0 18 / 65536) = false) :
    let s2 := if (s1.req (fld x 0 18)).state = .live then leave s1 (fld x 0 18) why goal else s1
    exec i s = (if fld x 0 18 = s1.mine.rtag then .stop (endSlot (passOver s2 s2.me) s2.me true)
      else finish s1 s2 rd (wd (stateCode (s1.req (fld x 0 18)).state))).outcome := by
  have hn : (fld x 0 18 != 0 && tagAllowed s1 s1.me (fld x 0 18)) = true := by simp [h0, ha]
  cases he with
  | _ =>
    rw [hi.exec_eq rfl rfl]
    change ((need s1 (fld x 0 18 != 0 && tagAllowed s1 s1.me (fld x 0 18)) .perm (wd (fld x 0 18))).bnd _).outcome = _
    rw [hn, need_true, Res.bnd_go, show tagOf ([x].getD 0 0) = fld x 0 18 from rfl, unlessAnnulled_known hk]

end

theorem sendWork_slots (s : State) (p r part slot : Nat) (op : PeerOp) (addr : Word) (data : List Byte) (cmp : Word) :
    (sendWork s p r part slot op addr data cmp).slots = s.slots := by
  unfold sendWork
  extract_lets a w s1 q s2
  have h2 : s2.slots = s.slots := rfl
  clear_value s2
  split
  · rfl
  · split
    · exact h2
    · exact h2

theorem offer_slots (s : State) (c : Nat) (m : Outgoing) : (offer s c m).slots = s.slots := by
  unfold offer
  split
  · rfl
  · exact sendWork_slots ..

/-- Of a test, both ways leave the slots. -/
theorem ite_slots {c : Prop} [Decidable c] {s t u : State} (ht : t.slots = s.slots) (hu : u.slots = s.slots) :
    (if c then t else u).slots = s.slots := by
  split
  · exact ht
  · exact hu

theorem sendMessage_slots (s : State) (c : Nat) (peer : Option Nat) (dest cls : Nat) (m : Msg) :
    (sendMessage s c peer dest cls m).slots = s.slots := by
  unfold sendMessage
  extract_lets x first s1
  have h1 : s1.slots = s.slots := rfl
  exact ite_slots rfl (ite_slots ((offer_slots ..).trans h1) h1)

/-- An ended slot's state is discarded, notice or not (R65). -/
theorem endSlot_slot (s : State) (g : Nat) (notice : Bool) : (endSlot s g notice).slot g = {} := by
  unfold endSlot
  extract_lets c s0 t s1 s2 s3
  have h3 : s3.slot g = {} := vacate_slot ..
  clear_value s3
  split
  · rw [sendSelf, slot_of_slots (sendMessage_slots ..)]
    exact h3
  · exact h3

theorem passOver_pc (s : State) (g : Nat) : ((passOver s g).slot g).pc = (s.slot g).pc + 4 := by
  simp [passOver, undoIssue_slot]

/-- Of the slot's own live request, the slot ends with the instruction over. -/
theorem endRequest_own {s s1 : State} {i : Instr} {rd : RegField} {x : Word} {why : Nat} {goal : ReqState} (he : EndsRequest i rd why goal)
    (hi : Issued i s [x] s1) (h0 : fld x 0 18 ≠ 0) (ha : tagAllowed s1 s1.me (fld x 0 18) = true)
    (hk : annulKnown s1 s1.mine.rtag (fld x 0 18 / 65536) = false) (ht : fld x 0 18 = s1.mine.rtag) (hl : (s1.req (fld x 0 18)).state = .live) :
    let u := leave s1 (fld x 0 18) why goal
    exec i s = .next (endSlot (passOver u u.me) u.me true) := by
  rw [exec_endRequest he hi h0 ha hk, if_pos ht, if_pos hl]
  rfl

section
variable {s s1 : State} {i : Instr} {rd : RegField} {x : Word} {why : Nat} {goal : ReqState} (he : EndsRequest i rd why goal)
  (hi : Issued i s [x] s1) (h0 : fld x 0 18 ≠ 0) (ha : tagAllowed s1 s1.me (fld x 0 18) = true)
  (hk : annulKnown s1 s1.mine.rtag (fld x 0 18 / 65536) = false) (ht : fld x 0 18 ≠ s1.mine.rtag)
include he hi h0 ha hk ht

theorem endRequest_live (hl : (s1.req (fld x 0 18)).state = .live) : Answers i s s1 (leave s1 (fld x 0 18) why goal) rd 1 := by
  intro s3 hw
  rw [exec_endRequest he hi h0 ha hk, if_neg ht, if_pos hl, hl]
  exact outcome_finish_written hw

theorem endRequest_over (hl : (s1.req (fld x 0 18)).state ≠ .live) :
    Answers i s s1 s1 rd (wd (stateCode (s1.req (fld x 0 18)).state)) := by
  intro s3 hw
  rw [exec_endRequest he hi h0 ha hk, if_neg ht, if_neg hl]
  exact outcome_finish_written hw

end

/-! RSTAT (R224). -/

theorem exec_rstat {s s1 : State} {rd a b : RegField} {x y : Word} (hi : Issued (.rstat rd a b) s [x, y] s1)
    (hk : annulKnown s1 s1.mine.rtag (if fld x 0 18 = 0 then dieOf s1.curCore else fld x 0 18 / 65536) = false) :
    exec (.rstat rd a b) s = (finish s1 s1 rd (if fld x 0 18 = 0 then statZero (fld y 0 3)
      else if (s1.req (fld x 0 18)).state = .free || (s1.req (fld x 0 18)).part != s1.partOf s1.curCore then 0
      else statWord (s1.req (fld x 0 18)) (fld y 0 3))).outcome := by
  rw [hi.exec_eq rfl rfl]
  change (unlessAnnulled s1 _ _).outcome = _
  rw [show tagOf ([x, y].getD 0 0) = fld x 0 18 from rfl, unlessAnnulled_known hk]
  rfl

theorem statZero_beyond {n : Nat} (h : 2 ≤ n) : statZero n = 0 := by
  unfold statZero
  split <;> first | omega | rfl

theorem statWord_beyond (q : Req) {n : Nat} (h : 5 ≤ n) : statWord q n = 0 := by
  unfold statWord
  split <;> first | omega | rfl

section
variable {s s1 : State} {rd a b : RegField} {x y : Word} (hi : Issued (.rstat rd a b) s [x, y] s1)
  (hk : annulKnown s1 s1.mine.rtag (if fld x 0 18 = 0 then dieOf s1.curCore else fld x 0 18 / 65536) = false)
include hi hk

theorem rstat_answers {v : Word} (hv : (if fld x 0 18 = 0 then statZero (fld y 0 3)
    else if (s1.req (fld x 0 18)).state = .free || (s1.req (fld x 0 18)).part != s1.partOf s1.curCore then 0
    else statWord (s1.req (fld x 0 18)) (fld y 0 3)) = v) : Answers (.rstat rd a b) s s1 s1 rd v := by
  intro s3 hw
  rw [exec_rstat hi hk, hv]
  exact outcome_finish_written hw

theorem rstat_answers_zero (h0 : fld x 0 18 = 0) : Answers (.rstat rd a b) s s1 s1 rd (statZero (fld y 0 3)) :=
  rstat_answers hi hk (if_pos h0)

theorem rstat_answers_none (h0 : fld x 0 18 ≠ 0)
    (h : (s1.req (fld x 0 18)).state = .free ∨ (s1.req (fld x 0 18)).part ≠ s1.partOf s1.curCore) :
    Answers (.rstat rd a b) s s1 s1 rd 0 :=
  rstat_answers hi hk (by rw [if_neg h0, if_pos (by simpa using h)])

theorem rstat_answers_entry (h0 : fld x 0 18 ≠ 0) (hs : (s1.req (fld x 0 18)).state ≠ .free)
    (hp : (s1.req (fld x 0 18)).part = s1.partOf s1.curCore) :
    Answers (.rstat rd a b) s s1 s1 rd (statWord (s1.req (fld x 0 18)) (fld y 0 3)) :=
  rstat_answers hi hk (by rw [if_neg h0, if_neg (by simp [hs, hp])])

end

/-! A request that leaves LIVE with no child and no hold (R26, R60). -/

theorem PublishStep.reqs {s t : State} (h : PublishStep s t) : t.reqs = s.reqs := by rw [h]

theorem annulLines_publishStep (s : State) (c r : Nat) : PublishStep s (annulLines s c r) := by
  unfold annulLines
  exact PublishStep.trans (by exact rfl) (foldl_publishStep (fun s (l : Line) => publishLine_publishStep s c l.line) _ _)

theorem leaveOne_reqs (s : State) (r why : Nat) (goal : ReqState) :
    (leaveOne s r why goal).reqs = put r { s.req r with state := goal, why := why, held := [0, 0, 0, 0] } s.reqs := by
  unfold leaveOne
  extract_lets q s1 s2 s3
  have h2 : s2.reqs = s1.reqs := by
    refine foldl_leaves (p := State.reqs) (fun s k => ?_) _ s1
    split
    · rfl
    · exact (annulLines_publishStep ..).reqs
  have h3 : s3.reqs = s2.reqs := foldl_leaves (p := State.reqs) (fun s (d : Nat) => (rfl : (s.post (.annulNoticeArrival d r)).reqs = s.reqs)) _ s2
  exact h3.trans h2

/-- No child of it follows: no entry names it as parent, and its own is no longer LIVE. -/
theorem childrenOf_leaveOne {s : State} {r why : Nat} {goal : ReqState} (hg : goal ≠ .live) (hc : ∀ q ∈ s.reqs, q.2.parent ≠ r) :
    childrenOf (leaveOne s r why goal) r = [] := by
  unfold childrenOf
  rw [leaveOne_reqs, List.filter_eq_nil_iff.2, List.map_nil]
  intro q hq
  rcases mem_put hq with rfl | hq
  · simp [hg]
  · simp [hc q hq]

theorem leave_alone {s : State} {r why : Nat} {goal : ReqState} (hr : r ≠ 0) (hl : (s.req r).state = .live) (hg : goal ≠ .live)
    (hh : (s.req r).held = [0, 0, 0, 0]) (hc : ∀ q ∈ s.reqs, q.2.parent ≠ r) : leave s r why goal = leaveOne s r why goal := by
  have hq : ¬ ((s.req r).state != .live || decide (r = 0)) = true := by simp [hl, hr]
  unfold leave
  rw [show 6 * s.reqs.length + 8 = 6 * s.reqs.length + 6 + 1 + 1 from rfl, leaveAll, if_neg hq, hh]
  simp [childrenOf_leaveOne hg hc, leaveAll]

end Sys2Proof.Machine

open Sys2Proof Sys2Proof.Machine

/-- Settles O29. -/
theorem requestResults : Obligations.RequestResults := by
  unfold Obligations.RequestResults
  refine ⟨fun s s1 s2 rd a b x y t i => ?_, fun s s1 rd a x => ?_, fun s s1 rd a b x y => ?_⟩
  · intro r d ins child shared
    have hins : childInstant s1 x = ins := wd_min ..
    have hchild : forkChild s1 x y = child := by simp only [forkChild, hins]; rfl
    refine ⟨fun hi hk => ?_, fun hi hr hk => ?_, fun hi => exec_rforkSh_zero hi, fun h => ?_⟩
    · have he := exec_rfork hi hk
      rw [hins, hchild] at he
      refine ⟨fun h1 h2 s3 hw => ?_, fun h1 h2 => ⟨fun s3 hw => ?_, allocate_req h2⟩, fun h1 h2 s3 hw => ?_⟩
      · rw [he, if_pos (reached_iff.2 ⟨h1, h2⟩)]
        exact outcome_finish_written hw
      · rw [he, if_neg (not_reached h1), h2]
        exact outcome_finish_written hw
      · rw [he, if_neg (not_reached h1), h2]
        exact outcome_finish_written hw
    · have he := exec_rforkSh hi hr hk
      refine ⟨fun h1 s3 hw => ?_, fun h1 s3 hw => ?_, fun h1 h2 s3 hw => ?_, fun h1 h2 h3 s3 hw => ?_⟩
      · rw [he, if_pos h1]
        exact outcome_finish_written hw
      · rw [he, h1, ite_self]
        exact outcome_finish_written hw
      · rw [he, if_neg (ne_true_of_eq_false h1), show allocate s1 (dieOf s1.curCore) (sharedChild s1 y) = none from h2]
        cases heldPlace (s1.req r)
        all_goals exact outcome_finish_written hw
      · rw [he, if_neg (ne_true_of_eq_false h1), h2, show allocate s1 (dieOf s1.curCore) (sharedChild s1 y) = some (t, s2) from h3]
        exact outcome_finish_written hw
    · obtain ⟨h1, h2, -⟩ := allocate_some h
      exact ⟨h1, h2⟩
  · intro r h q
    refine ⟨fun hi hr hk hl => exec_rhold_dead hi hk hr hl, fun hi hk hl => ⟨fun h1 => ?_, fun hr hs => ⟨fun h1 => ?_, fun h1 h2 h3 => ⟨fun hm => ?_,
      fun hm hf => ?_, fun hm i hf h4 => ?_⟩⟩⟩, fun hi hk => ⟨fun hr s3 hw => ?_, fun hr h1 s3 hw => ?_, fun hr h0 hm => ⟨fun s3 hw => ?_, endHold_drops h0⟩⟩⟩
    · exact rhold_answers_unheld hi hk hl (holdStatus_cannot h1) (by decide)
    · exact rhold_answers_unheld hi hk hl (holdStatus_target hr hs h1) (by decide)
    · have := rhold_answers_held hi hk hl (holdStatus_held hr hs h1 h2 h3 hm)
      rwa [addHold_held hm] at this
    · exact rhold_answers_unheld hi hk hl (holdStatus_full hr hs h1 h2 h3 hm hf) (by decide)
    · have hne : h ≠ r := fun e => by
        have : (s1.req h).shared = true := h2
        rw [e, hs] at this
        cases this
      exact ⟨_, rhold_answers_held hi hk hl (holdStatus_free hr hs h1 h2 h3 hm hf), addHold_takes hm hf h4 hne⟩
    · rw [exec_rdrop hi hk, if_pos hr]
      exact outcome_finish_written hw
    · rw [exec_rdrop hi hk, if_neg hr, if_pos (by simpa using h1)]
      exact outcome_finish_written hw
    · rw [exec_rdrop hi hk, if_neg hr, if_neg (by simpa using ⟨h0, hm⟩)]
      exact outcome_finish_written hw
  · intro t ends
    have hends : ∀ i why goal, EndsRequest i rd why goal → ends i why goal := fun i why goal he hi h0 ha hk =>
      ⟨endRequest_live he hi h0 ha hk, endRequest_over he hi h0 ha hk,
        fun ht hl => ⟨endRequest_own he hi h0 ha hk ht hl, endSlot_slot .., passOver_pc ..⟩⟩
    refine ⟨hends _ _ _ (.cancel rd a), hends _ _ _ (.retire rd a), fun hi hk => ?_, fun r why goal hr hl hg hh hc => ?_⟩
    · refine ⟨fun h0 => ?_, rstat_answers_none hi hk, fun h0 h1 h2 => ?_⟩
      · have he := rstat_answers_zero hi hk h0
        exact ⟨fun hw => by rwa [hw] at he, fun hw => by rwa [hw] at he, fun hw => by rwa [statZero_beyond hw] at he⟩
      · have he := rstat_answers_entry hi hk h0 h1 h2
        exact ⟨fun hw => by rwa [hw] at he, fun hw => by rwa [hw] at he, fun hw => by rwa [hw] at he, fun hw => by rwa [hw] at he,
          fun hw => by rwa [hw] at he, fun hw => by rwa [statWord_beyond _ hw] at he⟩
    · rw [leave_alone hr hl hg hh (by simpa using hc)]
      unfold State.req
      rw [leaveOne_reqs, look_put_same]
      exact ⟨rfl, rfl⟩

end

section
/-! PROOFS. Delegated traps (O44). -/

namespace Sys2Proof.Machine

theorem delegable_iff (c : Cause) : c.delegable = true ↔ c = .misalign ∨ c = .waitlimit ∨ c = .budget ∨ c = .trapi := by
  cases c <;> simp [Cause.delegable]

/-- A delegated trap: the task goes on at TVEC, still in user mode (R54, R351). -/
theorem trapAt_delegated {s : State} {g : Nat} {c : Cause} {tpc v : Word} (hm : (s.slot g).mode = false) (hc : c.delegable = true)
    (hd : (s.slot g).deleg = true) (ht : (s.slot g).tvec ≠ 0) (hh : (s.slot g).dh = false) :
    let t := (trapAt s g c tpc v).slot g
    t.trappc = tpc ∧ t.trapcause = BitVec.ofNat 8 c.code ∧ t.trapval = v ∧ t.dh = true ∧ t.pc = (s.slot g).tvec ∧ t.mode = false := by
  have h : delegates { s.slot g with held := [], reserve := none, pushing := none } c = true := by
    simpa [delegates, hm, hc, hd, hh] using ht
  intro t
  have ht : t = _ := (trapAt_slot ..).trans (if_pos h)
  rw [ht]
  exact ⟨rfl, rfl, rfl, rfl, rfl, hm⟩

/-- A trap of a task that is not delegated enters the supervisor (R54, R351). -/
theorem trapAt_supervised {s : State} {g : Nat} {c : Cause} {tpc v : Word} (hm : (s.slot g).mode = false)
    (hn : c.delegable = false ∨ (s.slot g).dh = true ∨ (s.slot g).tvec = 0) :
    let t := (trapAt s g c tpc v).slot g
    t.mode = true ∧ t.pc = (s.core (coreOf g)).stvec ∧ t.trapcause = BitVec.ofNat 8 c.code ∧ t.trappc = tpc ∧ t.trapval = v := by
  have h : delegates { s.slot g with held := [], reserve := none, pushing := none } c = false := by
    rcases hn with h | h | h <;> simp [delegates, h]
  have h2 : ¬ ((s.slot g).mode && (s.slot g).nest) = true := by simp [hm]
  intro t
  have ht : t = _ := (trapAt_slot ..).trans ((if_neg (ne_true_of_eq_false h)).trans (if_neg h2))
  rw [ht]
  exact ⟨rfl, rfl, rfl, rfl, rfl⟩

theorem trapAt_mine (s : State) (c : Cause) (tpc v : Word) : (trapAt s s.me c tpc v).mine = (trapAt s s.me c tpc v).slot s.me := by
  rw [State.mine, (trapAt_step s s.me c tpc v).me]

theorem exec_trapImm {s s1 : State} {imm : BitVec 13} (hi : Issued (.trapImm imm) s [] s1) :
    exec (.trapImm imm) s = .next (trapAt s1 s1.me .trapi (s1.mine.pc + 4) (imm.setWidth 64)) := by
  rw [hi.exec_eq rfl rfl]
  rfl

/-- TRET in a task's handler ends it (R179). -/
theorem exec_tret_handler {s s1 : State} (hi : Issued .tret s [] s1) (hm : s1.mine.mode = false) (hh : s1.mine.dh = true) :
    exec .tret s = .next (s1.modMe tretSlot) := by
  rw [hi.exec_eq rfl rfl]
  simp [hm, hh, Res.outcome_eq]

/-- A dispatched slot is what the CR and its core give it. -/
theorem dispatchCr_slot (s : State) (g : Nat) (cr : CR) (home : Home) :
    (dispatchCr s g cr home).slot g = dispatched (s.core (coreOf g)) cr home s.time s.nextId := by
  rw [dispatchCr, slotGiven, State.modCore_eq, State.slot_setCore]
  exact look_put_same ..

end Sys2Proof.Machine

open Sys2Proof Sys2Proof.Machine

/-- Settles O44. -/
theorem delegatedTraps : Obligations.DelegatedTraps := by
  unfold Obligations.DelegatedTraps
  intro s s1 c v imm g cr home a able four
  have hmine : ∀ c v, (trap s c v).mine = (trapAt s s.me c a.pc v).slot s.me := fun c v => trapAt_mine s c a.pc v
  refine ⟨fun hm hc ⟨hd, ht, hh⟩ => ⟨_, rfl, ?_⟩, fun hm ⟨hd, ht, hh⟩ hi => ⟨_, exec_trapImm hi, ?_⟩, by decide, by decide,
    fun hi hm hh => ⟨_, exec_tret_handler hi hm hh, ?_⟩, fun hm hn => ⟨_, rfl, ?_⟩, ?_⟩
  · rw [hmine]
    exact trapAt_delegated hm ((delegable_iff c).2 hc) hd ht hh
  · obtain ⟨hpc, hcause, hval, hdh, htvec, hmode⟩ :=
      trapAt_delegated (s := s) (g := s.me) (c := .trapi) (tpc := a.pc + 4) (v := imm.setWidth 64) hm rfl hd ht hh
    rw [trapAt_mine]
    exact ⟨hpc, htvec, hcause, hval, hdh, hmode⟩
  · simp [tretSlot, State.mine]
  · rw [hmine]
    exact trapAt_supervised hm (hn.imp_left fun h => eq_false_of_ne_true (mt (delegable_iff c).1 h))
  · rw [dispatchCr_slot]
    rfl

end

section
/-! PROOFS. Launch, dispatch, resume, preemption and ring moves (O48): each event where its unit exists and it is due. -/

namespace Sys2Proof.Machine

theorem eventOf_of {ok : Bool} {f : State → State} {s : State} (h : ok = true) : eventOf ok f s = .next (f s) := if_pos h

/-! Launch queues (R32, R369, R421). -/

section
variable {s : State} {d p : Nat} (hd : d < 4) (hp : p < 16)
include hd hp

/-- A write outside the record area does nothing. -/
theorem exec_launchQueueWrite_outside {off : Nat} (bs : List Byte) (h : 64 ≤ off) : exec (.launchQueueWrite d p off bs) s = .next s :=
  (eventOf_of (by simp [hd, hp])).trans (congrArg _ (if_neg (Nat.not_lt.2 h)))

theorem exec_launchQueueWrite {off : Nat} (bs : List Byte) (h : off < 64) :
    exec (.launchQueueWrite d p off bs) s = .next (launchWrite s d p (decide (off = 0) && decide (bs.length = 64)) (wordsOf bs)) :=
  (eventOf_of (by simp [hd, hp])).trans (congrArg _ (if_pos h))

theorem exec_launchAccept (h : s.ready = true) : exec (.launchAccept d p) s = .next (launchAccept s d p) :=
  (eventOf_of (by simp [hd, hp])).trans (congrArg _ (if_pos h))

end

section
variable {s : State} {d p : Nat} {w : List Word}

theorem not_wholeRecord {off n : Nat} (h : off ≠ 0 ∨ n ≠ 64) : (decide (off = 0) && decide (n = 64)) = false := by
  rcases h with h | h
  · rw [decide_eq_false h, Bool.false_and]
  · rw [decide_eq_false h, Bool.and_false]

theorem launchWrite_unready {whole : Bool} (h : s.ready = false) :
    launchWrite s d p whole w = s.setLaunchQ d p { s.launchQ d p with fulls := bump16 (s.launchQ d p).fulls } := by
  simp [launchWrite, h]

theorem launchWrite_partial (h : s.ready = true) :
    launchWrite s d p false w = s.setLaunchQ d p { s.launchQ d p with disc := bump16 (s.launchQ d p).disc } := by
  simp [launchWrite, h]

theorem launchWrite_full (h : s.ready = true) (hl : 256 ≤ (s.launchQ d p).records.length) :
    launchWrite s d p true w = s.setLaunchQ d p { s.launchQ d p with fulls := bump16 (s.launchQ d p).fulls } := by
  simp [launchWrite, h, hl]

theorem launchWrite_takes (h : s.ready = true) (hl : (s.launchQ d p).records.length < 256) :
    launchWrite s d p true w = s.setLaunchQ d p { s.launchQ d p with records := (s.launchQ d p).records ++ [w] } := by
  simp [launchWrite, h, Nat.not_le.2 hl]

theorem recordBad_iff : recordBad s w = true ↔
    (w.getD 1 0 ≠ BitVec.allOnes 64 ∧ (w.getD 1 0).toNat ≤ s.time) ∨ fld (w.getD 2 0) 0 18 ≠ 0 ∨ fld (w.getD 2 0) 29 3 ≠ 0 := by
  rw [recordBad, Bool.or_eq_true, Bool.or_eq_true, reached_iff, bne_iff_ne, bne_iff_ne, or_assoc]

section
variable {ws : List (List Word)} (hr : (s.launchQ d p).records = w :: ws) (hw : recordWaits s d p w = false)
include hr hw

theorem launchAccept_discards (hb : recordBad s w = true) :
    launchAccept s d p = s.setLaunchQ d p { s.launchQ d p with records := ws, disc := bump16 (s.launchQ d p).disc } := by
  simp [launchAccept, hr, hw, hb]

/-- An accepted record is a live request of its instant and class, and its CR waits in the die's queue (R32). -/
theorem launchAccept_accepts (hb : recordBad s w = false) {t : Nat} {s2 s3 : State}
    (ha : allocate (s.setLaunchQ d p { s.launchQ d p with records := ws }) d
      { state := .live, instant := w.getD 1 0, cls := fld (w.getD 2 0) 18 2, part := p } = some (t, s2))
    (he : enqueue s2 (qDie d p) { crOf w with rtag := t } = some s3) : launchAccept s d p = s3 := by
  have hc : (crOf w).prio % 4 = fld (w.getD 2 0) 18 2 := Nat.mod_eq_of_lt (Nat.mod_lt _ (by decide))
  unfold launchAccept
  simp only [hr, hw, hb, Bool.false_eq_true, if_false, hc]
  rw [show (crOf w).instant = w.getD 1 0 from rfl, ha]
  change (match enqueue s2 (qDie d p) { crOf w with rtag := t } with | some s2 => s2 | none => s) = s3
  rw [he]

end

end

/-! Dispatch and resume (R36). -/

section
variable {s s1 : State} {c g : Nat} (hc : c < 2048) (hf : hardwareCore s c = true ∧ freeSlots s c false ≠ [])
include hc hf

theorem exec_dispatch : exec (.dispatch c) s = .next (fillSlot s c) := by
  rw [show exec (.dispatch c) s = execDispatch c s from rfl, execDispatch, eventOf_of (decide_eq_true hc), if_pos (by simp [hf])]

theorem exec_resumeContext (h : resumeNext s c = true) : exec (.resumeContext c) s = .next (fillSlot s c) := by
  rw [show exec (.resumeContext c) s = execResumeContext c s from rfl, execResumeContext, eventOf_of (decide_eq_true hc),
    if_pos (by simp [hf, h])]

end

theorem fillSlot_cr {s s1 : State} {c g q l i : Nat} {cr : CR} (hn : nextWork (purgeFor s c) c = some (.inr (q, l, i, cr)))
    (hp : pickFree (purgeFor s c) c false = some (g, s1)) : fillSlot s c = dispatchCr (takeCr s1 q l i) g cr (homeOfQueue q) := by
  simp [fillSlot, hn, hp]

theorem fillSlot_context {s s1 : State} {c g : Nat} {x : Saved} (hn : nextWork (purgeFor s c) c = some (.inl x))
    (hp : pickFree (purgeFor s c) c false = some (g, s1)) : fillSlot s c = restore s1 g x := by
  simp [fillSlot, hn, hp]

theorem refreshCore_mem (s : State) (c : Nat) : (refreshCore s c).mem = s.mem := by
  unfold refreshCore
  dsimp only
  split <;> rfl

theorem dispatchCr_mem (s : State) (g : Nat) (cr : CR) (home : Home) : (dispatchCr s g cr home).mem = s.mem := refreshCore_mem ..

/-- A dispatched task starts with x1 to x5 of its CR (R37). -/
theorem dispatched_xr (k : Core) (cr : CR) (home : Home) (now ctx : Nat) {j : Nat} (h : j < 5) :
    (dispatched k cr home now ctx).xr (j + 1) = cr.x.getD j 0 := by
  have hr : List.range 5 = [0, 1, 2, 3, 4] := rfl
  unfold Slot.xr dispatched
  rw [hr]
  simp [look_put]
  grind

/-- Its other registers are 0 (R37). -/
theorem dispatched_xr_beyond (k : Core) (cr : CR) (home : Home) (now ctx : Nat) {j : Nat} (h : 6 ≤ j) :
    (dispatched k cr home now ctx).xr j = 0 := by
  have hr : List.range 5 = [0, 1, 2, 3, 4] := rfl
  unfold Slot.xr dispatched
  rw [hr]
  simp [look_put]
  grind

/-! Preemption and rings (R49, R50, R373, R378). -/

section
variable {s : State} {c : Nat} (hc : c < 2048)
include hc

theorem exec_demandPreemption {g : Nat} (hm : mayPreempt s c = true) (hv : demandVictim s c = some g) :
    exec (.demandPreemption c) s = .next (startPreempt s g none false) := by
  rw [show exec (.demandPreemption c) s = execDemandPreemption c s from rfl, execDemandPreemption, eventOf_of (decide_eq_true hc)]
  simp [hm, hv]

theorem exec_timerPreemption {g : Nat} (hm : mayPreempt s c = true) (hd : demandVictim s c = none) (hv : timerVictim s c = some g) :
    exec (.timerPreemption c) s = .next (startPreempt s g none true) := by
  rw [show exec (.timerPreemption c) s = execTimerPreemption c s from rfl, execTimerPreemption, eventOf_of (decide_eq_true hc)]
  simp [hm, hd, hv]

theorem exec_preemptionComplete {p : Preemption} (hp : (s.core c).preempt = some p) (hr : preemptionReady s p = true) :
    exec (.preemptionComplete c) s = .next (preemptSave s p) := by
  rw [show exec (.preemptionComplete c) s = execPreemptionComplete c s from rfl, execPreemptionComplete, eventOf_of (decide_eq_true hc)]
  simp [hp, hr]

end

theorem exec_ringMove {s : State} {q l i : Nat} {r : List Nat} (hq : q < 2176) (hl : l < 4) (hr : (s.level q l).ring = i :: r)
    (hc : (s.level q l).entries.length < qCapacity q) :
    let cr := ringCr s q l i
    exec (.ringMove q l) s = .next (parkedDown (s.setLevel q l
      { entries := if s.liveTag cr.rtag then (s.level q l).entries ++ [cr] else (s.level q l).entries, ring := r }) cr.rtag) := by
  intro cr
  rw [show exec (.ringMove q l) s = execRingMove q l s from rfl, execRingMove, eventOf_of (by simp [hq, hl])]
  simp only [ringMove, hr, hc, if_true, cr]

end Sys2Proof.Machine

open Sys2Proof Sys2Proof.Machine

/-- Settles O48. -/
theorem schedulingEvents : Obligations.SchedulingEvents := by
  unfold Obligations.SchedulingEvents
  intro s s1 s2 s3 c g q l i d p off t cr r x bs w ws pr hc hd hp s0 lq u free
  refine ⟨fun hf hn hg => ?_, ?_, fun hf hr hn hg => ?_, exec_demandPreemption hc, exec_timerPreemption hc, fun h1 h2 h3 h4 => ?_,
    fun hq hl hr hcr hlen => hcr ▸ exec_ringMove hq hl hr hlen, exec_launchQueueWrite_outside hd hp bs, fun ho hr hb => ?_, fun hr hb hl => ?_,
    fun hr hb hl => ?_, fun hr ho => ?_, fun hr hw hwait => ⟨fun hb => ?_, fun hi ht hz ha he => ?_⟩⟩
  · rw [exec_dispatch hc hf, fillSlot_cr hn hg]
  · rw [dispatchCr_slot]
    exact ⟨rfl, rfl, rfl, rfl, rfl, fun j h => dispatched_xr _ _ _ _ _ h, fun j h => dispatched_xr_beyond _ _ _ _ _ h, dispatchCr_mem ..⟩
  · rw [exec_resumeContext hc hf hr, fillSlot_context hn hg]
  · exact exec_preemptionComplete hc h1 (by simp [preemptionReady, h2, h3, h4])
  · rw [exec_launchQueueWrite hd hp bs ho, not_wholeRecord hb,
      launchWrite_partial hr]
    rfl
  · rw [exec_launchQueueWrite hd hp bs (by decide), hb]
    exact congrArg _ (launchWrite_full hr hl)
  · rw [exec_launchQueueWrite hd hp bs (by decide), hb]
    exact congrArg _ (launchWrite_takes hr hl)
  · rw [exec_launchQueueWrite hd hp bs ho, launchWrite_unready hr]
    rfl
  · rw [exec_launchAccept hd hp hr, launchAccept_discards hw hwait (recordBad_iff.2 hb)]
    rfl
  · have hb : recordBad s w = false := eq_false_of_ne_true fun hb => by
      rcases recordBad_iff.1 hb with ⟨h1, h2⟩ | h | h
      · exact hi.elim h1 (Nat.not_lt.2 h2)
      · exact h ht
      · exact h hz
    rw [exec_launchAccept hd hp hr, launchAccept_accepts hw hwait hb ha he]

end

section
/-! PROOFS. A failed link and a slot that is to end (O50). -/

namespace Sys2Proof.Machine

/-- A load of peer 0 at the first address of its window. -/
def farLoad : PeerWait := .load [(3, 0)] 0x8000000000000000 8 false

/-- The only slot waits for the answer of a peer to its load, and SLOTCTL KILL has ended its task (R359), which is to end once the answer is there (R65). -/
def killedLoad : State :=
  { State.reset with ready := true, slots := [(0, { state := .waiting, killed := true, wait := some (.peer farLoad false) })] }

/-- Work of a peer, of which the claim about links says nothing. -/
def anyWork : PeerWork := { port := 0, dev := 0, part := 0, slot := 0, rtag := 0, instant := 0, cls := 0, op := .load 8, addr := 0, data := [], compare := 0 }

/-- A failed link discards what a slot that is to end waits for there (R65), as an answer: the slot does not trap. -/
theorem failPort_killedLoad : ((failPort killedLoad 0).slot 0).trapcause = 0 ∧ ((failPort killedLoad 0).slot 0).wait = none := by decide

end Sys2Proof.Machine

open Sys2Proof Sys2Proof.Machine

/-- Refutes O50: of a failed link it says that every slot whose load or atomic crosses it traps MEMERR, and has no premise that the slot is not to end. In
`killedLoad` the slot is: what it waits for is discarded, as R65 asks and as O50 says of an answer, and its TRAPCAUSE stays 0. -/
theorem not_peersAndMessages : ¬ Obligations.PeersAndMessages := by
  unfold Obligations.PeersAndMessages
  rintro ⟨h, -⟩
  obtain ⟨-, -, -, -, -, -, -, -, -, -, -, -, -, -, -, u, hu, -, hcrosses⟩ :=
    h killedLoad anyWork 0 0 1 0 0 0 0 0 0 0 0 0 0 0 0 killedLoad killedLoad (by decide) (by decide) (by decide) (by decide) (by decide)
  obtain rfl : failPort killedLoad 0 = u := Host.Outcome.next.inj hu
  obtain ⟨-, -, -, -, htraps⟩ := hcrosses rfl
  have htrapped := htraps _ farLoad (List.mem_singleton.2 rfl) rfl (by decide)
  rw [failPort_killedLoad.1] at htrapped
  exact absurd htrapped (by decide)

end

section
/-! PROOFS. Expiry, annulment and the freeing of entries (O49): what each event does where its unit exists and it is due. -/

namespace Sys2Proof.Machine

theorem liveTag_eq_false {s : State} {r : Nat} : s.liveTag r = false ↔ r ≠ 0 ∧ (s.req r).state ≠ .live := by simp [State.liveTag]

/-! The scanner (R60). -/

theorem exec_requestExpiry {s : State} {r : Nat} (h0 : 0 < r) (hr : r < 2 ^ 18) : exec (.requestExpiry r) s = .next (expire s r) :=
  show execRequestExpiry r s = _ from eventOf_of (by simpa [h0] using hr)

theorem expire_passed {s : State} {r : Nat} (hl : (s.req r).state = .live) (hi : reached (s.req r).instant s.time = true) :
    expire s r = leave s r 0 .annulled := if_pos (by simp [hl, hi])

theorem expire_stays {s : State} {r : Nat} (h : (s.req r).state ≠ .live ∨ ¬ reached (s.req r).instant s.time = true) : expire s r = s :=
  if_neg (by simpa [Classical.or_iff_not_imp_left] using h)

/-! Notices (R61, R64). -/

theorem exec_annulNoticeArrival {s : State} {d r : Nat} (hd : d < 4) (h0 : 0 < r) (hr : r < 2 ^ 18) :
    exec (.annulNoticeArrival d r) s = .next (notice s d r) :=
  show execAnnulNoticeArrival d r s = _ from eventOf_of (by simpa [hd, h0] using hr)

/-- A notice has nothing to do for a request that lives or is free, or where it has come before. -/
theorem notice_idle {s : State} {d r : Nat} (h : (s.req r).state = .live ∨ (s.req r).state = .free ∨ d ∈ (s.req r).noticed) : notice s d r = s := by
  refine if_pos ?_
  rcases h with h | h | h <;> simp [State.liveTag, h]

theorem sweepQueues_entries {s : State} {r d q l : Nat} (hl : l < 4) (hq : qDieOf q = d) :
    ((sweepQueues s r d).level q l).entries = (s.level q l).entries.filter (fun cr => cr.rtag != r) := by
  have hdie : qDieOf ((4 * q + l) / 4) = d := by rw [show (4 * q + l) / 4 = q by omega, hq]
  unfold State.level sweepQueues
  induction s.levels with
  | nil => rfl
  | cons v m ih =>
    obtain ⟨j, w⟩ := v
    by_cases hj : j = 4 * q + l
    · subst hj
      simp [look, hdie]
    · rw [List.map_cons]
      split <;> simpa only [look, hj, if_false] using ih

/-! Slots that are to end (R65, R359). -/

theorem exec_slotAnnul {s : State} {g : Nat} (hg : g < 32768) : exec (.slotAnnul g) s =
    .next (if slotDoomed s g && !endAwaited s g then endSlot s g (!(s.slot g).killed) else s) :=
  show execSlotAnnul g s = _ from eventOf_of (decide_eq_true hg)

theorem slotDoomed_occupied {s : State} {g : Nat} (ho : (s.slot g).occupied = true) : slotDoomed s g = true ↔
    (s.slot g).killed = true ∨ ((s.slot g).rtag ≠ 0 ∧ annulKnown s (s.slot g).rtag (dieOf (coreOf g)) = true) := by
  have h : ((s.slot g).state != .free) = true := ho
  simp [slotDoomed, h]

section
variable {s : State} {g : Nat} (hg : g < 32768) (ho : (s.slot g).occupied = true)
include hg ho

theorem exec_slotAnnul_ends (ha : endAwaited s g = false)
    (h : (s.slot g).killed = true ∨ ((s.slot g).rtag ≠ 0 ∧ annulKnown s (s.slot g).rtag (dieOf (coreOf g)) = true)) :
    exec (.slotAnnul g) s = .next (endSlot s g (!(s.slot g).killed)) := by
  rw [exec_slotAnnul hg, if_pos (by rw [(slotDoomed_occupied ho).2 h, ha]; rfl)]

theorem exec_slotAnnul_stays
    (h : endAwaited s g = true ∨ ((s.slot g).killed = false ∧ ¬ ((s.slot g).rtag ≠ 0 ∧ annulKnown s (s.slot g).rtag (dieOf (coreOf g)) = true))) :
    exec (.slotAnnul g) s = .next s := by
  rw [exec_slotAnnul hg, if_neg]
  rw [Bool.and_eq_true, slotDoomed_occupied ho]
  rintro ⟨hd, ha⟩
  rcases h with h | ⟨hk, hn⟩
  · simp [h] at ha
  · exact hd.elim (by simp [hk]) hn

end

/-! Acknowledgements (R61, R63). -/

theorem exec_annulAckArrival {s : State} {r d : Nat} (hd : d < 4) (h0 : 0 < r) (hr : r < 2 ^ 18) :
    exec (.annulAckArrival r d) s = .next (acknowledge s r d) :=
  show execAnnulAckArrival r d s = _ from eventOf_of (by simpa [hd, h0] using hr)

theorem acknowledge_counts {s : State} {r d : Nat} (h0 : 0 < r) (hl : (s.req r).state ≠ .live) (hn : d ∈ (s.req r).noticed)
    (hc : dieClear s r d = true) :
    acknowledge s r d = tryFree (s.setReq r { s.req r with swept := addNat d (s.req r).swept }) r := by
  have hlive : s.liveTag r = false := liveTag_eq_false.2 ⟨by omega, hl⟩
  exact if_neg (by simp [hlive, hn, hc])

/-! Resumed waiters (R231). -/

theorem exec_larderDeferredEnqueue {s : State} {p : Nat} (hp : p < 16) :
    exec (.larderDeferredEnqueue p) s = .next (placeStalled s p (s.larder p).stalled []) :=
  show execLarderDeferredEnqueue p s = _ from eventOf_of (decide_eq_true hp)

theorem larder_setLarder (s : State) (p : Nat) (v : Larder) : (s.setLarder p v).larder p = v := look_put_same ..

section
variable {s s1 : State} {p q : Nat} {cr : CR} (hl : s.liveTag cr.rtag = true)
include hl

theorem placeStalled_room (he : enqueue s q cr = some s1) :
    placeStalled s p [(cr, q)] [] = s1.setLarder p { s1.larder p with stalled := [] } := by simp [placeStalled, hl, he]

theorem placeStalled_full (he : enqueue s q cr = none) :
    placeStalled s p [(cr, q)] [] = s.setLarder p { s.larder p with stalled := [(cr, q)] } := by simp [placeStalled, hl, he]

end

/-! RTFREE (R386). -/

theorem exec_rtfreeWrite {s : State} {d : Nat} (hd : d < 4) (v : Word) : exec (.rtfreeWrite d v) s = .next (setRtfree s d v) :=
  show execRtfreeWrite d v s = _ from eventOf_of (decide_eq_true hd)

theorem setRtfree_code (s : State) (d : Nat) (v : Word) : look 0 d (setRtfree s d v).rtfree = rtfreeCode s (fld v 0 18) := look_put_same ..

theorem rtfreeCode_eq (s : State) (t : Nat) : rtfreeCode s t = if t = 0 ∨ (s.req t).state = .free then 3 else if (s.req t).state = .live then 1
    else if mayRelease s t = true ∧ inRing s t = false then 0 else 2 := by
  unfold rtfreeCode
  cases mayRelease s t <;> cases inRing s t <;> simp

/-- A freed entry is as new (R25). -/
theorem releaseEntry_req (s : State) (r : Nat) : (releaseEntry s r).req r = {} := by
  unfold releaseEntry
  split <;> exact look_put_same ..

theorem setRtfree_frees {s : State} {d : Nat} {v : Word} (h : rtfreeCode s (fld v 0 18) = 0) : (setRtfree s d v).req (fld v 0 18) = {} := by
  rw [setRtfree, if_pos h]
  exact releaseEntry_req ..

theorem setRtfree_keeps {s : State} {d : Nat} {v : Word} (h : rtfreeCode s (fld v 0 18) ≠ 0) : (setRtfree s d v).reqs = s.reqs := by
  rw [setRtfree, if_neg h]

end Sys2Proof.Machine

open Sys2Proof Sys2Proof.Machine

/-- Settles O49: each event, where its unit exists, acts just where it is due, and a notice, a sweep and a freed entry leave what they should. -/
theorem annulmentEvents : Obligations.AnnulmentEvents := by
  unfold Obligations.AnnulmentEvents
  intro s s1 r d g p q cr v h0 hr hd hg hp e
  refine ⟨⟨fun hl hi ht => ?_, fun h => ?_⟩, ⟨exec_annulNoticeArrival hd h0 hr, notice_idle, fun l => sweepQueues_entries⟩, ?_,
     endSlot_slot .., endSlot_slot .., fun hl hn hc => ?_, fun hs hl => ⟨fun he => ?_, fun he => ?_⟩, ?_⟩
  · rw [exec_requestExpiry h0 hr, expire_passed hl (reached_iff.2 ⟨hi, ht⟩)]
  · rw [exec_requestExpiry h0 hr, expire_stays (h.imp_right not_reached)]
  · intro ho due
    refine ⟨fun ha hk hdue => ?_, fun ha hk => ?_, exec_slotAnnul_stays hg ho⟩
    · rw [exec_slotAnnul_ends hg ho ha (.inr hdue), hk]
      rfl
    · rw [exec_slotAnnul_ends hg ho ha (.inl hk), hk]
      rfl
  · rw [exec_annulAckArrival hd h0 hr, acknowledge_counts h0 hl hn hc]
  · refine ⟨s1.setLarder p { s1.larder p with stalled := [] }, ?_, by rw [larder_setLarder], rfl⟩
    rw [exec_larderDeferredEnqueue hp, hs, placeStalled_room hl he]
  · rw [exec_larderDeferredEnqueue hp, hs, placeStalled_full hl he, ← hs]
  · refine ⟨_, exec_rtfreeWrite hd v, ?_⟩
    rw [setRtfree_code, rtfreeCode_eq]
    refine ⟨rfl, fun h => setRtfree_frees (v := v) ?_, fun h => setRtfree_keeps ?_⟩ <;> rwa [rtfreeCode_eq]

end

section
/-! PROOFS. Stair commands, records and resets (O55): what a command does at its sender and at its ring, and what its end leaves alone. -/

namespace Sys2Proof.Machine

/-- The signed distance of two numbers, as words subtract (R313). -/
theorem diff32_eq (a b : Nat) : diff32 a b = (BitVec.ofNat 32 a - BitVec.ofNat 32 b).toInt := by
  simp [diff32, Int.sub_eq_add_neg, BitVec.ofInt_add, BitVec.ofInt_neg, BitVec.sub_eq_add_neg]

theorem bit_wd_one (n : Nat) : bit (wd n) 1 = decide (n / 2 % 2 = 1) := by
  unfold bit wd
  rw [BitVec.toNat_ofNat]
  congr 1
  simp only [eq_iff_iff]
  omega

/-! The sender (R311, R314). -/

section
variable {s : State} {x : Cmd}

theorem startSend_leavesSpace (h : leavesSpace s x.core (stairAddr x) 256 = true) : startSend s x = endCmd s x 3 3 0 := if_pos h

theorem startSend_linkDown (h : leavesSpace s x.core (stairAddr x) 256 = false) (hd : look false (dirOf s x / 2) s.dieLinks = false) :
    startSend s x = endCmd s x 3 15 0 := by simp [startSend, h, hd]

theorem startSend_joins (h : leavesSpace s x.core (stairAddr x) 256 = false) (hu : look false (dirOf s x / 2) s.dieLinks = true) :
    startSend s x = readRecord (({ s with sends := s.sends ++ [x] }).modStair (dirOf s x) (fun t => { t with queue := t.queue ++ [x.id] })) x := by
  simp [startSend, h, hu]

theorem startReset_linkDown (hd : look false (dirOf s x / 2) s.dieLinks = false) : startReset s x = endCmd s x 3 15 0 := if_pos (by simp [hd])

/-- The SENDs queued in a RESET's direction that were pushed before it. -/
def earlierSends (s : State) (x : Cmd) : List Cmd :=
  s.sends.filter (fun y => (s.stair (dirOf s x)).queue.contains y.id && !y.ended && decide (y.pushed < x.pushed))

/-- A RESET goes to its direction's receiver. -/
def sendReset (s : State) (d : Nat) (x : Cmd) : State :=
  ({ s with sends := s.sends ++ [{ x with seq := d }] }).post (.stairResetArrival d x.id)

theorem startReset_up (hu : look false (dirOf s x / 2) s.dieLinks = true) :
    startReset s x = sendReset (resetQueued ((earlierSends s x).foldl (fun s y => endSend s y 3 13 0) s) (dirOf s x) x) (dirOf s x) x :=
  if_neg (by simp [hu])

theorem earlierSends_nil (h : s.sends = []) : earlierSends s x = [] := by simp [earlierSends, h]

theorem earlierSends_single {y : Cmd} {ys : List Nat} (h : s.sends = [y]) (hq : (s.stair (dirOf s x)).queue = y.id :: ys) (he : y.ended = false) :
    earlierSends s x = if x.pushed ≤ y.pushed then [] else [y] := by
  simp only [earlierSends, h, hq, he, List.filter_cons, List.filter_nil]
  by_cases hp : x.pushed ≤ y.pushed
  · simp [hp, Nat.not_lt.2 hp]
  · simp [hp, Nat.lt_of_not_le hp]

end

theorem resetFrom_cons (s : State) (c h before f : Nat) (e : HatchEntry) (r kept : List HatchEntry) : resetFrom s c h before (e :: r) kept (f + 1) =
    if hOp e.value = 20 && decide (hNw e.value + 1 ≤ (e :: r).length) &&
        decide ((cmdOf s c h ((e :: r).take (hNw e.value + 1))).pushed < before) then
      resetFrom (endCmd { s with nextId := s.nextId + 1 } (cmdOf s c h ((e :: r).take (hNw e.value + 1))) 3 13 0) c h before
        ((e :: r).drop (hNw e.value + 1)) kept f
    else resetFrom s c h before ((e :: r).drop (hNw e.value + 1)) (kept ++ (e :: r).take (hNw e.value + 1)) f := rfl

theorem resetFrom_nil (s : State) (c h before f : Nat) (kept : List HatchEntry) :
    resetFrom s c h before [] kept (f + 1) = s.setHatch c h { s.hatch c h with cmd := kept } := rfl

/-- A RESET goes through a Hatch whose only command is a complete SEND of four words. -/
theorem resetFrom_send (s : State) (c h before : Nat) {e : HatchEntry} {l : List HatchEntry} (f : Nat) (hl : l.length = 3) (hw : hNw e.value = 3)
    (ho : hOp e.value = 20) :
    let y := cmdOf s c h (e :: l)
    let t := endCmd { s with nextId := s.nextId + 1 } y 3 13 0
    resetFrom s c h before (e :: l) [] (f + 2) = if y.pushed < before then t.setHatch c h { t.hatch c h with cmd := [] }
      else s.setHatch c h { s.hatch c h with cmd := e :: l } := by
  have htake : (e :: l).take (hNw e.value + 1) = e :: l := List.take_of_length_le (by simp [hl, hw])
  have hdrop : (e :: l).drop (hNw e.value + 1) = [] := List.drop_eq_nil_of_le (by simp [hl, hw])
  have hwhole : decide (hNw e.value + 1 ≤ (e :: l).length) = true := by simp [hl, hw]
  intro y t
  rw [resetFrom_cons, htake, hdrop, hwhole, resetFrom_nil, resetFrom_nil]
  simp only [ho, decide_true, Bool.and_self, Bool.true_and, decide_eq_true_eq, List.nil_append, y, t]

/-! The ring (R312, R406). -/

section
variable {s : State} {x : Cmd} {d part : Nat}

theorem foreignRing_unmade (h : (s.stair d).made = false) : foreignRing s d part = false := by simp [foreignRing, h]
theorem foreignRing_own (h : s.partOf (s.stair d).core = part) : foreignRing s d part = false := by simp [foreignRing, h]
theorem foreignRing_other (hm : (s.stair d).made = true) (h : s.partOf (s.stair d).core ≠ part) : foreignRing s d part = true := by
  simp [foreignRing, hm, h]

theorem startFree_foreign (h : foreignRing s (dirOf s x) x.part = true) : startFree s x = endCmd s x 3 5 0 := if_pos h

theorem startFree_raises (h : foreignRing s (dirOf s x) x.part = false) (hn : 0 < diff32 (stairNumber x) (s.stair (dirOf s x)).f) :
    startFree s x = endCmd (s.modStair (dirOf s x) (fun t => { t with f := stairNumber x })) x 1 0 0 := by
  simp [startFree, h, State.modStair, hn]

end

/-! What the receiver says of a record (R313). -/

section
variable {s : State} {x : Cmd} {d : Nat}

theorem exec_stairRecordArrival (hd : d < 8) : exec (.stairRecordArrival d) s = .next (settleRecord s d) :=
  show execStairRecordArrival d s = _ from eventOf_of (decide_eq_true hd)

section
variable (hh : headRecord s d = some x)
include hh

theorem settleRecord_wait (hv : verdict s d x = .wait) : settleRecord s d = s := by simp only [settleRecord, hh, hv]
theorem settleRecord_refused (hv : verdict s d x = .refused) : settleRecord s d = endSend s x 3 5 0 := by simp only [settleRecord, hh, hv]
theorem settleRecord_dup (hv : verdict s d x = .dup) : settleRecord s d = endSend s x 3 11 0 := by simp only [settleRecord, hh, hv]
theorem settleRecord_order (hv : verdict s d x = .order) : settleRecord s d = endSend s x 3 12 0 := by simp only [settleRecord, hh, hv]
theorem settleRecord_dropped (hv : verdict s d x = .dropped) : settleRecord s d = endSend (expectNext s d) x 2 0 0 := by
  simp only [settleRecord, hh, hv]
theorem settleRecord_accept (hv : verdict s d x = .accept) : settleRecord s d = acceptRecord s d x := by simp only [settleRecord, hh, hv]

end

theorem verdict_unmade (h : (s.stair d).made = false) : verdict s d x = .wait := by simp [verdict, h]

theorem verdict_foreign (hm : (s.stair d).made = true) (hp : s.partOf (s.stair d).core ≠ x.part) : verdict s d x = .refused := by
  simp [verdict, hm, foreignRing_other hm hp]

variable (hm : (s.stair d).made = true) (hp : s.partOf (s.stair d).core = x.part)
include hm hp

theorem verdict_dup (h : diff32 (sendNumber x) (s.stair d).e < 0) : verdict s d x = .dup := by
  simp [verdict, hm, foreignRing_own hp, h]

theorem verdict_order (h : 0 < diff32 (sendNumber x) (s.stair d).e) : verdict s d x = .order := by
  simp [verdict, hm, foreignRing_own hp, h, Int.not_lt.2 (Int.le_of_lt h)]

variable (he : diff32 (sendNumber x) (s.stair d).e = 0)
include he

theorem verdict_dropped (hl : s.liveTag x.rtag = false) : verdict s d x = .dropped := by
  simp [verdict, hm, foreignRing_own hp, he, hl]

variable (hl : s.liveTag x.rtag = true)
include hl

theorem verdict_full (h : ¬ (diff32 (sendNumber x) (s.stair d).f ≤ (s.stair d).n ∧ arrivalRoom s d = true)) : verdict s d x = .wait := by
  have h : (s.stair d).n < diff32 (sendNumber x) (s.stair d).f ∨ arrivalRoom s d = false := by
    simpa [Classical.or_iff_not_imp_left] using h
  simp [verdict, hm, foreignRing_own hp, he, hl, h]

theorem verdict_accept (h : diff32 (sendNumber x) (s.stair d).f ≤ (s.stair d).n ∧ arrivalRoom s d = true) : verdict s d x = .accept := by
  simp [verdict, hm, foreignRing_own hp, he, hl, Int.not_lt.2 h.1, h.2]

end

/-! What is left alone by the end of a command that has no completion word and no DONE entry. -/

/-- Memory, Hatches and expected numbers stand. -/
structure KeepsRings (s t : State) : Prop where
  mem : t.mem = s.mem
  hatch : ∀ c h, t.hatch c h = s.hatch c h
  expected : ∀ d, (t.stair d).e = (s.stair d).e

theorem KeepsRings.trans {s t u : State} (h1 : KeepsRings s t) (h2 : KeepsRings t u) : KeepsRings s u :=
  ⟨h2.mem.trans h1.mem, fun c h => (h2.hatch c h).trans (h1.hatch c h), fun d => (h2.expected d).trans (h1.expected d)⟩

theorem KeepsRings.refl (s : State) : KeepsRings s s := ⟨rfl, fun _ _ => rfl, fun _ => rfl⟩

theorem modCmd_keepsRings (s : State) (id : Nat) (f : Cmd → Cmd) : KeepsRings s (modCmd s id f) := ⟨rfl, fun _ _ => rfl, fun _ => rfl⟩

/-- A direction whose queue a command has left. -/
def Stair.without (t : Stair) (id : Nat) : Stair := { t with queue := t.queue.filter (· != id) }

/-- A command that leaves the queues leaves the directions' numbers. -/
theorem expected_of_without {s t : State} {id : Nat} (h : t.stairs = s.stairs.map (fun d => (d.1, d.2.without id))) (d : Nat) :
    (t.stair d).e = (s.stair d).e := by
  rw [State.stair, h]
  exact look_map_leaves {} d Stair.e (fun d => (d.1, d.2.without id)) (fun _ => rfl) (fun _ => rfl) s.stairs

theorem dropCmd_keepsRings (s : State) (id : Nat) : KeepsRings s (dropCmd s id) :=
  ⟨rfl, fun _ _ => rfl, expected_of_without rfl⟩

theorem freeBoard_keepsRings (s : State) (c id : Nat) : KeepsRings s (freeBoard s c id) where
  mem := rfl
  hatch k h := by
    simp only [freeBoard, State.hatch, State.modCore_eq, State.core_setCore]
    split
    · next hk => rw [hk]
    · rfl
  expected _ := rfl

theorem tryFree_keepsRings (s : State) (r : Nat) : KeepsRings s (tryFree s r) := by
  unfold tryFree releaseEntry
  dsimp only
  split
  · split <;> exact ⟨rfl, fun _ _ => rfl, fun _ => rfl⟩
  · exact .refl s

theorem writeCompletion_none {s : State} {x : Cmd} {v : Word} (h : x.words.getD 1 0 = 0) : writeCompletion s x v = some s := by
  simp only [writeCompletion, h, decide_true, Bool.true_or, if_true]

theorem payOwed_keepsRings {s : State} {x : Cmd} (h : x.words.getD 1 0 = 0) : KeepsRings s (payOwed s x) := by
  unfold payOwed
  rw [writeCompletion_none h]
  split
  · exact modCmd_keepsRings ..
  · exact .refl s

theorem endCmd_keepsRings {s : State} {x : Cmd} {st err bytes : Nat} (h : x.words.getD 1 0 = 0) (hd : x.done = none) :
    KeepsRings s (endCmd s x st err bytes) := by
  unfold endCmd
  dsimp only
  rw [writeCompletion_none h, hd]
  exact (payOwed_keepsRings h).trans ((freeBoard_keepsRings ..).trans ((dropCmd_keepsRings ..).trans (tryFree_keepsRings ..)))

theorem endSend_keepsRings {s : State} {x : Cmd} {st err bytes : Nat} (h : x.words.getD 1 0 = 0) (hd : x.done = none) :
    KeepsRings s (endSend s x st err bytes) := by
  have hq : KeepsRings s { s with stairs := s.stairs.map (fun d => (d.1, d.2.without x.id)) } := ⟨rfl, fun _ _ => rfl, expected_of_without rfl⟩
  exact hq.trans (endCmd_keepsRings h hd)

/-! An accepted record (R312, R313). -/

theorem core_hatches_leaves {s : State} {c d : Nat} {k : Core} (h : k.hatches = (s.core d).hatches) :
    ((s.setCore d k).core c).hatches = (s.core c).hatches := by
  rw [State.core_setCore]
  split
  · next hc => rw [hc, h]
  · rfl

theorem rereadContexts_hatches (s : State) (c o n d : Nat) : ((rereadContexts s c o n).core d).hatches = (s.core d).hatches := by
  refine foldl_leaves (p := fun t : State => (t.core d).hatches) (fun t x => ?_) _ s
  split
  · split
    · split
      · exact core_hatches_leaves rfl
      · exact core_hatches_leaves (s := untie t c x.num) rfl
    · rfl
  · rfl

theorem rereadContexts_stairs (s : State) (c o n : Nat) : (rereadContexts s c o n).stairs = s.stairs := by
  refine foldl_leaves (p := State.stairs) (fun t x => ?_) _ s
  split
  · split
    · split <;> rfl
    · rfl
  · rfl

theorem sramStore_hatch (s : State) (loc : Nat) (bs : List Byte) (c h : Nat) : (sramStore s loc bs).hatch c h = s.hatch c h := by
  unfold sramStore State.hatch
  dsimp only
  split
  · rw [rereadContexts_hatches]
    rfl
  · rfl

theorem sramStore_stairs (s : State) (loc : Nat) (bs : List Byte) : (sramStore s loc bs).stairs = s.stairs := by
  unfold sramStore
  dsimp only
  split
  · exact rereadContexts_stairs ..
  · rfl

/-- The word that announces a record enters the ring's Hatch. -/
def announceRecord (s : State) (t : Stair) (x : Cmd) : State :=
  let h := s.hatch t.core t.hatch
  s.setHatch t.core t.hatch { h with entries := h.entries ++ [{ value := arrivalWord (sendNumber x) x.rtag, rtag := x.rtag }] }

theorem announceRecord_entries (s : State) (t : Stair) (x : Cmd) : ((announceRecord s t x).hatch t.core t.hatch).entries =
    (s.hatch t.core t.hatch).entries ++ [{ value := wd (sendNumber x * 2 ^ 32 + x.rtag % 2 ^ 18), rtag := x.rtag }] := by
  simp [announceRecord, State.hatch, look_put_same, arrivalWord, at_]

@[simp] theorem Memory.length_readN (m : Memory) (a n : Nat) : (m.readN a n).length = n := by
  induction n generalizing a with
  | zero => rfl
  | succ n ih => simp [Memory.readN, ih]

section
variable {s : State} {x : Cmd} {d loc : Nat} (hloc : sramBase ≤ loc) (hsp : spans s (s.stair d).core (s.stair d).user .engineOut
  ((s.stair d).base + wd (sendNumber x % (s.stair d).n * 256)) 256 = ([.run loc 0 0 0 256], s))
include hloc hsp

/-- A record whose place is in an SRAM is written there, expected and announced. -/
theorem acceptRecord_sram : acceptRecord s d x =
    endSend (announceRecord (expectNext (sramStore s loc (x.snap.readN 0 256)) d) (s.stair d) x) x 1 0 256 := by
  have htake : (x.snap.readN 0 256).take 256 = x.snap.readN 0 256 := List.take_of_length_le (by simp)
  unfold acceptRecord
  simp only [hsp, spanStop, List.findSome?_cons, List.findSome?_nil, writeSpans, engineStore, Span.len, if_neg (Nat.not_lt.2 hloc), htake]
  rfl

variable (hw : x.words.getD 1 0 = 0) (hdone : x.done = none)
include hw hdone

theorem acceptRecord_mem : (acceptRecord s d x).mem = s.mem.writes (cellsAt loc (x.snap.readN 0 256)) := by
  rw [acceptRecord_sram hloc hsp, (endSend_keepsRings hw hdone).mem]
  exact sramStore_mem ..

theorem acceptRecord_expects : ((acceptRecord s d x).stair d).e = ((s.stair d).e + 1) % 2 ^ 32 := by
  have h : (sramStore s loc (x.snap.readN 0 256)).stair d = s.stair d := by rw [State.stair, sramStore_stairs, State.stair]
  rw [acceptRecord_sram hloc hsp, (endSend_keepsRings hw hdone).expected, ← h]
  exact congrArg Stair.e (look_put_same ..)

theorem acceptRecord_entries : ((acceptRecord s d x).hatch (s.stair d).core (s.stair d).hatch).entries =
    (s.hatch (s.stair d).core (s.stair d).hatch).entries ++ [{ value := wd (sendNumber x * 2 ^ 32 + x.rtag % 2 ^ 18), rtag := x.rtag }] := by
  rw [acceptRecord_sram hloc hsp, (endSend_keepsRings hw hdone).hatch, announceRecord_entries, ← sramStore_hatch s loc (x.snap.readN 0 256)]
  rfl

end

/-! A RESET at its receiver (R314). -/

/-- A direction's ring takes a RESET's numbers. -/
def resetRing (s : State) (d : Nat) (x : Cmd) : State :=
  s.modStair d (fun t => { t with e := (stairNumber x + 1) % 2 ^ 32, f := stairNumber x })

/-- A receive Hatch without the arrival words past a committed number. -/
def Hatch.clearedAfter (h : Hatch) (c : Nat) : Hatch := { h with entries := h.entries.filter (fun e => decide (diff32 (fld e.value 32 32) c ≤ 0)) }

section
variable {s : State} {x : Cmd} {d : Nat}

theorem exec_stairResetArrival (hd : d < 8) (hs : s.sends = [x]) (ho : x.op = 21) (hx : x.seq = d) (he : x.ended = false) :
    exec (.stairResetArrival d x.id) s = .next (applyReset s d x) := by
  refine (show execStairResetArrival d x.id s = _ from eventOf_of (decide_eq_true hd)).trans ?_
  simp [hs, ho, hx, he]

theorem applyReset_unmade (h : (s.stair d).made = false) : applyReset s d x = endCmd (resetRing s d x) x 1 0 0 := by
  simp [applyReset, foreignRing_unmade h, h, resetRing]

theorem applyReset_foreign (h : foreignRing s d x.part = true) : applyReset s d x = endCmd s x 3 5 0 := if_pos h

variable (hf : foreignRing s d x.part = false) (hm : (s.stair d).made = true)
include hf hm

theorem applyReset_made : applyReset s d x = endCmd (let h := s.hatch (s.stair d).core (s.stair d).hatch
    if h.kind = 5 && h.arg / 2 % 2 = 1 then (resetRing s d x).setHatch (s.stair d).core (s.stair d).hatch (h.clearedAfter (stairNumber x))
    else resetRing s d x) x 1 0 0 := by
  simp only [applyReset, hf, hm, Bool.false_eq_true, if_false, if_true]
  rfl

theorem applyReset_clears (hk : (s.hatch (s.stair d).core (s.stair d).hatch).kind = 5)
    (hr : (s.hatch (s.stair d).core (s.stair d).hatch).arg / 2 % 2 = 1) : applyReset s d x =
      endCmd ((resetRing s d x).setHatch (s.stair d).core (s.stair d).hatch
        ((s.hatch (s.stair d).core (s.stair d).hatch).clearedAfter (stairNumber x))) x 1 0 0 := by
  rw [applyReset_made hf hm]
  dsimp only
  rw [if_pos (by simp [hk, hr])]

theorem applyReset_unbound (hk : (s.hatch (s.stair d).core (s.stair d).hatch).kind ≠ 5 ∨
    (s.hatch (s.stair d).core (s.stair d).hatch).arg / 2 % 2 ≠ 1) : applyReset s d x = endCmd (resetRing s d x) x 1 0 0 := by
  rw [applyReset_made hf hm]
  dsimp only
  rw [if_neg (by simpa [Classical.or_iff_not_imp_left] using hk)]

end

/-! A die-to-die link fails (R431). -/

theorem exec_dieToDieLinkFailure {s : State} {k : Nat} (hk : k < 4) : exec (.dieToDieLinkFailure k) s = .next (failStair s k) :=
  show execDieToDieLinkFailure k s = _ from eventOf_of (decide_eq_true hk)

theorem failStair_idle {s : State} {k : Nat} (h : s.sends = []) : failStair s k = { s with dieLinks := put k false s.dieLinks } := by
  simp [failStair, h]

end Sys2Proof.Machine

open Sys2Proof Sys2Proof.Machine

/-- Settles O55: a command at its sender, a record and a RESET at their ring, each by the case that its lemma says; an accepted record's bytes,
number and word by what ending its SEND leaves alone. -/
theorem stairEvents : Obligations.StairEvents := by
  unfold Obligations.StairEvents
  intro s x loc d up inSpace t n
  refine ⟨startSend_leavesSpace, fun h hu => startSend_linkDown h (eq_false_of_ne_true hu), startSend_joins,
    fun hu => startReset_linkDown (eq_false_of_ne_true hu), fun y ys hu hs => ?_, fun c h before e l f hl hw ho => ?_, fun h => ?_,
    fun hm hp => startFree_foreign (foreignRing_other hm hp), fun hn hr => ?_, fun d hd hh => ?_, fun d hd hs ho hx he hm => ?_,
    fun d hd hs ho hx he hm => ?_, fun k hk hs => ?_, fun k => exec_dieToDieLinkFailure⟩
  · rw [startReset_up hu]
    rcases hs with hs | ⟨hs, hq, he⟩
    · rw [earlierSends_nil hs, if_pos (.inl hs)]
      rfl
    · rw [earlierSends_single hs hq he]
      by_cases hp : x.pushed ≤ y.pushed
      · rw [if_pos hp, if_pos (.inr hp)]
        rfl
      · rw [if_neg hp, if_neg (by simp [hs, hp])]
        rfl
  · exact resetFrom_send s c h before f hl hw ho
  · exact if_neg (by simp [h])
  · rw [← diff32_eq] at hn
    exact startFree_raises (hr.elim foreignRing_unmade foreignRing_own) hn
  · intro t arrives ahead room
    have harr : arrives = .next (settleRecord s d) := exec_stairRecordArrival hd
    have hahead : ahead = diff32 n t.e := (diff32_eq ..).symm
    have hroom : room = (diff32 n t.f ≤ t.n ∧ arrivalRoom s d = true) := by rw [diff32_eq]
    rw [harr, hahead, hroom]
    refine ⟨fun hm => ?_, fun hm hp => ?_, fun ⟨hm, hp⟩ hlt => ?_, fun ⟨hm, hp⟩ hgt => ?_, fun ⟨hm, hp⟩ he hl => ?_,
      fun ⟨hm, hp⟩ he hl hfull => ?_, fun ⟨hm, hp⟩ he hl hroom hw hdone hloc hsp => ⟨_, rfl, ?_⟩⟩
    · rw [settleRecord_wait hh (verdict_unmade hm)]
    · rw [settleRecord_refused hh (verdict_foreign hm hp)]
    · rw [settleRecord_dup hh (verdict_dup hm hp hlt)]
    · rw [settleRecord_order hh (verdict_order hm hp hgt)]
    · rw [settleRecord_dropped hh (verdict_dropped hm hp he hl)]
      rfl
    · rw [settleRecord_wait hh (verdict_full hm hp he hl hfull)]
    · rw [settleRecord_accept hh (verdict_accept hm hp he hl hroom)]
      have hmem := acceptRecord_mem hloc hsp hw hdone
      refine ⟨acceptRecord_expects hloc hsp hw hdone, ?_, fun a ha => ?_, acceptRecord_entries hloc hsp hw hdone⟩
      · rw [hmem]
        simpa using Memory.readN_writes_cellsAt s.mem loc (x.snap.readN 0 256)
      · rw [hmem, Memory.read_writes_cellsAt_outside (by simpa using ha)]
  · rw [exec_stairResetArrival hd hs ho hx he, applyReset_unmade hm]
    rfl
  · intro t h z
    rw [exec_stairResetArrival hd hs ho hx he]
    refine ⟨fun hp => ?_, fun hp hk hb => ?_, fun hp hk => ?_⟩
    · rw [applyReset_foreign (foreignRing_other hm hp)]
    · rw [applyReset_clears (foreignRing_own hp) hm hk (by simpa [bit_wd_one] using hb)]
      simp only [Hatch.clearedAfter, diff32_eq]
      rfl
    · rw [applyReset_unbound (foreignRing_own hp) hm (by simpa [bit_wd_one] using hk)]
      rfl
  · rw [exec_dieToDieLinkFailure hk, failStair_idle hs]

end

section
/-! PROOFS. What a load sees (O20): the point of a load, the stores in a core's lines, and what publishing and refreshing leave. -/

namespace Sys2Proof.Machine

/-! Bytes one by one. -/

theorem Memory.readN_eq_map (m : Memory) (a n : Nat) : m.readN a n = (List.range n).map (fun i => m.read (a + i)) := by
  induction n generalizing a with
  | zero => rfl
  | succ n ih => simp [Memory.readN, ih, List.range_succ_eq_map, Function.comp_def, Nat.add_assoc, Nat.add_comm 1]

theorem snapBytes_eq_map (s : State) (c a p n : Nat) : snapBytes s c a p n = (List.range n).map (fun i => snapByte s c (a + i) p) := by
  induction n generalizing a with
  | zero => rfl
  | succ n ih => simp [snapBytes, ih, List.range_succ_eq_map, Function.comp_def, Nat.add_assoc, Nat.add_comm 1]

/-- A list whose bytes are those of another is it. -/
theorem map_range_eq {bs : List Byte} {f : Nat → Byte} (h : ∀ (i : Nat) (hi : i < bs.length), f i = bs[i]) : (List.range bs.length).map f = bs :=
  List.ext_getElem (by simp) fun i hi _ => by simpa using h i (by simpa using hi)

theorem lineNo_add {a n i : Nat} (h : a % 128 + n ≤ 128) (hi : i < n) : lineNo (a + i) = lineNo a := by unfold lineNo; omega
theorem sectorNo_add {a n i : Nat} (h : a % 16 + n ≤ 16) (hi : i < n) : sectorNo (a + i) = sectorNo a := by unfold sectorNo; omega

/-! The point of a load (R99, R100). -/

theorem le_foldl_max {f : Nat → Nat} (l : List Nat) (b : Nat) :
    b ≤ l.foldl (fun b i => max b (f i)) b ∧ ∀ i ∈ l, f i ≤ l.foldl (fun b i => max b (f i)) b := by
  induction l generalizing b with
  | nil => simp
  | cons j l ih =>
    obtain ⟨h0, h1⟩ := ih (max b (f j))
    refine ⟨Nat.le_trans (Nat.le_max_left ..) h0, fun i hi => ?_⟩
    rcases List.mem_cons.1 hi with rfl | hi
    · exact Nat.le_trans (Nat.le_max_right ..) h0
    · exact h1 i hi

theorem refresh_le_seenBound (k : Core) (a n : Nat) : k.refresh ≤ seenBound k a n := (le_foldl_max _ _).1
theorem seen_le_seenBound (k : Core) (a : Nat) {n i : Nat} (hi : i < n) : look 0 (a + i) k.seen ≤ seenBound k a n :=
  (le_foldl_max (f := fun i => look 0 (a + i) k.seen) _ _).2 i (List.mem_range.2 hi)

theorem seenBound_le_sectorBound (k : Core) (a n : Nat) : seenBound k a n ≤ sectorBound k a n := by
  unfold sectorBound
  dsimp only
  split
  · exact Nat.le_max_left ..
  · exact Nat.le_refl _

theorem drawPoint_le (s : State) (b : Nat) : (drawPoint s b).1 ≤ s.history.length := by
  unfold drawPoint
  dsimp only
  split
  · exact Nat.le_refl _
  · exact Nat.sub_le ..

theorem le_drawPoint (s : State) (b : Nat) : min b s.history.length ≤ (drawPoint s b).1 := by
  unfold drawPoint
  dsimp only
  split
  · exact Nat.min_le_right ..
  · have h := Nat.mod_lt (Config.loadPoint s.fresh.1) (Nat.succ_pos (s.history.length - b))
    dsimp only [Nat.succ_eq_add_one] at h ⊢
    omega

section
variable (s : State) (c a n : Nat)

theorem loadPoint_held (h : heldHere s c (lineNo a) = true) : (loadPointOf s c a n).1 = s.history.length := by simp [loadPointOf, h]

theorem loadPoint_le : (loadPointOf s c a n).1 ≤ s.history.length := by
  unfold loadPointOf
  split
  · exact Nat.le_refl _
  · exact drawPoint_le ..

theorem le_loadPoint : min (seenBound (s.core c) a n) s.history.length ≤ (loadPointOf s c a n).1 := by
  have h := seenBound_le_sectorBound (s.core c) a n
  unfold loadPointOf
  split
  · exact Nat.min_le_right ..
  · have hb : min (seenBound (s.core c) a n) s.history.length ≤ min (sectorBound (s.core c) a n) s.history.length := by omega
    exact Nat.le_trans hb (le_drawPoint ..)

/-- Choosing a point uses up a free value and changes nothing else. -/
theorem drawPoint_state (b : Nat) : ∃ f, (drawPoint s b).2 = { s with free := f } := by
  unfold drawPoint
  dsimp only
  split
  · exact ⟨s.free, rfl⟩
  · exact ⟨s.free + 1, rfl⟩

theorem loadPoint_state : ∃ f, (loadPointOf s c a n).2 = { s with free := f } := by
  unfold loadPointOf
  split
  · exact ⟨s.free, rfl⟩
  · exact drawPoint_state ..

/-! What a load returns and notes. -/

theorem snapLoad_bytes : (snapLoad s c a n).1 = (List.range n).map (fun i => snapByte s c (a + i) (loadPointOf s c a n).1) := by
  obtain ⟨f, hf⟩ := loadPoint_state s c a n
  unfold snapLoad
  dsimp only
  rw [hf, snapBytes_eq_map]
  rfl

/-- The bytes that a load takes from the coherence order. -/
def bytesRead : List Nat := ((List.range n).map (a + ·)).filter (fun x => !ownStore (s.core c) x)

theorem mem_bytesRead {i : Nat} (hi : i < n) (ho : ownStore (s.core c) (a + i) = false) : a + i ∈ bytesRead s c a n :=
  List.mem_filter.2 ⟨List.mem_map.2 ⟨i, List.mem_range.2 hi, rfl⟩, by simp [ho]⟩

theorem snapLoad_seen : ((snapLoad s c a n).2.core c).seen = noteBytes (s.core c).seen
    ((bytesRead s c a n).filter (fun x => heldHere s c (lineNo a) || !((s.core c).reverted.any (fun r => r.1 = x)))) (loadPointOf s c a n).1 := by
  obtain ⟨f, hf⟩ := loadPoint_state s c a n
  unfold snapLoad
  dsimp only
  rw [hf, State.modCore_eq, State.core_setCore, if_pos rfl]
  rfl

theorem snapLoad_reverted : ((snapLoad s c a n).2.core c).reverted =
    if heldHere s c (lineNo a) then (s.core c).reverted.filter (fun r => !(bytesRead s c a n).contains r.1) else (s.core c).reverted := by
  obtain ⟨f, hf⟩ := loadPoint_state s c a n
  unfold snapLoad
  dsimp only
  rw [hf, State.modCore_eq, State.core_setCore, if_pos rfl]
  rfl

end

theorem look_noteBytes (m : Map Nat) (l : List Nat) (d k now : Nat) : look d k (noteBytes m l now) = if k ∈ l then now else look d k m := by
  induction l generalizing m with
  | nil => rfl
  | cons b l ih =>
    refine (ih (put b now m)).trans ?_
    rw [look_put]
    by_cases hk : k = b <;> simp [hk]

section
variable {s : State} {c a n i : Nat} (hi : i < n) (ho : ownStore (s.core c) (a + i) = false)
include hi ho

theorem snapLoad_notes (h : heldHere s c (lineNo a) = true ∨ (s.core c).reverted.find? (fun r => r.1 = a + i) = none) :
    look 0 (a + i) ((snapLoad s c a n).2.core c).seen = (loadPointOf s c a n).1 := by
  rw [snapLoad_seen, look_noteBytes, if_pos]
  refine List.mem_filter.2 ⟨mem_bytesRead s c a n hi ho, ?_⟩
  rcases h with h | h
  · simp [h]
  · simpa using Or.inr (List.find?_eq_none.1 h)

theorem snapLoad_forgets (h : heldHere s c (lineNo a) = true) : ∀ r ∈ ((snapLoad s c a n).2.core c).reverted, r.1 ≠ a + i := by
  rw [snapLoad_reverted, if_pos h]
  intro r hr he
  exact absurd (mem_bytesRead s c a n hi ho) (by simpa [he] using (List.mem_filter.1 hr).2)

end

/-- The point whose value core c reads of a byte in a load at point p (R66). -/
def bytePoint (s : State) (c x p : Nat) : Nat :=
  match (s.core c).reverted.find? (fun r => r.1 = x) with
  | some r => if heldHere s c (lineNo x) then p else r.2
  | none => p

theorem snapByte_plain {s : State} {c x : Nat} (p : Nat) (h : dirtyLine (s.core c) x = none) :
    snapByte s c x p = asOf s x (s.history.length - bytePoint s c x p) := by
  unfold snapByte bytePoint
  dsimp only
  rw [h]
  cases (s.core c).reverted.find? (fun r => r.1 = x) with
  | none => rfl
  | some r => cases hh : heldHere s c (lineNo x) <;> rfl

theorem snapByte_line {s : State} {c x : Nat} {l : Line} (p : Nat) (h : dirtyLine (s.core c) x = some l) :
    snapByte s c x p = look (if l.zero.contains (sectorNo x) then 0 else asOf s x (s.history.length - bytePoint s c x p)) x l.cells := by
  unfold snapByte bytePoint
  dsimp only
  rw [h]
  cases (s.core c).reverted.find? (fun r => r.1 = x) with
  | none => rfl
  | some r => cases hh : heldHere s c (lineNo x) <;> rfl

/-! A refreshed core's loads (R102). -/

theorem refreshCore_core (s : State) (c : Nat) : (refreshCore s c).core c = { s.core c with
    refresh := s.history.length, seen := [], reverted := []
    l1 := (s.core c).l1.filter (fun ln => heldHere s c ln || (s.core c).lines.any (fun l => l.line = ln)) } := by
  unfold refreshCore
  dsimp only
  split <;> exact look_put_same ..

theorem refreshCore_history (s : State) (c : Nat) : (refreshCore s c).history = s.history := by
  unfold refreshCore
  dsimp only
  split <;> rfl

theorem loadPoint_refreshed (s : State) (c a n : Nat) : (loadPointOf (refreshCore s c) c a n).1 = s.history.length := by
  have h1 := loadPoint_le (refreshCore s c) c a n
  have h2 := le_loadPoint (refreshCore s c) c a n
  have h3 := refresh_le_seenBound ((refreshCore s c).core c) a n
  rw [refreshCore_history] at h1 h2
  have h4 : ((refreshCore s c).core c).refresh = s.history.length := by rw [refreshCore_core]
  omega

/-- A refreshed core reads the published bytes where it has no unpublished store. -/
theorem snapLoad_refreshed {s : State} {c a n : Nat} (h : ∀ i, i < n → dirtyLine (s.core c) (a + i) = none) :
    (snapLoad (refreshCore s c) c a n).1 = s.mem.readN a n := by
  rw [snapLoad_bytes, loadPoint_refreshed, Memory.readN_eq_map]
  refine List.map_congr_left fun i hi => ?_
  have hd : dirtyLine ((refreshCore s c).core c) (a + i) = none := by
    rw [refreshCore_core]
    exact h i (List.mem_range.1 hi)
  have hp : bytePoint (refreshCore s c) c (a + i) s.history.length = s.history.length := by
    rw [bytePoint, refreshCore_core]
    rfl
  rw [snapByte_plain _ hd, hp, refreshCore_history, Nat.sub_self]
  exact congrArg (fun m => Memory.read m (a + i)) (refreshCore_mem s c)

/-! The bytes stored in a line (R97). -/

theorem find?_put {α : Type} (j k : Nat) (v : α) (m : List (Nat × α)) :
    (put k v m).find? (fun c => decide (c.1 = j)) = if j = k then some (k, v) else m.find? (fun c => decide (c.1 = j)) := by
  induction m with
  | nil => simp [put, eq_comm]
  | cons c m ih =>
    obtain ⟨i, w⟩ := c
    unfold put
    split
    · next hlt =>
      rw [List.find?_cons, ih, List.find?_cons]
      by_cases hj : j = k
      · subst hj; simp [Nat.ne_of_lt hlt]
      · simp [hj]
    · split
      · next hik => subst hik; by_cases hj : j = i <;> simp [hj, eq_comm]
      · by_cases hj : j = k <;> simp [hj, eq_comm]

theorem find?_puts_outside {l : List Host.Cell} {k : Nat} (h : ∀ c ∈ l, c.1 ≠ k) (m : List Host.Cell) :
    (l.foldl (fun m c => put c.1 c.2 m) m).find? (fun c => decide (c.1 = k)) = m.find? (fun c => decide (c.1 = k)) := by
  induction l generalizing m with
  | nil => rfl
  | cons c l ih =>
    obtain ⟨hc, hl⟩ := List.forall_mem_cons.1 h
    rw [List.foldl_cons, ih hl, find?_put, if_neg (Ne.symm hc)]

/-- Of bytes put at consecutive places, each is found at its place. -/
theorem find?_puts_cellsAt (a : Nat) (bs : List Byte) (m : List Host.Cell) {i : Nat} (hi : i < bs.length) :
    ((cellsAt a bs).foldl (fun m c => put c.1 c.2 m) m).find? (fun c => decide (c.1 = a + i)) = some (a + i, bs[i]) := by
  induction bs generalizing a i m with
  | nil => simp at hi
  | cons b bs ih =>
    rw [cellsAt, List.foldl_cons]
    cases i with
    | zero =>
      rw [find?_puts_outside fun c hc => by have := (mem_cellsAt hc).1; omega, Nat.add_zero, find?_put, if_pos rfl]
      rfl
    | succ i =>
      rw [show a + (i + 1) = a + 1 + i by omega]
      exact ih (a + 1) _ (by simpa using hi)

theorem storeInto_find (l : Line) (a : Nat) (bs : List Byte) (r sec fill : Nat) (bad : Bool) {i : Nat} (hi : i < bs.length) :
    (storeInto l (cellsAt a bs) r sec fill bad).cells.find? (fun c => decide (c.1 = a + i)) = some (a + i, bs[i]) :=
  find?_puts_cellsAt a bs l.cells hi

/-! What bringing a line in leaves of the lines with unpublished stores: those of a core only go. -/

/-- Core d has no line with unpublished stores in `t` that it has not in `s`. -/
def LinesWithin (d : Nat) (s t : State) : Prop := (t.core d).lines ⊆ (s.core d).lines

section
variable {d : Nat} {s t u : State}

theorem LinesWithin.refl (d : Nat) (s : State) : LinesWithin d s s := List.Subset.refl _
theorem LinesWithin.trans (h1 : LinesWithin d s t) (h2 : LinesWithin d t u) : LinesWithin d s u := List.Subset.trans h2 h1
theorem LinesWithin.of_cores (h : t.cores = s.cores) : LinesWithin d s t := by
  unfold LinesWithin State.core
  rw [h]
  exact List.Subset.refl _

theorem modCore_linesWithin (s : State) (c d : Nat) {f : Core → Core} (h : d = c → (f (s.core c)).lines ⊆ (s.core c).lines) :
    LinesWithin d s (s.modCore c f) := by
  unfold LinesWithin
  rw [State.modCore_eq, State.core_setCore]
  split
  · next hd => exact hd ▸ h hd
  · exact List.Subset.refl _

theorem LinesWithin.lines_nil (h : LinesWithin d s t) (hs : (s.core d).lines = []) : (t.core d).lines = [] :=
  List.subset_nil.1 (hs ▸ h)

theorem LinesWithin.dirtyLine_none {a : Nat} (h : LinesWithin d s t) (hs : dirtyLine (s.core d) a = none) : dirtyLine (t.core d) a = none :=
  List.find?_eq_none.2 fun l hl => List.find?_eq_none.1 hs l (h hl)

end

theorem publishLine_linesWithin (s : State) (c ln d : Nat) : LinesWithin d s (publishLine s c ln) := by
  unfold publishLine
  split
  · exact .refl d s
  · next l _ =>
    have hf : ((l.fills.foldl (fun s f => publishSector s c l f.1) s).core d).lines = (s.core d).lines :=
      foldl_leaves (p := fun s => (s.core d).lines) (fun s f => publishCells_lines s _ _ _ _ d) l.fills s
    exact LinesWithin.trans (by unfold LinesWithin; rw [hf]; exact List.Subset.refl _)
      (modCore_linesWithin _ _ _ fun _ _ hl => (List.mem_filter.1 hl).1)

theorem publishLines_linesWithin (s : State) (c d : Nat) : LinesWithin d s (publishLines s c) :=
  foldl_keeps (P := LinesWithin d s) (fun _ l h => h.trans (publishLine_linesWithin _ c l.line d)) _ (.refl d s)

theorem pickLine_cores {α : Type} (s : State) (l : List α) : (pickLine s l).2.cores = s.cores := by
  unfold pickLine
  split <;> rfl

theorem leaveL1_linesWithin (s : State) (c ln d : Nat) : LinesWithin d s (leaveL1 s c ln) := by
  unfold leaveL1
  dsimp only
  split
  · exact publishLine_linesWithin ..
  · refine LinesWithin.trans (t := if _ then s else _) ?_ (.of_cores rfl)
    split
    · exact .refl d s
    · have hc := pickLine_cores s (s.tile (tileOf c)).pool
      split <;> rename_i hp <;> rw [hp] at hc
      · exact LinesWithin.trans (.of_cores hc) (publishLine_linesWithin (State.modTile ..) ..)
      · exact .of_cores hc

theorem bringLine_linesWithin (s : State) (c ln d : Nat) : LinesWithin d s (bringLine s c ln) := by
  unfold bringLine
  dsimp only
  split
  · exact .refl d s
  · refine LinesWithin.trans (t := if _ then _ else _) ?_ (modCore_linesWithin _ _ _ fun _ => List.Subset.refl _)
    generalize hs1 : (if (s.tile (tileOf c)).pool.isEmpty = true then s
        else s.modTile (tileOf c) (fun t => { t with pool := t.pool.filter (fun x => x != (c, ln)) })) = s1
    have h1 : s1.cores = s.cores := by
      rw [← hs1]
      split <;> rfl
    refine LinesWithin.trans (.of_cores h1) ?_
    split
    · exact .refl d s1
    · have hc := pickLine_cores s1 (if ((s.core c).l1.filter (fun x => !heldHere s c x)).isEmpty then (s.core c).l1
        else (s.core c).l1.filter (fun x => !heldHere s c x))
      split <;> rename_i hp <;> rw [hp] at hc
      · exact (LinesWithin.of_cores hc).trans ((modCore_linesWithin _ _ _ fun _ => List.Subset.refl _).trans (leaveL1_linesWithin ..))
      · exact .of_cores hc

theorem makeRoom_linesWithin (s : State) (c d : Nat) : LinesWithin d s (makeRoom s c) := by
  unfold makeRoom
  split
  · split
    · exact publishLine_linesWithin ..
    · exact .refl d s
  · exact .refl d s

theorem fillPoint_cores (s : State) (c sec : Nat) : (fillPoint s c sec).2.cores = s.cores := by
  unfold fillPoint
  split
  · rfl
  · obtain ⟨f, hf⟩ := drawPoint_state s (seenBound (s.core c) (16 * sec) 16)
    rw [hf]

/-! A core's own stores (R97, R99). -/

theorem dirtyLine_add (k : Core) {a n i : Nat} (h : a % 128 + n ≤ 128) (hi : i < n) : dirtyLine k (a + i) = dirtyLine k a := by
  unfold dirtyLine
  rw [lineNo_add h hi]

section
variable {s : State} {c r a : Nat} {bs : List Byte} {ext : Word}

/-- The line that a store opens. -/
def openedLine (r a : Nat) (bs : List Byte) (ext : Word) (fill : Nat) (bad : Bool) : Line :=
  storeInto { line := lineNo a, tag := .one r, cells := [], fills := [], leaf := ext } (cellsAt a bs) r (sectorNo a) fill bad

/-- A store to a line with no unpublished store opens it, behind the core's others. -/
theorem snapStore_opens (h : dirtyLine ((bringLine s c (lineNo a)).core c) a = none) : ∃ fill bad, ((snapStore s c r a bs ext).core c).lines =
    ((makeRoom (bringLine s c (lineNo a)) c).core c).lines ++ [openedLine r a bs ext fill bad] := by
  have hc := fillPoint_cores (makeRoom (bringLine s c (lineNo a)) c) c (sectorNo a)
  have hk : (fillPoint (makeRoom (bringLine s c (lineNo a)) c) c (sectorNo a)).2.core c = (makeRoom (bringLine s c (lineNo a)) c).core c := by
    unfold State.core
    rw [hc]
  unfold dirtyLine at h
  unfold snapStore
  dsimp only
  rw [h]
  dsimp only
  rw [State.modCore_eq, State.core_setCore, if_pos rfl, hk]
  exact ⟨_, _, rfl⟩

/-- A change of the lines of a number, which leaves them theirs, changes the first of them. -/
theorem find?_line_map {ls : List Line} {ln : Nat} {l : Line} {f : Line → Line} (h : ls.find? (fun l => decide (l.line = ln)) = some l)
    (hf : ∀ k, (f k).line = k.line) : (ls.map (fun l => if l.line = ln then f l else l)).find? (fun l => decide (l.line = ln)) = some (f l) := by
  have hp : (fun l : Line => decide (l.line = ln)) ∘ (fun l => if l.line = ln then f l else l) = fun l => decide (l.line = ln) := by
    funext k
    by_cases hk : k.line = ln <;> simp [hk, hf]
  have hl : l.line = ln := by simpa using List.find?_some h
  rw [List.find?_map, hp, h, Option.map_some, if_pos hl]

/-- A store's line holds its bytes. -/
theorem snapStore_dirtyLine (s : State) (c r a : Nat) (bs : List Byte) (ext : Word) : ∃ l, dirtyLine ((snapStore s c r a bs ext).core c) a = some l ∧
    ∀ (i : Nat) (hi : i < bs.length), l.cells.find? (fun c => decide (c.1 = a + i)) = some (a + i, bs[i]) := by
  cases h : dirtyLine ((bringLine s c (lineNo a)).core c) a with
  | none =>
    obtain ⟨fill, bad, hl⟩ := snapStore_opens (r := r) (bs := bs) (ext := ext) h
    have hroom := (makeRoom_linesWithin _ c c).dirtyLine_none h
    refine ⟨openedLine r a bs ext fill bad, ?_, fun i hi => storeInto_find _ a bs r _ fill bad hi⟩
    unfold dirtyLine at hroom ⊢
    rw [hl, List.find?_append, hroom, Option.none_or]
    exact List.find?_cons_of_pos (by simp [openedLine, storeInto])
  | some l =>
    unfold dirtyLine at h ⊢
    unfold snapStore
    dsimp only
    rw [h]
    dsimp only
    generalize hz : (if l.fills.any (fun f => decide (f.1 = sectorNo a)) = true then (0, bringLine s c (lineNo a))
      else fillPoint (bringLine s c (lineNo a)) c (sectorNo a)) = z
    have hc : z.2.cores = (bringLine s c (lineNo a)).cores := by
      rw [← hz]
      split
      · rfl
      · exact fillPoint_cores ..
    have hk : z.2.core c = (bringLine s c (lineNo a)).core c := by
      unfold State.core
      rw [hc]
    refine ⟨storeInto l (cellsAt a bs) r (sectorNo a) z.1 (fillBad s (sectorNo a)), ?_, fun i hi => storeInto_find l a bs r _ _ _ hi⟩
    rw [State.modCore_eq, State.core_setCore, if_pos rfl, hk]
    exact find?_line_map h fun _ => rfl

/-- A store gives no other core an unpublished store. -/
theorem snapStore_linesWithin {d : Nat} (hd : d ≠ c) : LinesWithin d s (snapStore s c r a bs ext) := by
  have h0 := bringLine_linesWithin s c (lineNo a) d
  unfold snapStore
  dsimp only
  generalize bringLine s c (lineNo a) = s0 at h0 ⊢
  split
  · refine h0.trans (LinesWithin.trans (.of_cores ?_) (modCore_linesWithin _ _ _ fun h => absurd h hd))
    split
    · rfl
    · exact fillPoint_cores ..
  · exact h0.trans ((makeRoom_linesWithin s0 c d).trans
      (LinesWithin.trans (.of_cores (fillPoint_cores ..)) (modCore_linesWithin _ _ _ fun h => absurd h hd)))

/-- A core's load of what it has stored returns it. -/
theorem snapLoad_snapStore (h : a % 128 + bs.length ≤ 128) : (snapLoad (snapStore s c r a bs ext) c a bs.length).1 = bs := by
  obtain ⟨l, hl, hbytes⟩ := snapStore_dirtyLine s c r a bs ext
  rw [snapLoad_bytes]
  refine map_range_eq fun i hi => ?_
  rw [snapByte_line _ ((dirtyLine_add _ h hi).trans hl)]
  exact look_of_find? _ (hbytes i hi)

/-- A store of bytes in one sector by a core with no unpublished line is in memory once the core has published. -/
theorem publishLines_snapStore (hs : a % 16 + bs.length ≤ 16) (hl : (s.core c).lines = []) :
    (publishLines (snapStore s c r a bs 0) c).mem.readN a bs.length = bs := by
  have h0 := (bringLine_linesWithin s c (lineNo a) c).lines_nil hl
  have h1 := (makeRoom_linesWithin _ c c).lines_nil h0
  obtain ⟨fill, bad, hopen⟩ := snapStore_opens (s := s) (r := r) (bs := bs) (ext := 0) (show dirtyLine _ a = none by rw [dirtyLine, h0]; rfl)
  rw [h1, List.nil_append] at hopen
  rw [Memory.readN_eq_map]
  refine map_range_eq fun i hi => publishLines_read (f := fill) hopen ?_ rfl (storeInto_find _ a bs r _ fill bad hi)
  rw [sectorNo_add hs hi]
  rfl

/-- Release and acquire: what a core has stored in one sector and published, a refreshed core reads (R97, R99, R102). -/
theorem snapLoad_released {d : Nat} (hs : a % 16 + bs.length ≤ 16) (hl : (s.core c).lines = []) (hd : dirtyLine (s.core d) a = none) :
    (snapLoad (refreshCore (publishLines (snapStore s c r a bs 0) c) d) d a bs.length).1 = bs := by
  rw [snapLoad_refreshed, publishLines_snapStore hs hl]
  intro i hi
  rw [dirtyLine_add _ (by omega) hi]
  by_cases hdc : d = c
  · rw [hdc, dirtyLine, publishLines_lines]
    rfl
  · exact ((snapStore_linesWithin hdc).trans (publishLines_linesWithin _ c d)).dirtyLine_none hd

end

/-! What a publication waits for and leaves (R101, R102, R398). -/

theorem storesHeld_eq_false {s : State} {c n : Nat} {scope : Scope} {log : Bool} : storesHeld s c n scope log = false ↔
    ∀ g ∈ slotsOf c, decide ((s.slot g).wait = some .sideLog) = log → storeHeld (s.slot g) n scope = false := by
  simp [storesHeld]

/-- A publication that goes on awaits, from .dev on, no logged store, held for the log's room or not, and at .sys no peer store. -/
theorem publish_eq (s : State) (scope : Scope) : publish s scope =
    let logs := scope != .cl && storesHeld s s.curCore (issueOrder s) scope true
    let bound := s.mine.awaits.getD s.nextId
    let t := published s scope
    if storesHeld s s.curCore (issueOrder s) scope false then waitHere s .stores
    else if !(s.mine.wait = some .stores && (isVictim s s.me || slotDoomed s s.me)) && !logs && (scope = .cl || logDone t.here bound) &&
        (scope != .sys || peersDone t.here bound) then .go () t
    else waitHere (t.modMe (fun u => { u with awaits := if logs then none else some bound })) .publish := by
  cases scope <;> rfl

/-- What holds when a publication goes on. -/
structure PublishGoes (s t : State) (scope : Scope) : Prop where
  state : t = published s scope
  held : storesHeld s s.curCore (issueOrder s) scope false = false
  logged : scope ≠ .cl → storesHeld s s.curCore (issueOrder s) scope true = false
  logs : scope ≠ .cl → logDone (t.core s.curCore) (s.mine.awaits.getD s.nextId) = true
  peers : scope = .sys → peersDone (t.core s.curCore) (s.mine.awaits.getD s.nextId) = true

theorem publishGoes_of_publish {s t : State} {scope : Scope} {u : Unit} (h : publish s scope = .go u t) : PublishGoes s t scope := by
  have ht := publish_go_published h
  have hcore : (published s scope).here = t.core s.curCore := by rw [State.here, (published_publishStep s scope).curCore, ht]
  rw [publish_eq] at h
  dsimp only at h
  rw [hcore] at h
  split at h
  · cases h
  · next hheld =>
    split at h
    · next hgo =>
      simp only [Bool.and_eq_true, Bool.or_eq_true, Bool.not_eq_true', decide_eq_true_eq, bne_iff_ne] at hgo
      obtain ⟨⟨⟨-, hlogged⟩, hlogs⟩, hpeers⟩ := hgo
      exact ⟨ht, by simpa using hheld, fun hs => by simpa [hs] using hlogged, hlogs.resolve_left, fun hs => hpeers.resolve_left (by simp [hs])⟩
    · cases h

section
variable {s t : State} {scope : Scope} (h : PublishGoes s t scope)
include h

theorem PublishGoes.sideLog (hs : scope ≠ .cl) : ∀ e ∈ (t.core s.curCore).sideLog, s.mine.awaits.getD s.nextId ≤ e.id := by
  simpa [logDone] using h.logs hs

theorem PublishGoes.peerOut (hs : scope = .sys) : ∀ e ∈ (t.core s.curCore).peerOut, s.mine.awaits.getD s.nextId ≤ e.1 := by
  simpa [peersDone] using h.peers hs

/-- No store that the publication awaits is held at its core. -/
theorem PublishGoes.storeHeld {g : Nat} (hg : g ∈ slotsOf s.curCore) (hl : scope = .cl → (s.slot g).wait ≠ some .sideLog) :
    storeHeld (s.slot g) (issueOrder s) scope = false := by
  by_cases hw : (s.slot g).wait = some .sideLog
  · exact storesHeld_eq_false.1 (h.logged fun hs => hl hs hw) g hg (decide_eq_true hw)
  · exact storesHeld_eq_false.1 h.held g hg (decide_eq_false hw)

end

/-- What a core has published to host memory, the host sees no longer late (R112). -/
theorem hostSees_others (c : Nat) (e : Byte × List (Nat × Byte)) : ∀ y ∈ (hostSees c e).2, y.1 ≠ c := by
  refine foldl_keeps (P := fun z : Byte × List (Nat × Byte) => ∀ y ∈ z.2, y.1 ≠ c) (fun z x hz => ?_) e.2 (by simp)
  split
  · simp
  · next hx =>
    intro y hy
    rcases List.mem_append.1 hy with hy | hy
    · exact hz y hy
    · exact List.mem_singleton.1 hy ▸ hx

theorem reachHost_hostLag (s : State) (c : Nat) : ∀ x ∈ (reachHost s c).hostLag, ∀ y ∈ x.2.2, y.1 ≠ c := by
  intro x hx
  obtain ⟨x', -, rfl⟩ := List.mem_map.1 (List.mem_filter.1 hx).1
  exact hostSees_others c x'.2

theorem publish_cl_goes {s : State} (h : ∀ g ∈ slotsOf s.curCore, storeHeld (s.slot g) (issueOrder s) .cl = false) (hw : s.mine.wait ≠ some .stores) :
    publish s .cl = .go () s := by
  rw [publish_eq]
  dsimp only
  rw [storesHeld_eq_false.2 fun g hg _ => h g hg, if_neg Bool.false_ne_true, if_pos (by simp [hw])]
  rfl

theorem publish_cl_waits {s : State} (h : ∃ g ∈ slotsOf s.curCore, (s.slot g).wait ≠ some .sideLog ∧ storeHeld (s.slot g) (issueOrder s) .cl = true) :
    publish s .cl = .stop (waitSlot s s.me .stores) := by
  obtain ⟨g, hg, hw, hs⟩ := h
  have hheld : storesHeld s s.curCore (issueOrder s) .cl false = true :=
    eq_true_of_ne_false fun hf => by simpa [hs] using storesHeld_eq_false.1 hf g hg (decide_eq_false hw)
  rw [publish_eq]
  exact if_pos hheld

end Sys2Proof.Machine

open Sys2Proof Sys2Proof.Machine

/-- Settles O20: a load's one moment is the point of `loadPointOf`; what a core has stored stands in its line, a publication writes it, and a refresh leaves no
older point to a load. -/
theorem orderingOfMemory : Obligations.OrderingOfMemory := by
  unfold Obligations.OrderingOfMemory
  refine ⟨fun s c r a bs ext _ h => snapLoad_snapStore h, fun s c a n => ?_, fun s c d r a bs _ hs hl hd => snapLoad_released hs hl hd,
    fun s s1 u a n => ?_⟩
  · have hpoint := le_loadPoint s c a n
    have hrefresh := refresh_le_seenBound (s.core c) a n
    refine ⟨(loadPointOf s c a n).1, loadPoint_le .., by omega, fun i hi => ?_, loadPoint_held s c a n,
      fun i hi => ⟨?_, fun ho hr => ?_, fun ho hh => ?_⟩⟩
    · have := seen_le_seenBound (s.core c) a hi
      omega
    · rw [snapLoad_bytes, List.getElem?_map, List.getElem?_range hi, Option.map_some]
      cases hl : dirtyLine (s.core c) (a + i) with
      | none => rw [snapByte_plain _ hl]; rfl
      | some l => rw [snapByte_line _ hl]; rfl
    · exact snapLoad_notes hi ho (.inr hr)
    · exact ⟨snapLoad_notes hi ho (.inl hh), snapLoad_forgets hi ho hh⟩
  · intro bound k
    refine ⟨fun h => ?_, fun h => ?_, publish_go_published, fun scope g h hg hl => (publishGoes_of_publish h).storeHeld hg hl,
      publish_cl_goes, publish_cl_waits, snapLoad_refreshed⟩
    · have hgo := publishGoes_of_publish h
      obtain rfl := hgo.state
      exact ⟨publishLines_lines .., hgo.sideLog (by decide)⟩
    · have hgo := publishGoes_of_publish h
      obtain rfl := hgo.state
      exact ⟨publishLines_lines .., hgo.sideLog (by decide), hgo.peerOut rfl, reachHost_hostLag (publishLines s s.curCore) s.curCore⟩

end

section
/-! PROOFS. The checks of an access (O21): R90's checks of one element's address in order, an element of a local window, and an access that is held
and goes on. -/

namespace Sys2Proof.Machine

/-! One element. -/

/-- The first defect of one element is its own. -/
@[simp] theorem firstBad_singleton (e : Elem) (f : Elem → Option Word) : firstBad [e] f = f e := by
  cases h : f e <;> simp [firstBad, h]

@[simp] theorem sameSpace_self (a : Word) : sameSpace a a = true := beq_self_eq_true _

theorem windowOf_eq_some {a : Word} {w : Nat} : windowOf a = some w ↔ spaceOf a = .window w := by
  unfold windowOf
  cases spaceOf a <;> simp

theorem heldPlaces_unchecked {t : Slot} (h : t.checked = none) (c g : Nat) (l : List Elem) : heldPlaces t c g l = none := by
  simp [heldPlaces, h]

section
variable {s : State} {e : Elem} {acc : Access} {logs : Bool} (hc : s.mine.checked = none)
include hc

theorem checkAccess_noncanon (hn : spaceOf e.a = .none) : checkAccess s [e] acc logs = .stop (trap s .noncanon e.a) := by
  simp [checkAccess, heldPlaces_unchecked hc, hn, trapRes]

theorem checkAccess_priv (hw : spaceOf e.a = .window 4) (hm : s.mine.mode = false) :
    checkAccess s [e] acc logs = .stop (trap s .priv e.a) := by
  simp [checkAccess, heldPlaces_unchecked hc, windowOf_eq_some, hw, hm, trapRes]

variable (hn : spaceOf e.a ≠ .none) (hp : ¬ (spaceOf e.a = .window 4 ∧ s.mine.mode = false))
include hn hp

theorem checkAccess_misalign (ha : e.a.toNat % e.al ≠ 0) : checkAccess s [e] acc logs = .stop (trap s .misalign e.a) := by
  simp [checkAccess, heldPlaces_unchecked hc, windowOf_eq_some, hn, hp, ha, trapRes]

theorem checkAccess_protLocal (ha : e.a.toNat % e.al = 0) (hz : sizeOk s s.curCore e.a e.n = false) :
    checkAccess s [e] acc logs = .stop (trap s .protLocal e.a) := by
  simp [checkAccess, heldPlaces_unchecked hc, windowOf_eq_some, hn, hp, ha, hz, trapRes]

end

/-! An element of a local window. -/

section
variable {s : State} {e : Elem} {w : Nat} (hw : spaceOf e.a = .window w)
include hw

theorem walks_window (c : Nat) : walks s c [e] = false := by simp [walks, hw]
theorem unrouted_window : unrouted s e.a = false := by simp [unrouted, hw]

theorem placeElems_window (c g : Nat) (user : Bool) (acc : Access) :
    placeElems s c g user acc [e] = ([(.sram (sramLoc c g e), .ok 0 0 0)], s) := by
  simp [placeElems, hw]

/-- Scalar loads, stores and atomics go to every window but the lane store (R73). -/
theorem opAllowed_window {acc : Access} (ha : acc = .load ∨ acc = .store ∨ acc = .atomic) (h1 : w ≠ 1) (k : Core) (loc : Nat) :
    opAllowed k acc e (.sram loc) = true := by
  rcases ha with rfl | rfl | rfl <;> simpa [opAllowed, windowOf_eq_some, hw] using h1

/-- In supervisor mode no protection is looked at (R80), and an SRAM needs no translation. -/
theorem checkAccess_window {acc : Access} (ha : acc = .load ∨ acc = .store ∨ acc = .atomic) (h1 : w ≠ 1) (hal : e.a.toNat % e.al = 0)
    (hz : sizeOk s s.curCore e.a e.n = true) (hm : s.mine.mode = true) (hc : s.mine.checked = none) (logs : Bool) :
    checkAccess s [e] acc logs = .go [.sram (sramLoc s.curCore s.me e)] s := by
  simp [checkAccess, heldPlaces_unchecked hc, hw, hal, hz, hm, walks_window hw, unrouted_window hw, placeElems_window hw,
    opAllowed_window hw ha h1, Trans.isFault, behindLog]

end

/-! An access that is held (R93). -/

theorem boardHolds_sram {s : State} {c loc n : Nat} {b : Board} {r : Nat × Nat} (hb : b ∈ (s.core c).board) (hr : r ∈ b.ranges) (h1 : loc ≤ r.2)
    (h2 : r.1 < loc + n) : boardHolds s c [(.sram loc, n)] = true := by
  simp only [boardHolds, List.any_cons, List.any_nil, Bool.or_false, List.any_eq_true]
  exact ⟨b, hb, r, hr, decide_eq_true ⟨h1, h2⟩⟩

theorem holdAccess_board {s : State} {zs : List (Place × Nat)} (h : boardHolds s s.curCore zs = true) (writes : Bool) :
    holdAccess s zs writes = holdIssued s (zs.map (fun z => z.1)) .board := by
  simp [holdAccess, h]

/-- Places that are settled, as an access goes on at them: no fault is met. -/
def settledPlaces (ps : List Place) : List (Place × Trans) := ps.map (fun p => (p, .ok 0 0 0))

theorem settledPlaces_fst (ps : List Place) : (settledPlaces ps).map (fun q => q.1) = ps := by
  simp [settledPlaces, Function.comp_def]

theorem settledPlaces_met {ps : List Place} {l : List Elem} {z : Elem × Place × Trans} (h : z ∈ l.zip (settledPlaces ps)) : z.2.2 = .ok 0 0 0 := by
  obtain ⟨p, -, he⟩ := List.mem_map.1 (List.of_mem_zip h).2
  rw [← he]

/-- Places that are settled are not translated again. -/
theorem resettle_settled (s : State) (c g : Nat) (user : Bool) (acc : Access) {l : List Elem} {ps : List Place} (hl : ps.length = l.length)
    (h : ∀ p ∈ ps, p.unsettled = false) : resettle s c g user acc (l.zip ps) = (settledPlaces ps, s) := by
  induction l generalizing ps with
  | nil =>
    obtain rfl := List.eq_nil_of_length_eq_zero hl
    rfl
  | cons e l ih =>
    obtain ⟨p, ps, rfl⟩ := List.exists_cons_of_length_eq_add_one hl
    obtain ⟨hp, hps⟩ := List.forall_mem_cons.1 h
    rw [List.zip_cons_cons]
    cases p with
    | logged va why => cases hp
    | _ => simp [resettle, ih (Nat.succ.inj hl) hps, settledPlaces]

theorem behindLog_settled (logs : Bool) {ps : List Place} (h : ∀ p ∈ ps, p.unsettled = false) : behindLog logs ps = false := by
  refine Bool.and_eq_false_iff.2 (.inr (List.any_eq_false.2 fun p hp => ?_))
  cases p with
  | logged va why => cases h _ hp
  | _ => simp

/-- A held access all of whose places are settled goes on there, nothing checked again. -/
theorem goOnHeld_settled (s : State) {l : List Elem} {ps : List Place} (acc : Access) (logs : Bool) (hl : ps.length = l.length)
    (hp : ∀ p ∈ ps, p.unsettled = false) : goOnHeld s l ps acc logs = .go ps (s.modMe (fun t => { t with checked := none })) := by
  have hnone : (l.zip ps).filter (fun z => z.2.unsettled) = [] :=
    List.filter_eq_nil_iff.2 fun z hz => by simp [hp _ (List.of_mem_zip hz).2]
  have hperm : (l.zip (settledPlaces ps)).findSome? (fun z => if z.2.2 = .perm then some z.1.a else none) = none :=
    List.findSome?_eq_none_iff.2 fun z hz => by simp [settledPlaces_met hz]
  have hattr : (ps.zip (l.zip (settledPlaces ps))).findSome? (fun z =>
      if !z.1.unsettled || z.2.2.2.isFault || opAllowed (s.core s.curCore) acc z.2.1 z.2.2.1 then none else some z.2.1.a) = none :=
    List.findSome?_eq_none_iff.2 fun z hz => by simp [hp _ (List.of_mem_zip hz).1]
  have hfault : (l.zip (settledPlaces ps)).find? (fun z => z.2.2.isFault) = none :=
    List.find?_eq_none.2 fun z hz => by simp [settledPlaces_met hz, Trans.isFault]
  simp only [goOnHeld, hnone, walks, List.map_nil, List.any_nil, Bool.and_false, resettle_settled s _ _ _ _ hl hp, settledPlaces_fst,
    behindLog_settled logs hp, hperm, hattr, hfault]
  cases logs <;> rfl

theorem checkAccess_held {s : State} {l : List Elem} {ps : List Place} (acc : Access) (logs : Bool) (hc : s.mine.checked = some ps)
    (hl : ps.length = l.length) (hp : ∀ p ∈ ps, p.unsettled = false) (hf : ∀ z ∈ l.zip ps, placeFits s.curCore s.me z.1 z.2 = true) :
    checkAccess s l acc logs = .go ps (s.modMe (fun t => { t with checked := none })) := by
  have hheld : heldPlaces s.mine s.curCore s.me l = some ps := by
    simp only [heldPlaces, hc, List.all_eq_true.2 hf, hl, decide_true, Bool.and_self, if_true]
  simp only [checkAccess, hheld, goOnHeld_settled s acc logs hl hp]

end Sys2Proof.Machine

open Sys2Proof Sys2Proof.Machine

/-- Settles O21: R90's checks of one element one by one; an SRAM's element in supervisor mode; the scoreboard's wait, and the held access that goes on. -/
theorem accessChecks : Obligations.AccessChecks := by
  unfold Obligations.AccessChecks
  refine ⟨fun s e acc logs hc => ⟨checkAccess_noncanon hc, checkAccess_priv hc, fun hn hp ha => ?_, fun hn hp ha hz => ?_⟩,
    fun s a n w acc logs ha hw h1 hal hz hm hc => checkAccess_window hw ha h1 hal hz hm hc logs,
    fun s loc n writes b r hb hr h1 h2 => holdAccess_board (boardHolds_sram hb hr h1 h2) writes,
    fun s l acc logs ps hc hl hp hf => checkAccess_held acc logs hc hl hp hf⟩
  · exact checkAccess_misalign hc hn (by simpa using hp) ha
  · exact checkAccess_protLocal hc hn (by simpa using hp) ha hz

end

section
/-! PROOFS. Tagged-word instructions (O23): what a request does at its home slice, what performing one does to the word, and the events that end a wait. -/

namespace Sys2Proof.Machine

/-! A request at its home slice (R190, R191). -/

section
variable {s : State} {g naks : Nat} {w : TagOp}

theorem tagRequest_annulled (hk : annulKnown s (s.slot g).rtag (homeDie w.pa) = true) : tagRequest s g w naks = waitSlot s g .turn := if_pos hk

variable (hk : annulKnown s (s.slot g).rtag (homeDie w.pa) = false)
include hk

theorem tagRequest_performed (hr : tagReady w.op (s.full w.pa) = true) : tagRequest s g w naks =
    let z := tagPerform s (coreOf g) w
    tagFinish (settle z.2.2 w.pa) g w z.1 z.2.1 := by
  simp [tagRequest, hk, hr]

variable (hr : tagReady w.op (s.full w.pa) = false)
include hr

theorem tagRequest_deferred (hn : (s.deferred.filter (fun d => d.slice = homeSlice w.pa)).length < 64) : tagRequest s g w naks =
    waitSlot { s with deferred := s.deferred ++ [{ slice := homeSlice w.pa, w := w, g := g }] } g (.tagged w true naks 0) := by
  simp [tagRequest, hk, hr, hn]

theorem tagRequest_nacked (hn : 64 ≤ (s.deferred.filter (fun d => d.slice = homeSlice w.pa)).length) : tagRequest s g w naks =
    waitSlot s g (.tagged w false (naks + 1) (s.time + nsOf (backoff (naks + 1)))) := by
  simp [tagRequest, hk, hr, Nat.not_lt.2 hn]

end

theorem backoff_one : backoff 1 = 16 := rfl

theorem backoff_doubles {n : Nat} (hn : 1 ≤ n) : backoff (n + 1) = min 4096 (2 * backoff n) := by
  obtain ⟨k, rfl⟩ := Nat.exists_eq_add_of_le' hn
  simp only [backoff, Nat.add_sub_cancel, Nat.pow_succ]
  omega

/-- With no deferral on the word, nothing more is performed on it. -/
theorem settle_alone {s : State} {pa : Nat} (h : ∀ d ∈ s.deferred, d.w.pa ≠ pa) : settle s pa = s := by
  have hf : s.deferred.find? (fun d => d.w.pa = pa && tagReady d.w.op (s.full pa) && !annulKnown s (s.slot d.g).rtag (d.slice / 128)) = none :=
    List.find?_eq_none.2 fun d hd => by simp [h d hd]
  unfold settle
  cases s.deferred.length with
  | zero => rfl
  | succ n => simp only [settleTag, hf]

/-! What performing an operation does (R189). -/

theorem mem_addNat (n : Nat) (l : List Nat) : n ∈ addNat n l := by
  induction l with
  | nil => simp [addNat]
  | cons a l ih =>
    unfold addNat
    split
    · exact List.mem_cons_of_mem _ ih
    · split
      · next h => simp [h]
      · exact List.mem_cons_self

theorem full_setTag_true (s : State) (pa : Nat) : (s.setTag pa true).full pa = true := by simp [State.full, State.setTag, mem_addNat]

/-- The word at an address, written and filled by core c. -/
def fillWord (s : State) (c pa : Nat) (v : Word) : State := (publishCells s (cellsAt pa (leBytes v.toNat 8)) 0 (some c) none).setTag pa true

section
variable (s : State) (c pa : Nat) (v : Word)

theorem fillWord_mem : (fillWord s c pa v).mem = s.mem.writes (cellsAt pa (leBytes v.toNat 8)) := publishCells_mem ..
theorem fillWord_full : (fillWord s c pa v).full pa = true := full_setTag_true ..
theorem fillWord_publishes : PublishStep s (publishCells s (cellsAt pa (leBytes v.toNat 8)) 0 (some c) none) := publishCells_publishStep ..
theorem fillWord_slot (g : Nat) : (fillWord s c pa v).slot g = s.slot g := slot_of_slots (fillWord_publishes s c pa v).slots g
theorem fillWord_me : (fillWord s c pa v).me = s.me := (fillWord_publishes s c pa v).me
theorem fillWord_deferred : (fillWord s c pa v).deferred = s.deferred := (congrArg State.deferred (fillWord_publishes s c pa v)).trans rfl

theorem fillWord_read64 : read64 (fillWord s c pa v).mem pa = v := by
  have hv : v.toNat % 256 ^ 8 = v.toNat := Nat.mod_eq_of_lt v.isLt
  rw [read64, fillWord_mem, Memory.readN_writes_leBytes, leNat_leBytes, hv]
  simp [wd]

theorem fillWord_memorySame : MemorySame s (fillWord s c pa v) pa 8 := fun x hx => by
  rw [fillWord_mem, Memory.read_writes_cellsAt_outside (by simpa using hx)]

end

theorem wd_b2n (b : Bool) : wd (b2n b) = if b = true then 1 else 0 := by cases b <;> rfl

section
variable {s : State} {c : Nat} {w : TagOp}

theorem tagPerform_fill (ho : w.op = 2 ∨ w.op = 3) : tagPerform s c w = (0, false, fillWord s c w.pa w.value) := by
  rcases ho with h | h <;> simp [tagPerform, h, fillWord]

theorem tagPerform_tag (ho : w.op = 4) : tagPerform s c w = (wd (b2n (s.full w.pa)), false, s) := by simp [tagPerform, ho]

variable (hb : ∀ k, k < 8 → s.bad.contains (w.pa + k) = false)
include hb

/-- No byte of the word carries an error. -/
theorem word_errorFree : (List.range 8).any (fun i => s.bad.contains (w.pa + i)) = false :=
  List.any_eq_false.2 fun i hi => by simpa using hb i (List.mem_range.1 hi)

theorem tagPerform_load (ho : w.op = 0) : tagPerform s c w = (read64 s.mem w.pa, false, s) := by simp only [tagPerform, ho, word_errorFree hb]; rfl
theorem tagPerform_take (ho : w.op = 1) : tagPerform s c w = (read64 s.mem w.pa, false, s.setTag w.pa false) := by
  simp only [tagPerform, ho, word_errorFree hb]; rfl

end

/-! The instructions (R189). -/

theorem markDirty_logged {s : State} {c va pa : Nat} {leaf ext : Word} (h : needsDirty s c va leaf = false) :
    markDirty s c (.global va pa leaf ext) = s := by
  simp [markDirty, h]

section
variable {s s1 s3 : State} {i : Instr} {k : Issue} {op va pa : Nat} {rd : RegField} {x y leaf ext : Word}

/-- A tagged-word instruction whose access passes is its request (R189). -/
theorem tagOp_load (hi : issue i k s = .go [x] s1) (ha : LoadAccesses s1 [{ a := x, n := 8 }] .tagLoad [.global va pa leaf ext] s3) :
    tagOp i k op rd .tagLoad s = .next (tagRequest s3 s3.me { op := op, rd := rd.toNat, addr := x, pa := pa, value := 0 } 0) := by
  obtain ⟨s0, hc, hh⟩ := ha
  replace hh : holdLoad s0 [(placeOf [.global va pa leaf ext], 8)] = .go () s3 := hh
  have hload : (Access.tagLoad == Access.tagStore) = false := rfl
  simp only [tagOp, hi, Res.bnd_go, List.getD_cons_zero, hc, hload, Bool.false_eq_true, if_false, hh]
  rfl

theorem tagOp_store (hi : issue i k s = .go [x, y] s1) (ha : Accesses s1 [{ a := x, n := 8 }] .tagStore false true [.global va pa leaf ext] s3)
    (hd : needsDirty s3 s3.curCore va leaf = false) :
    tagOp i k op rd .tagStore s = .next (tagRequest s3 s3.me { op := op, rd := rd.toNat, addr := x, pa := pa, value := y } 0) := by
  obtain ⟨s0, hc, hh⟩ := ha
  replace hh : holdAccess s0 [(placeOf [.global va pa leaf ext], 8)] true = .go () s3 := hh
  have hstore : (Access.tagStore == Access.tagStore) = true := rfl
  have hmark : markDirty s3 s3.curCore (placeOf [.global va pa leaf ext]) = s3 := markDirty_logged hd
  simp only [tagOp, hi, Res.bnd_go, List.getD_cons_zero, hc, hstore, if_true, hh, hmark]
  rfl

end

section
variable {s : State} {g naks : Nat} {w : TagOp} (hk : annulKnown s (s.slot g).rtag (homeDie w.pa) = false)
  (hd : ∀ d ∈ s.deferred, d.w.pa ≠ w.pa)
include hk hd

/-- A request that fills its word, performed where nothing waits for the word. -/
theorem tagRequest_fills (ho : w.op = 2 ∨ w.op = 3) (hr : tagReady w.op (s.full w.pa) = true) : tagRequest s g w naks =
    jumpTo (fillWord s (coreOf g) w.pa w.value) g ((s.slot g).pc + 4) := by
  have hs : settle (fillWord s (coreOf g) w.pa w.value) w.pa = fillWord s (coreOf g) w.pa w.value := settle_alone (by rwa [fillWord_deferred])
  simp only [tagRequest_performed hk hr, tagPerform_fill ho, hs, tagFinish, if_pos ho, writeBack, fillWord_slot]

theorem tagRequest_tag (ho : w.op = 4) : tagRequest s g w naks = writeBack s g [(w.rd, wd (b2n (s.full w.pa)), false)] := by
  have hr : tagReady w.op (s.full w.pa) = true := by rw [ho]; rfl
  simp [tagRequest_performed hk hr, tagPerform_tag ho, settle_alone hd, tagFinish, ho]

variable (hf : s.full w.pa = true) (hb : ∀ k, k < 8 → s.bad.contains (w.pa + k) = false)
include hf hb

theorem tagRequest_loads (ho : w.op = 0) : tagRequest s g w naks = writeBack s g [(w.rd, read64 s.mem w.pa, false)] := by
  have hr : tagReady w.op (s.full w.pa) = true := by rw [ho]; exact hf
  simp [tagRequest_performed hk hr, tagPerform_load hb ho, settle_alone hd, tagFinish, ho]

theorem tagRequest_takes (ho : w.op = 1) : tagRequest s g w naks = writeBack (s.setTag w.pa false) g [(w.rd, read64 s.mem w.pa, false)] := by
  have hr : tagReady w.op (s.full w.pa) = true := by rw [ho]; exact hf
  have hs : settle (s.setTag w.pa false) w.pa = s.setTag w.pa false := settle_alone hd
  simp [tagRequest_performed hk hr, tagPerform_take hb ho, hs, tagFinish, ho]

end

/-- A filled word and its slot, which goes on. -/
theorem fillWord_goesOn (s : State) (c pa : Nat) (v : Word) :
    let t := jumpTo (fillWord s c pa v) s.me (s.mine.pc + 4)
    t.full pa = true ∧ read64 t.mem pa = v ∧ t.mine.pc = s.mine.pc + 4 ∧ MemorySame s t pa 8 := by
  refine ⟨fillWord_full .., fillWord_read64 .., ?_, fillWord_memorySame s c pa v⟩
  have hme : (jumpTo (fillWord s c pa v) s.me (s.mine.pc + 4)).me = s.me := fillWord_me ..
  rw [State.mine_eq, hme, jumpTo_slot]

/-! The events (R190-R193). -/

theorem eventOf_due {ok : Bool} (h : ok = true) (f : State → State) (s : State) : eventOf ok f s = .next (f s) := if_pos h

section
variable {s : State} {g n r : Nat} {w : TagOp}

section
variable (hg : g < 32768) (hw : (s.slot g).wait = some (.tagged w false n r))
include hg hw

theorem exec_twBackoffExpiry_waits (h : s.time < r ∨ isVictim s g = true ∨ resendCapped s g = true) : exec (.twBackoffExpiry g) s = .next s := by
  have hn : ¬ (decide (r ≤ s.time) && !isVictim s g && !resendCapped s g) = true := by
    rcases h with h | h | h
    · simp [Nat.not_le.2 h]
    · simp [h]
    · simp [h]
  change execTwBackoffExpiry g s = _
  rw [execTwBackoffExpiry, eventOf_due (decide_eq_true hg)]
  simp only [hw, if_neg hn]

theorem exec_twBackoffExpiry_resends (hr : r ≤ s.time) (hv : isVictim s g = false) (hc : resendCapped s g = false) :
    exec (.twBackoffExpiry g) s = .next (tagResend s g w n) := by
  change execTwBackoffExpiry g s = _
  rw [execTwBackoffExpiry, eventOf_due (decide_eq_true hg)]
  simp only [hw, hr, hv, hc, decide_true, Bool.not_false, Bool.and_self, if_true]

end

theorem tagResend_current (h : w.stale = false) : tagResend s g w n = tagRequest s g w n := by simp [tagResend, h]

/-- Where its translation was invalidated, a request goes to the address as it translates now (R363). -/
theorem tagResend_stale {pa : Nat} {leaf ext : Word} (h : w.stale = true)
    (ht : translate s (coreOf g) (fld w.addr 0 56) (if w.op = 2 ∨ w.op = 3 then .tagStore else .tagLoad) (!(s.slot g).mode) = (.ok pa leaf ext, s))
    (ha : atsTranslate s pa = (true, s)) (hl : leafTg leaf = true) : tagResend s g w n = tagRequest s g { w with pa := pa, stale := false } n := by
  simp only [tagResend, h, ht, ha, hl]
  rfl

end

/-! A result that returns (R190, R138). -/

theorem getLsbD_markBit (m : BitVec 32) {r : Nat} (hr : r < 32) (on : Bool) : (markBit m r on).getLsbD r = on := by
  have hone : (BitVec.ofNat 32 (2 ^ r)).getLsbD r = true := by rw [BitVec.getLsbD_ofNat, Nat.testBit_two_pow_self, decide_eq_true hr]; rfl
  cases on
  · simp only [markBit, Bool.false_eq_true, if_false, BitVec.getLsbD_and, BitVec.getLsbD_not, hone, Bool.not_true, Bool.and_false]
  · simp only [markBit, if_true, BitVec.getLsbD_or, hone, Bool.or_true]

theorem Slot.poisoned_eq (t : Slot) (r : Nat) : t.poisoned r = t.xPoison.getLsbD r := (Nat.testBit_eq_decide_div_mod_eq ..).symm

theorem Slot.poisoned_setX (t : Slot) {r : Nat} (hr : r < 32) (h0 : r ≠ 0) (v : Word) (bad : Bool) : (t.setX r v bad).poisoned r = bad := by
  rw [Slot.poisoned_eq, Slot.setX, if_neg h0]
  exact getLsbD_markBit _ hr bad

/-- A value that returns to a register ends its instruction. -/
theorem writeBack_register (s : State) (g : Nat) {rd : Nat} (hr : rd < 32) (v : Word) (bad : Bool) :
    writeBack s g [(rd, v, bad)] = jumpTo (s.modSlot g (fun t => t.setX rd v bad)) g ((s.slot g).pc + 4) := by
  have hl : lateBlocked s g rd v = false := by simp [lateBlocked, Nat.not_le.2 hr]
  simp [writeBack, hl, writeLoaded, Nat.not_le.2 hr]

section
variable {s : State} {g : Nat} {w : TagOp} {v : Word} {bad : Bool}

theorem exec_taggedOpComplete (hg : g < 32768) (hw : (s.slot g).wait = some (.tagAnswer w v bad)) :
    exec (.taggedOpComplete g) s = .next (tagFinish s g w v bad) := by
  change execTaggedOpComplete g s = _
  rw [execTaggedOpComplete, eventOf_due (decide_eq_true hg)]
  simp only [hw]

/-- What an answer's slot does: it goes on with the result, if the operation has one, in its register. -/
theorem tagFinish_goesOn (hr : w.rd < 32) :
    let u := tagFinish s g w v bad
    SlotStep s u g ∧ (u.slot g).pc = (s.slot g).pc + 4 ∧ (u.slot g).wait = none ∧ (u.slot g).state = .ready ∧
      (w.op ≠ 2 → w.op ≠ 3 → w.rd ≠ 0 → (u.slot g).xr w.rd = v ∧ (u.slot g).poisoned w.rd = bad) := by
  dsimp only [tagFinish]
  by_cases ho : w.op = 2 ∨ w.op = 3
  · rw [if_pos ho, writeBack, jumpTo_slot]
    exact ⟨jumpTo_step .., rfl, rfl, rfl, fun h2 h3 => absurd ho (by simp [h2, h3])⟩
  · rw [if_neg ho, writeBack_register s g hr, jumpTo_slot]
    refine ⟨(modSlot_step ..).trans (jumpTo_step ..), rfl, rfl, rfl, fun _ _ h0 => ?_⟩
    rw [State.modSlot_eq, State.slot_setSlot, if_pos rfl]
    exact ⟨(Slot.xr_setX ..).trans (if_pos ⟨rfl, h0⟩), Slot.poisoned_setX _ hr h0 v bad⟩

end

/-! The end of a wait: WAITLIM and withdrawals (R192, R193). -/

section
variable {s : State} {g : Nat} {w : TagOp}

theorem OthersSame.post {t : State} (h : OthersSame s t g) (e : Event) : OthersSame s (t.post e) g := h

theorem exec_waitLimitExpiry (hg : g < 32768) : exec (.waitLimitExpiry g) s = .next (waitLimit s g) :=
  eventOf_due (decide_eq_true hg) (waitLimit · g) s

theorem exec_withdrawalAnswer (hg : g < 32768) : exec (.withdrawalAnswer g) s = .next (withdrawal s g) :=
  eventOf_due (decide_eq_true hg) (withdrawal · g) s

section
variable {n r b : Nat} {x : Word} (hl : (s.slot g).waitlim ≠ 0#32 ∧ (s.slot g).waitlim.toNat ≤ s.waited (s.slot g))
include hl

theorem waitLimit_deferred (hw : (s.slot g).wait = some (.tagged w true n r)) : waitLimit s g =
    (s.modSlot g (fun t => { t with wait := some (.withdrawn w .limit) })).post (.withdrawalAnswer g) := by
  simp [waitLimit, hl, hw]

theorem waitLimit_nacked (hw : (s.slot g).wait = some (.tagged w false n r)) : waitLimit s g =
    trapAt s g .waitlimit (s.slot g).pc w.addr := by
  simp [waitLimit, hl, hw]

theorem waitLimit_capped (hw : (s.slot g).wait = some .cap) (hx : governedHeld (s.slot g) = some x) : waitLimit s g =
    trapAt s g .waitlimit (s.slot g).pc x := by
  simp [waitLimit, hl, hw, hx]

theorem waitLimit_barrier (hw : (s.slot g).wait = some (.barrier b)) (hs : (s.slot g).state = .waiting) : waitLimit s g =
    trapAt s g .waitlimit (s.slot g).pc (wd b) := by
  simp [waitLimit, hl, hw, hs]

end

/-- A withdrawal's state: the slot's deferrals are gone. -/
def withoutDeferrals (s : State) (g : Nat) : State := { s with deferred := s.deferred.filter (fun d => d.g != g) }

theorem withdrawal_limit (hw : (s.slot g).wait = some (.withdrawn w .limit)) : withdrawal s g =
    trapAt (withoutDeferrals s g) g .waitlimit (s.slot g).pc w.addr := by
  simp only [withdrawal, hw]
  rfl

theorem withdrawal_again {why : Withdrawal} (hw : (s.slot g).wait = some (.withdrawn w why)) (hy : why ≠ .limit) : withdrawal s g =
    (undoIssue (withoutDeferrals s g) g).modSlot g (fun t => { t with wait := none, state := .ready, inst := none }) := by
  simp only [withdrawal, hw]
  cases why with
  | limit => exact absurd rfl hy
  | _ => rfl

theorem withdrawal_performed {v : Word} {bad : Bool} (hw : (s.slot g).wait = some (.tagAnswer w v bad)) : withdrawal s g = s := by
  simp only [withdrawal, hw]

/-- A slot whose withdrawal was not for WAITLIM lets its instruction issue again, with nothing performed. -/
theorem withdrawal_reissues {why : Withdrawal} (hw : (s.slot g).wait = some (.withdrawn w why)) (hy : why ≠ .limit) :
    let u := withdrawal s g
    SlotStep (withoutDeferrals s g) u g ∧ (u.slot g).wait = none ∧ (u.slot g).state = .ready ∧ (u.slot g).pc = (s.slot g).pc := by
  rw [withdrawal_again hw hy]
  refine ⟨(undoIssue_step ..).trans (modSlot_step ..), ?_⟩
  rw [State.modSlot_eq, State.slot_setSlot, if_pos rfl, undoIssue_slot]
  exact ⟨rfl, rfl, rfl⟩

end

end Sys2Proof.Machine

open Sys2Proof Sys2Proof.Machine

/-- Settles O23: a request at its home slice is performed, deferred, sent back or dropped, and each event ends its wait. -/
theorem taggedWords : Obligations.TaggedWords := by
  unfold Obligations.TaggedWords
  refine ⟨fun s s1 s3 rd a b x y va pa leaf ext => ?_, fun s g naks w hk => tagRequest_annulled hk, fun s g naks w hk hr => ?_,
    fun s g n r b w v bad why hg => ?_⟩
  · intro p ld st hd hb hn hk
    have hfilled := fillWord_goesOn s3 (coreOf s3.me) pa y
    refine ⟨fun ⟨hi, ha⟩ hf => ?_, fun ⟨hi, ha⟩ hf => ?_, fun ⟨hi, ha⟩ => ?_, fun ⟨hi, ha⟩ hf => ⟨_, ?_, hfilled⟩,
      fun ⟨hi, ha⟩ => ⟨_, ?_, hfilled⟩⟩
    · exact (tagOp_load (hi.issue_eq rfl) ha).trans (congrArg _ (tagRequest_loads hk hd hf hb rfl))
    · exact (tagOp_load (hi.issue_eq rfl) ha).trans (congrArg _ (tagRequest_takes hk hd hf hb rfl))
    · rw [← wd_b2n]
      exact (tagOp_load (hi.issue_eq rfl) ha).trans (congrArg _ (tagRequest_tag hk hd rfl))
    · exact (tagOp_store (hi.issue_eq rfl) ha hn).trans (congrArg _ (tagRequest_fills hk hd (.inl rfl) (by simp [tagReady, hf])))
    · exact (tagOp_store (hi.issue_eq rfl) ha hn).trans (congrArg _ (tagRequest_fills hk hd (.inr rfl) rfl))
  · intro here
    refine ⟨fun h => ?_, fun h => ?_, backoff_one, fun n => backoff_doubles⟩
    · rw [tagRequest_deferred hk hr h]
      exact ⟨by simp [waitSlot], rfl, rfl, rfl⟩
    · rw [tagRequest_nacked hk hr h]
      exact ⟨rfl, rfl, by simp [waitSlot]⟩
  · intro t freed due
    refine ⟨fun hw => ⟨exec_twBackoffExpiry_waits hg hw, fun hr hv hc => ?_⟩, fun hw hrd => ?_, fun hl => ?_, fun hw => ?_, fun hw hy => ?_,
      fun hw => ?_⟩
    · rw [exec_twBackoffExpiry_resends hg hw hr hv hc]
      exact ⟨fun h => congrArg _ (tagResend_current h), fun pa leaf ext h ht ha hl => congrArg _ (tagResend_stale h ht ha hl)⟩
    · obtain ⟨hstep, hpc, hwait, hstate, hreg⟩ := tagFinish_goesOn (s := s) (g := g) (v := v) (bad := bad) hrd
      exact ⟨_, exec_taggedOpComplete hg hw, hpc, hwait, hstate, hstep.mem, hstep.tags, hstep.othersSame, hreg⟩
    · rw [exec_waitLimitExpiry hg]
      refine ⟨fun hw => ⟨_, rfl, ?_⟩, fun hw => congrArg _ (waitLimit_nacked hl hw), fun x hw hx => congrArg _ (waitLimit_capped hl hw hx),
        fun hw hs => congrArg _ (waitLimit_barrier hl hw hs)⟩
      rw [waitLimit_deferred hl hw]
      exact ⟨by simp, by simp [State.post], rfl, rfl, ((OthersSame.refl s g).modSlot _).post _⟩
    · exact (exec_withdrawalAnswer hg).trans (congrArg _ (withdrawal_limit hw))
    · obtain ⟨hstep, hwait, hstate, hpc⟩ := withdrawal_reissues hw hy
      exact ⟨_, exec_withdrawalAnswer hg, hwait, hstate, hpc, by rw [hstep.rest]; rfl, hstep.mem, hstep.tags, hstep.othersSame⟩
    · exact (exec_withdrawalAnswer hg).trans (congrArg _ (withdrawal_performed hw))

end

section
/-! PROOFS. The arithmetic instructions (O13): how an instruction of one, two or no sources answers, and the arithmetic of each table's results. -/

namespace Sys2Proof.Machine

/-! How a scalar instruction answers; `e` is the function that performs `i`. -/

section
variable {i : Instr} {s s1 : State} {rd a b : RegField} {x y v : Word}

theorem answers_alu2 {f : Word → Word → Word} (e : State → Out) (hk : needs i s.mine = some { srcs := [a, b], dst := some rd })
    (he : exec i s = e s) (hf : e s = alu2 i rd a b f s) (hv : f x y = v) (hi : Issued i s [x, y] s1) : Answers i s s1 s1 rd v := by
  intro s3 hw
  rw [hi.exec_eq hk (he.trans hf), List.getD_cons_zero, List.getD_cons_succ, List.getD_cons_zero, hv, outcome_finish_written hw]

theorem answers_alu1 {f : Word → Word} (e : State → Out) (hk : needs i s.mine = some { srcs := [a], dst := some rd })
    (he : exec i s = e s) (hf : e s = alu1 i rd a f s) (hv : f x = v) (hi : Issued i s [x] s1) : Answers i s s1 s1 rd v := by
  intro s3 hw
  rw [hi.exec_eq hk (he.trans hf), List.getD_cons_zero, hv, outcome_finish_written hw]

theorem answers_alu0 {f : Slot → Word} (e : State → Out) (hk : needs i s.mine = some { dst := some rd })
    (he : exec i s = e s) (hf : e s = alu0 i rd f s) (hv : f s1.mine = v) (hi : Issued i s [] s1) : Answers i s s1 s1 rd v := by
  intro s3 hw
  rw [hi.exec_eq hk (he.trans hf), hv, outcome_finish_written hw]

end

/-! The lesser and the greater of two words (R164). -/

theorem ite_slt_min (x y : Word) : (if y.slt x then y else x) = if x.toInt ≤ y.toInt then x else y := by
  simp only [BitVec.slt_iff_toInt_lt, ← Int.not_le, ite_not]

theorem ite_slt_max (x y : Word) : (if x.slt y then y else x) = if x.toInt ≤ y.toInt then y else x := by
  simp only [BitVec.slt_iff_toInt_lt]
  rcases Int.lt_trichotomy x.toInt y.toInt with h | h | h
  · rw [if_pos h, if_pos (Int.le_of_lt h)]
  · rw [BitVec.eq_of_toInt_eq h, ite_self, ite_self]
  · rw [if_neg (Int.lt_asymm h), if_neg (Int.not_le.2 h)]

theorem ite_ult_min (x y : Word) : (if y.ult x then y else x) = if x.toNat ≤ y.toNat then x else y := by
  simp only [BitVec.ult_iff_lt, BitVec.lt_def, ← Nat.not_le, ite_not]

theorem ite_ult_max (x y : Word) : (if x.ult y then y else x) = if x.toNat ≤ y.toNat then y else x := by
  simp only [BitVec.ult_iff_lt, BitVec.lt_def]
  rcases Nat.lt_trichotomy x.toNat y.toNat with h | h | h
  · rw [if_pos h, if_pos (Nat.le_of_lt h)]
  · rw [BitVec.eq_of_toNat_eq h, ite_self, ite_self]
  · rw [if_neg (Nat.lt_asymm h), if_neg (Nat.not_le.2 h)]

/-! Shifts and rotates as products and quotients by powers of two (R166, R171). -/

theorem shiftLeft_eq_wd (x : Word) (k : Nat) : x <<< k = wd (x.toNat * 2 ^ k) := by
  apply BitVec.eq_of_toNat_eq
  simp [wd, Nat.shiftLeft_eq]

theorem ushiftRight_eq_wd (x : Word) (k : Nat) : x >>> k = wd (x.toNat / 2 ^ k) := by
  rw [wd, ← Nat.shiftRight_eq_div_pow, ← BitVec.toNat_ushiftRight, BitVec.ofNat_toNat, BitVec.setWidth_eq]

theorem sshiftRight_eq_ofInt (x : Word) (k : Nat) : x.sshiftRight k = BitVec.ofInt 64 (x.toInt / 2 ^ k) := by
  rw [BitVec.sshiftRight, Int.shiftRight_eq_div_pow]
  simp

/-- The bits that leave on the right come in on the left, where none of the others are. -/
theorem rotateRight_eq_wd (x : Word) {k : Nat} (h : k < 64) : x.rotateRight k = wd (x.toNat / 2 ^ k + x.toNat * 2 ^ (64 - k)) := by
  have hapart : x >>> k &&& x <<< (64 - k) = 0#64 := by
    ext n hn
    by_cases hk : n < 64 - k
    · simp [hk]
    · simp [BitVec.getLsbD_of_ge x (k + n) (by omega)]
  calc x.rotateRight k
    _ = x >>> k ||| x <<< (64 - k) := by rw [BitVec.rotateRight_def, Nat.mod_eq_of_lt h]
    _ = x >>> k + x <<< (64 - k) := (BitVec.add_eq_or_of_and_eq_zero _ _ hapart).symm
    _ = wd (x.toNat / 2 ^ k) + wd (x.toNat * 2 ^ (64 - k)) := by rw [ushiftRight_eq_wd, shiftLeft_eq_wd]
    _ = wd (x.toNat / 2 ^ k + x.toNat * 2 ^ (64 - k)) := (BitVec.ofNat_add ..).symm

theorem signExtend_shiftLeft (n : BitVec 19) : sx n <<< 13 = BitVec.ofInt 64 (n.toInt * 2 ^ 13) := by
  rw [sx, BitVec.signExtend, BitVec.shiftLeft_eq_mul_twoPow, BitVec.ofInt_mul]
  rfl

/-! Products and quotients (R167, R168, R115). -/

theorem mul_eq_wd (x y : Word) : x * y = wd (x.toNat * y.toNat) := BitVec.eq_of_toNat_eq (BitVec.toNat_mul ..)

/-- The high half of a signed product is the one that makes it up with the low half. -/
theorem mulh_eq {x y h : Word} (hp : h.toInt * 2 ^ 64 + (wd (x.toNat * y.toNat)).toNat = x.toInt * y.toInt) :
    BitVec.ofInt 64 (x.toInt * y.toInt / 2 ^ 64) = h := by
  have hl := (wd (x.toNat * y.toNat)).isLt
  rw [← hp, show (h.toInt * 2 ^ 64 + ((wd (x.toNat * y.toNat)).toNat : Int)) / 2 ^ 64 = h.toInt by omega, BitVec.ofInt_toInt]

theorem mulhn_eq {x y h : Word} (hp : h.toNat * 2 ^ 64 + (wd (x.toNat * y.toNat)).toNat = x.toNat * y.toNat) :
    wd (x.toNat * y.toNat / 2 ^ 64) = h := by
  have hl := (wd (x.toNat * y.toNat)).isLt
  rw [← hp, show (h.toNat * 2 ^ 64 + (wd (x.toNat * y.toNat)).toNat) / 2 ^ 64 = h.toNat by omega, wd, BitVec.ofNat_toNat, BitVec.setWidth_eq]

theorem ofInt_tdiv (x y : Word) : BitVec.ofInt 64 (x.toInt.tdiv y.toInt) = x.sdiv y :=
  BitVec.eq_of_toInt_eq (by rw [BitVec.toInt_ofInt, BitVec.toInt_sdiv])

theorem ofInt_tmod (x y : Word) : BitVec.ofInt 64 (x.toInt.tmod y.toInt) = x.srem y := by
  rw [← BitVec.toInt_srem, BitVec.ofInt_toInt]

theorem wd_div (x y : Word) : wd (x.toNat / y.toNat) = x / y := by
  rw [wd, ← BitVec.toNat_udiv, BitVec.ofNat_toNat, BitVec.setWidth_eq]

theorem wd_mod (x y : Word) : wd (x.toNat % y.toNat) = x % y := by
  rw [wd, ← BitVec.toNat_umod, BitVec.ofNat_toNat, BitVec.setWidth_eq]

end Sys2Proof.Machine

open Sys2Proof Sys2Proof.Machine

/-- Settles O13: every instruction of these tables is `alu2`, `alu1` or `alu0` of its function, whose value is the table's. -/
theorem arithmeticResults : Obligations.ArithmeticResults := by
  unfold Obligations.ArithmeticResults
  refine ⟨fun s s1 rd a b x y => ?_, fun s s1 rd a b sh imm big x y => ?_, fun s s1 rd a b x y => ?_⟩
  · exact ⟨answers_alu2 (execAdd rd a b) rfl rfl rfl rfl, answers_alu2 (execSub rd a b) rfl rfl rfl rfl,
      answers_alu2 (execAnd rd a b) rfl rfl rfl rfl, answers_alu2 (execAndn rd a b) rfl rfl rfl rfl,
      answers_alu2 (execOr rd a b) rfl rfl rfl rfl, answers_alu2 (execXor rd a b) rfl rfl rfl rfl,
      answers_alu2 (execMin rd a b) rfl rfl rfl (ite_slt_min x y), answers_alu2 (execMax rd a b) rfl rfl rfl (ite_slt_max x y),
      answers_alu2 (execMinn rd a b) rfl rfl rfl (ite_ult_min x y), answers_alu2 (execMaxn rd a b) rfl rfl rfl (ite_ult_max x y)⟩
  · have hy : y.toNat % 64 < 64 := Nat.mod_lt _ (by decide)
    exact ⟨answers_alu1 (execAddi rd a imm) rfl rfl rfl rfl, answers_alu1 (execAndi rd a imm) rfl rfl rfl rfl,
      answers_alu1 (execOri rd a imm) rfl rfl rfl rfl, answers_alu1 (execXori rd a imm) rfl rfl rfl rfl,
      answers_alu2 (execSll rd a b) rfl rfl rfl (shiftLeft_eq_wd x _), answers_alu2 (execSrl rd a b) rfl rfl rfl (ushiftRight_eq_wd x _),
      answers_alu2 (execSra rd a b) rfl rfl rfl (sshiftRight_eq_ofInt x _), answers_alu2 (execRot rd a b) rfl rfl rfl (rotateRight_eq_wd x hy),
      answers_alu1 (execSlli rd a sh) rfl rfl rfl (shiftLeft_eq_wd x _), answers_alu1 (execSrli rd a sh) rfl rfl rfl (ushiftRight_eq_wd x _),
      answers_alu1 (execSrai rd a sh) rfl rfl rfl (sshiftRight_eq_ofInt x _), answers_alu1 (execRoti rd a sh) rfl rfl rfl (rotateRight_eq_wd x sh.isLt),
      answers_alu0 (execLih rd big) rfl rfl rfl (signExtend_shiftLeft big),
      answers_alu0 (execAddpc rd big) rfl rfl rfl (congrArg (s1.mine.pc + ·) (signExtend_shiftLeft big))⟩
  · exact ⟨answers_alu2 (execMul rd a b) rfl rfl rfl (mul_eq_wd x y), fun h hp => answers_alu2 (execMulh rd a b) rfl rfl rfl (mulh_eq hp),
      fun h hp => answers_alu2 (execMulhn rd a b) rfl rfl rfl (mulhn_eq hp),
      answers_alu2 (execDiv rd a b) rfl rfl rfl (congrArg (ite (y = 0) _) (ofInt_tdiv x y)),
      answers_alu2 (execDivn rd a b) rfl rfl rfl (congrArg (ite (y = 0) _) (wd_div x y)),
      answers_alu2 (execRem rd a b) rfl rfl rfl (congrArg (ite (y = 0) _) (ofInt_tmod x y)),
      answers_alu2 (execRemn rd a b) rfl rfl rfl (congrArg (ite (y = 0) _) (wd_mod x y))⟩
end

section
/-! PROOFS. Element-wise vector instructions (O33): one element written, a list of them written with their flags, what the instruction leaves, and that
no form of them loses a flag. -/

namespace Sys2Proof.Machine

/-! A field of B values at weight A of a number, replaced by `u`. -/

theorem splice_eq (o u A B : Nat) : o / (A * B) * (A * B) + u * A + o % A = o % A + A * (o / (A * B) * B + u) := by
  rw [Nat.mul_add, Nat.mul_comm u A, Nat.mul_left_comm _ A B, Nat.add_comm (o % A)]

theorem splice_mod_low (o u A B : Nat) : (o / (A * B) * (A * B) + u * A + o % A) % A = o % A := by
  rw [splice_eq, Nat.add_mul_mod_self_left, Nat.mod_mod]

theorem splice_div_low {o u A B : Nat} (hA : 0 < A) : (o / (A * B) * (A * B) + u * A + o % A) / A = o / (A * B) * B + u := by
  rw [splice_eq, Nat.add_mul_div_left _ _ hA, Nat.div_eq_of_lt (Nat.mod_lt _ hA), Nat.zero_add]

theorem splice_field {o u A B : Nat} (hA : 0 < A) (hu : u < B) : (o / (A * B) * (A * B) + u * A + o % A) / A % B = u := by
  rw [splice_div_low hA, Nat.mul_add_mod_self_right, Nat.mod_eq_of_lt hu]

theorem splice_div_high {o u A B : Nat} (hA : 0 < A) (hu : u < B) :
    (o / (A * B) * (A * B) + u * A + o % A) / (A * B) = o / (A * B) := by
  rw [← Nat.div_div_eq_div_mul, splice_div_low hA, Nat.add_comm, Nat.add_mul_div_right _ _ (by omega), Nat.div_eq_of_lt hu, Nat.zero_add]

theorem splice_lt {o u A B K : Nat} (hA : 0 < A) (hu : u < B) (ho : o < A * B * K) :
    o / (A * B) * (A * B) + u * A + o % A < A * B * K := by
  have hAB : 0 < A * B := Nat.mul_pos hA (by omega)
  rw [Nat.mul_comm _ K, ← Nat.div_lt_iff_lt_mul hAB] at ho ⊢
  rwa [splice_div_high hA hu]

/-! One element (R238). -/

/-- A register's lanes are numbered apart, however many there are. -/
theorem Slot.vr_setV_same (t : Slot) (r l k : Nat) (v : BitVec 32) : (t.setV r l v).vr r k = if k = l then v else t.vr r k := by
  simp [Slot.setV, Slot.vr, look_put]

/-- The lane as `setElem` leaves it. -/
theorem Slot.toNat_vr_setElem (t : Slot) (r l e w v : Nat) (h : w * e + w ≤ 32) :
    ((t.setElem r l e w v).vr r l).toNat = (t.vr r l).toNat / (2 ^ (w * e) * 2 ^ w) * (2 ^ (w * e) * 2 ^ w) + v % 2 ^ w * 2 ^ (w * e) +
      (t.vr r l).toNat % 2 ^ (w * e) := by
  have hlane : 2 ^ 32 = 2 ^ (w * e) * 2 ^ w * 2 ^ (32 - (w * e + w)) := by rw [← Nat.pow_add, ← Nat.pow_add]; congr 1; omega
  have hlt := splice_lt (A := 2 ^ (w * e)) (Nat.two_pow_pos _) (Nat.mod_lt v (Nat.two_pow_pos w)) (hlane ▸ (t.vr r l).isLt)
  rw [Slot.setElem, Slot.vr_setV_same, if_pos rfl, BitVec.toNat_ofNat, Nat.pow_add, Nat.mod_eq_of_lt (hlane ▸ hlt)]

theorem Slot.elem_setElem (t : Slot) (r l e w v : Nat) {k j : Nat} (he : w * e + w ≤ 32) :
    (t.setElem r l e w v).elem r k j w = if k = l ∧ j = e then v % 2 ^ w else t.elem r k j w := by
  by_cases hk : k = l
  · subst hk
    have hv : v % 2 ^ w < 2 ^ w := Nat.mod_lt _ (Nat.two_pow_pos w)
    unfold Slot.elem
    rw [Slot.toNat_vr_setElem t r k e w v he]
    generalize (t.vr r k).toNat = o
    rcases Nat.lt_trichotomy j e with hj | rfl | hj
    · -- an element below reads bits that stand
      have hd : 2 ^ (w * j) * 2 ^ w ∣ 2 ^ (w * e) := by
        rw [← Nat.pow_add, ← Nat.mul_succ]; exact Nat.pow_dvd_pow 2 (Nat.mul_le_mul_left w hj)
      rw [if_neg (by omega), ← Nat.mod_mul_right_div_self, ← Nat.mod_mul_right_div_self, ← Nat.mod_mod_of_dvd _ hd, splice_mod_low,
        Nat.mod_mod_of_dvd _ hd]
    · rw [if_pos ⟨rfl, rfl⟩, splice_field (Nat.two_pow_pos _) hv]
    · -- so does one above
      have hd : 2 ^ (w * j) = 2 ^ (w * e) * 2 ^ w * 2 ^ (w * j - (w * e + w)) := by
        rw [← Nat.pow_add, ← Nat.pow_add]
        have := Nat.mul_le_mul_left w hj
        rw [Nat.mul_succ] at this
        congr 1; omega
      rw [if_neg (by omega), hd, ← Nat.div_div_eq_div_mul, splice_div_high (Nat.two_pow_pos _) hv, Nat.div_div_eq_div_mul]
  · rw [if_neg (by omega)]
    unfold Slot.elem Slot.setElem
    rw [Slot.vr_setV_same, if_neg hk]

/-- The elements of a type fit the lane (R154). -/
theorem etWidth_fits {et e : Nat} (h : e < etPer et) : etWidth et * e + etWidth et ≤ 32 := by
  rw [← Nat.mul_succ]
  calc etWidth et * (e + 1)
    _ ≤ etWidth et * etPer et := Nat.mul_le_mul_left _ h
    _ ≤ 32 := Nat.mul_div_le ..

/-! The active elements written (R239, R240). -/

theorem mem_activeElems {t : Slot} {mk k : Nat} {x : Nat × Nat} :
    x ∈ activeElems t mk k ↔ x.1 < t.vl ∧ x.2 < k ∧ t.mr mk (4 * x.1 + x.2) = true := by
  obtain ⟨l, e⟩ := x
  simp [activeElems, and_assoc]

/-- The elements `act` of register vd written one after another, each with the value and flags that `f` gives it. -/
def writeElems (vd w : Nat) (f : Nat × Nat → Nat × Flags) (act : List (Nat × Nat)) (t : Slot) : Slot :=
  act.foldl (fun a x => (a.setElem vd x.1 x.2 w (f x).1).flag (f x).2) t

section
variable (vd w : Nat) (f : Nat × Nat → Nat × Flags) (act : List (Nat × Nat)) (t : Slot)

theorem writeElems_rest : writeElems vd w f act t =
    { t with v := (writeElems vd w f act t).v, vPoison := (writeElems vd w f act t).vPoison, vflags := (writeElems vd w f act t).vflags } := by
  induction act generalizing t with
  | nil => rfl
  | cons x r ih => exact ih _

theorem writeElems_elem {l e : Nat} (hfit : ∀ x ∈ act, w * x.2 + w ≤ 32) :
    (writeElems vd w f act t).elem vd l e w = if (l, e) ∈ act then (f (l, e)).1 % 2 ^ w else t.elem vd l e w := by
  induction act generalizing t with
  | nil => rfl
  | cons x r ih =>
    obtain ⟨hx, hr⟩ := List.forall_mem_cons.1 hfit
    have hone : ((t.setElem vd x.1 x.2 w (f x).1).flag (f x).2).elem vd l e w =
        if (l, e) = x then (f x).1 % 2 ^ w else t.elem vd l e w := by
      simp only [Prod.ext_iff]
      exact Slot.elem_setElem t vd x.1 x.2 w (f x).1 hx
    refine (ih _ hr).trans ?_
    rw [hone]
    by_cases hm : (l, e) ∈ r
    · rw [if_pos hm, if_pos (List.mem_cons_of_mem _ hm)]
    · rw [if_neg hm]
      by_cases hxe : (l, e) = x
      · rw [if_pos hxe, if_pos (hxe ▸ List.mem_cons_self), hxe]
      · rw [if_neg hxe, if_neg (by simp [hxe, hm])]

theorem writeElems_look {n : Nat} (h : ∀ x ∈ act, n ≠ vd * 128 + x.1) : look 0 n (writeElems vd w f act t).v = look 0 n t.v := by
  induction act generalizing t with
  | nil => rfl
  | cons x r ih =>
    obtain ⟨hx, hr⟩ := List.forall_mem_cons.1 h
    exact (ih _ hr).trans (look_put_other _ _ _ hx)

theorem writeElems_vflags (k : Nat) : (writeElems vd w f act t).vflags.getLsbD k = true ↔
    t.vflags.getLsbD k = true ∨ ∃ x ∈ act, (f x).2.getLsbD k = true := by
  induction act generalizing t with
  | nil => simp [writeElems]
  | cons x r ih =>
    refine (ih _).trans ?_
    simp [Slot.flag, Slot.setElem, or_assoc]

end

/-! The instruction (R239, R240, R121, R187). -/

/-- Two element functions give the same w bits and the same flags. -/
def SameElements (w : Nat) (f g : Nat → Nat → Nat → Nat × Flags) : Prop :=
  ∀ a b d, (f a b d).1 % 2 ^ w = (g a b d).1 % 2 ^ w ∧ (f a b d).2 = (g a b d).2

theorem SameElements.refl (w : Nat) (f : Nat → Nat → Nat → Nat × Flags) : SameElements w f f := fun _ _ _ => ⟨rfl, rfl⟩

/-- What lies above the element is not written. -/
theorem sameElements_mod (w : Nat) (v : Nat → Nat → Nat) : SameElements w (fun a b _ => plain (v a b % 2 ^ w)) (fun a b _ => (v a b, 0)) :=
  fun _ _ _ => ⟨Nat.mod_mod _ _, rfl⟩

/-- A function of integers for types 0 to 4 and of floats for the others (R154). -/
theorem sameElements_byType (et : Nat) (v : Nat → Nat → Nat) (fl : Nat → Nat → Nat × Flags) : SameElements (etWidth et)
    (fun a b _ => if etFloat et then fl a b else plain (v a b % 2 ^ etWidth et)) (fun a b _ => if et < 5 then (v a b, 0) else fl a b) := by
  intro a b d
  by_cases h : et < 5
  · simpa [etFloat, h, Nat.not_le.2 h] using sameElements_mod (etWidth et) v a b d
  · simp [etFloat, h, Nat.le_of_not_lt h]

section
variable {s : State} {n vd vs1 vs2 mk et : Nat} {reads : List Nat} {f : Nat → Nat → Nat → Nat × Flags}

/-- What `f` gives the element of lane x.1 at place x.2, from the slot as the instruction finds it. -/
def elemResult (t : Slot) (vd vs1 vs2 et : Nat) (f : Nat → Nat → Nat → Nat × Flags) (x : Nat × Nat) : Nat × Flags :=
  f (t.elem vs1 x.1 x.2 (etWidth et)) (t.elem vs2 x.1 x.2 (etWidth et)) (t.elem vd x.1 x.2 (etWidth et))

/-- The slot with its active elements written. -/
def elemsWritten (t : Slot) (vd vs1 vs2 mk et : Nat) (f : Nat → Nat → Nat → Nat × Flags) : Slot :=
  writeElems vd (etWidth et) (elemResult t vd vs1 vs2 et f) (activeElems t mk (etPer et)) t

theorem elementwise_clean (h : markedLane s.mine reads ((activeElems s.mine mk (etPer et)).map (fun x => x.1)) = none) :
    elementwise s n vd vs1 vs2 reads mk et f = .go () (advance (s.modMe (fun _ => elemsWritten s.mine vd vs1 vs2 mk et f)) n) := by
  simp only [elementwise, needLanes, h, Res.bnd_go]
  rfl

theorem elementwise_marked {a : Word} (h : markedLane s.mine reads ((activeElems s.mine mk (etPer et)).map (fun x => x.1)) = some a) :
    elementwise s n vd vs1 vs2 reads mk et f = .stop (trap s .memerr a) := by
  simp only [elementwise, needLanes, h]
  rfl

theorem State.mine_modMe (s : State) (u : Slot → Slot) : (s.modMe u).mine = u s.mine := by simp [State.mine_eq]

/-- Its elements are those of the statement's words, for any function that differs only above the element. -/
theorem elementsAre_written {g : Nat → Nat → Nat → Nat × Flags} (hg : SameElements (etWidth et) f g) :
    ElementsAre s (advance (s.modMe (fun _ => elemsWritten s.mine vd vs1 vs2 mk et f)) n) vd vs1 vs2 mk et (fun a b d => (g a b d).1) := by
  have hmine := advance_mine (s.modMe (fun _ => elemsWritten s.mine vd vs1 vs2 mk et f)) n
  rw [State.mine_modMe] at hmine
  have hrest : elemsWritten s.mine vd vs1 vs2 mk et f = _ := writeElems_rest ..
  refine ⟨fun l e _ he => ?_, fun k hk => ?_, ?_, ?_, ?_, rfl, ?_⟩
  · have hfit : ∀ x ∈ activeElems s.mine mk (etPer et), etWidth et * x.2 + etWidth et ≤ 32 := fun x hx => etWidth_fits (mem_activeElems.1 hx).2.1
    have helem : (elemsWritten s.mine vd vs1 vs2 mk et f).elem vd l e (etWidth et) =
        if l < s.mine.vl ∧ s.mine.mr mk (4 * l + e) = true then (elemResult s.mine vd vs1 vs2 et f (l, e)).1 % 2 ^ etWidth et
        else s.mine.elem vd l e (etWidth et) := by
      refine (writeElems_elem vd (etWidth et) _ _ s.mine hfit).trans ?_
      simp only [mem_activeElems, he, true_and]
    rw [hmine]
    refine helem.trans ?_
    rw [elemResult, (hg ..).1]
  · rw [hmine]
    refine writeElems_look _ _ _ _ _ fun x hx => ?_
    have hlane := (mem_activeElems.1 hx).1
    omega
  · rw [hmine, hrest]
  · rw [hmine, hrest]
  · rw [hmine, hrest]
  · exact ((OthersSame.refl s s.me).modSlot _).modSlot _

theorem vflags_written {g : Nat → Nat → Nat → Nat × Flags} (hg : SameElements (etWidth et) f g) (k : Nat) :
    (elemsWritten s.mine vd vs1 vs2 mk et f).vflags.getLsbD k = true ↔ s.mine.vflags.getLsbD k = true ∨
      ∃ l e, l < s.mine.vl ∧ e < etPer et ∧ s.mine.mr mk (4 * l + e) = true ∧
        (g (s.mine.elem vs1 l e (etWidth et)) (s.mine.elem vs2 l e (etWidth et)) (s.mine.elem vd l e (etWidth et))).2.getLsbD k = true := by
  refine (writeElems_vflags ..).trans (or_congr_right ?_)
  simp only [Prod.exists, mem_activeElems, and_assoc, elemResult, (hg ..).2]

/-- An instruction that comes down to `elementwise` of `f` raises what `g` says, which differs from it only above the element. -/
theorem vectorRaises_of_elementwise {i : Instr} {s0 : State} {g : Nat → Nat → Nat → Nat × Flags}
    (he : exec i s0 = (elementwise s n vd vs1 vs2 reads mk et f).outcome) (hg : SameElements (etWidth et) f g) :
    VectorRaises i s0 s reads vd vs1 vs2 mk et n g := by
  intro hclean
  rw [elementwise_clean hclean] at he
  have hpc : (elemsWritten s.mine vd vs1 vs2 mk et f).pc = s.mine.pc := by rw [elemsWritten, writeElems_rest]
  refine ⟨_, he, ?_, elementsAre_written hg, fun k => ?_⟩
  · rw [Res.state_go, advance_mine, State.mine_modMe, hpc]
  · rw [Res.state_go, advance_mine, State.mine_modMe]
    exact vflags_written hg k

end

/-! The forms of the element-wise instructions (R143, R244-R246); `e` is the function that performs `i`. -/

section
variable {i : Instr} {s s1 : State} {vd vs1 vs2 : BitVec 5} {mk et : BitVec 3} {f : Nat → Nat → Nat → Nat × Flags}

theorem vecBin_raises (e : State → Out) (hk : needs i s.mine = some { level := 1, vec := true }) (he : exec i s = e s)
    (hf : e s = vecBin i vd vs1 vs2 mk et f s) (hi : Issued i s [] s1) :
    VectorRaises i s s1 [vs1.toNat, vs2.toNat] vd.toNat vs1.toNat vs2.toNat mk.toNat et.toNat 4 f :=
  vectorRaises_of_elementwise (hi.exec_eq hk (he.trans hf)) (.refl _ _)

theorem vecTri_raises (e : State → Out) (hk : needs i s.mine = some { level := 1, vec := true }) (he : exec i s = e s)
    (hf : e s = vecTri i vd vs1 vs2 mk et f s) (hi : Issued i s [] s1) :
    VectorRaises i s s1 [vs1.toNat, vs2.toNat, vd.toNat] vd.toNat vs1.toNat vs2.toNat mk.toNat et.toNat 4 f :=
  vectorRaises_of_elementwise (hi.exec_eq hk (he.trans hf)) (.refl _ _)

/-- A form that reads vs2 only is `elementwise` whatever its first source is called. -/
theorem vecUn_raises {h : Nat → Nat × Flags} (e : State → Out) (hk : needs i s.mine = some { level := 1, vec := true }) (he : exec i s = e s)
    (hf : e s = vecUn i vd vs2 mk et h s) (r : Nat) (hi : Issued i s [] s1) :
    VectorRaises i s s1 [vs2.toNat] vd.toNat r vs2.toNat mk.toNat et.toNat 4 (fun _ b _ => h b) := by
  have hx : exec i s = (elementwise s1 4 vd.toNat 0 vs2.toNat [vs2.toNat] mk.toNat et.toNat (fun _ b _ => h b)).outcome :=
    hi.exec_eq hk (he.trans hf)
  exact vectorRaises_of_elementwise (vs1 := r) (f := fun _ b _ => h b) hx (.refl _ _)

section
variable {legal : Nat → Bool} {h : Nat → Nat → Nat → Nat × Flags} {g : Nat → Nat → Nat → Nat × Flags}

theorem vec16_raises {binary : Bool} (e : State → Out)
    (hk : needs i s.mine = some { level := 1, vec := true, legal := legal s.mine.vtype.toNat }) (he : exec i s = e s)
    (hf : e s = vec16 i legal vd vs2 binary h s) (hg : SameElements (etWidth s.mine.vtype.toNat) (fun a b _ => h s.mine.vtype.toNat a b) g)
    (hi : Issued i s [] s1) :
    VectorRaises i s s1 (if binary then [vd.toNat, vs2.toNat] else [vs2.toNat]) vd.toNat vd.toNat vs2.toNat 0 s.mine.vtype.toNat 2 g :=
  vectorRaises_of_elementwise (hi.exec_eq hk (he.trans hf)) hg

end

end

/-- An instruction that is not legal under VTYPE traps ILLEGAL_OP (R140 check 2, R155). -/
theorem exec_illegal {i : Instr} {s : State} {k : Issue} (hk : needs i s.mine = some k) (hi : s.mine.issued = none) (hl : k.legal = false) :
    exec i s = .next (trap s .illegalOp (encodingOf i)) := by
  refine exec_of_issue_stop hk (.inl hi) ?_
  simp [issue, hi, hl, trapRes]

/-! No flag is lost (R121). -/

/-- Every flag that the acting slot holds it still holds. -/
def KeepsFlags (s t : State) : Prop := t.mine.vflags &&& s.mine.vflags = s.mine.vflags

theorem KeepsFlags.of_bits {s t : State} (h : ∀ k, s.mine.vflags.getLsbD k = true → t.mine.vflags.getLsbD k = true) : KeepsFlags s t := by
  refine BitVec.eq_of_getLsbD_eq fun k _ => ?_
  rw [BitVec.getLsbD_and]
  cases hs : s.mine.vflags.getLsbD k
  · rw [Bool.and_false]
  · rw [h k hs, Bool.and_true]

theorem trap_keepsFlags (s : State) (c : Cause) (v : Word) : KeepsFlags s (trap s c v) := by
  obtain ⟨-, -, -, -, -, -, -, -, -, hflags, -⟩ :=
    trapSlot_records { s.slot s.me with held := [], reserve := none, pushing := none } (s.core (coreOf s.me)).stvec c s.mine.pc v
  have hmine : (trap s c v).mine.vflags = s.mine.vflags := by
    rw [State.mine_eq, (trap_step s c v).me, trap, trapAt_slot, hflags]
    rfl
  rw [KeepsFlags, hmine, BitVec.and_self]

theorem elementwise_keepsFlags (s : State) (n vd vs1 vs2 : Nat) (reads : List Nat) (mk et : Nat) (f : Nat → Nat → Nat → Nat × Flags) :
    KeepsFlags s (elementwise s n vd vs1 vs2 reads mk et f).state := by
  cases hm : markedLane s.mine reads ((activeElems s.mine mk (etPer et)).map (fun x => x.1)) with
  | some a => rw [elementwise_marked hm]; exact trap_keepsFlags ..
  | none =>
    rw [elementwise_clean hm]
    refine .of_bits fun k hk => ?_
    rw [Res.state_go, advance_mine, State.mine_modMe]
    exact (vflags_written (.refl _ _) k).2 (.inl hk)

/-- With no scalar field and no place needed in the matrix unit, an instruction issues with its state as it was, or traps: it never waits. -/
theorem issue_unhatched {k : Issue} (hs : k.srcs = []) (hd : k.dst = none) (hu : k.unit = false) (i : Instr) (s : State) :
    issue i k s = .go [] s ∨ ∃ c v, issue i k s = .stop (trap s c v) := by
  have hop : operands k s = .go [] s := by simp [operands, hs, sourceValues]
  unfold issue
  dsimp only
  simp only [hop, hs, hd, hu, List.any_nil, Bool.false_or, Bool.false_and, Bool.not_false, if_true, Bool.false_eq_true, if_false, ite_self, Res.bnd_go]
  split
  · exact .inl rfl
  split
  · exact .inr ⟨_, _, rfl⟩
  split
  · exact .inr ⟨_, _, rfl⟩
  split
  · exact .inr ⟨_, _, rfl⟩
  split
  · exact .inr ⟨_, _, rfl⟩
  · exact .inl rfl

/-- The instruction is its issue, with no scalar field, and then `elementwise`. -/
def IsElementwise (i : Instr) (s : State) : Prop :=
  ∃ (k : Issue) (n vd vs1 vs2 : Nat) (reads : List Nat) (mk et : Nat) (f : Nat → Nat → Nat → Nat × Flags), k.srcs = [] ∧ k.dst = none ∧ k.unit = false ∧
    exec i s = ((issue i k s).bnd fun _ s1 => elementwise s1 n vd vs1 vs2 reads mk et f).outcome

theorem IsElementwise.keepsFlags {i : Instr} {s t : State} (h : IsElementwise i s) (ht : exec i s = .next t) : KeepsFlags s t := by
  obtain ⟨k, n, vd, vs1, vs2, reads, mk, et, f, hs, hd, hu, hx⟩ := h
  rw [hx, Res.outcome_eq, Host.Outcome.next.injEq] at ht
  subst ht
  rcases issue_unhatched hs hd hu i s with hgo | ⟨c, v, hstop⟩
  · rw [hgo, Res.bnd_go]; exact elementwise_keepsFlags ..
  · rw [hstop, Res.bnd_stop]; exact trap_keepsFlags ..

section
variable {i : Instr} {s : State} {vd vs1 vs2 : BitVec 5} {mk et : BitVec 3} {f : Nat → Nat → Nat → Nat × Flags} (e : State → Out) (he : exec i s = e s)
include he

theorem vecBin_isElementwise (hf : e s = vecBin i vd vs1 vs2 mk et f s) : IsElementwise i s :=
  ⟨_, _, _, _, _, _, _, _, _, rfl, rfl, rfl, he.trans hf⟩

theorem vecTri_isElementwise (hf : e s = vecTri i vd vs1 vs2 mk et f s) : IsElementwise i s :=
  ⟨_, _, _, _, _, _, _, _, _, rfl, rfl, rfl, he.trans hf⟩

theorem vecUn_isElementwise {h : Nat → Nat × Flags} (hf : e s = vecUn i vd vs2 mk et h s) : IsElementwise i s :=
  ⟨_, _, _, _, _, _, _, _, _, rfl, rfl, rfl, he.trans hf⟩

theorem vec16_isElementwise {legal : Nat → Bool} {binary : Bool} (hf : e s = vec16 i legal vd vs2 binary f s) : IsElementwise i s :=
  ⟨_, _, _, _, _, _, _, _, _, rfl, rfl, rfl, he.trans hf⟩

end

end Sys2Proof.Machine

open Sys2Proof Sys2Proof.Machine

/-- Settles O33: every form is `elementwise` of its function of elements, which raises the flags of the active ones and loses none. -/
theorem vectorFloatResults : Obligations.VectorFloatResults := by
  unfold Obligations.VectorFloatResults
  refine ⟨fun s s1 vd vs1 vs2 mk et rm => ?_, fun s s1 vd vs2 => ?_, fun s t i vd vs1 vs2 mk et rm => ?_, by decide, by decide, by decide, by decide⟩
  · intro m F v two three f32
    exact ⟨vecBin_raises (execVfadd vd vs1 vs2 mk et rm) rfl rfl rfl, vecBin_raises (execVfsub vd vs1 vs2 mk et rm) rfl rfl rfl,
      vecBin_raises (execVfmul vd vs1 vs2 mk et rm) rfl rfl rfl, vecTri_raises (execVfma vd vs1 vs2 mk et rm) rfl rfl rfl,
      vecTri_raises (execVfms vd vs1 vs2 mk et rm) rfl rfl rfl, vecUn_raises (execVsqrt vd vs2 mk rm) rfl rfl rfl _,
      vecUn_raises (execVrcp vd vs2 mk rm) rfl rfl rfl _, vecUn_raises (execVrsq vd vs2 mk rm) rfl rfl rfl _,
      vecUn_raises (execVexp2 vd vs2 mk rm) rfl rfl rfl _, vecUn_raises (execVlog2 vd vs2 mk rm) rfl rfl rfl _⟩
  · intro et w two one
    refine ⟨vec16_raises (execVadd16 vd vs2) rfl rfl rfl (sameElements_byType et _ _), vec16_raises (execVsub16 vd vs2) rfl rfl rfl (sameElements_byType et _ _),
      vec16_raises (execVmul16 vd vs2) rfl rfl rfl (sameElements_byType et _ _), vec16_raises (execVmin16 vd vs2) rfl rfl rfl (.refl _ _),
      vec16_raises (execVmax16 vd vs2) rfl rfl rfl (.refl _ _), vec16_raises (execVabs16 vd vs2) rfl rfl rfl (.refl _ _),
      vec16_raises (execVneg16 vd vs2) rfl rfl rfl (.refl _ _), vec16_raises (execVand16 vd vs2) rfl rfl rfl (.refl _ _),
      vec16_raises (execVor16 vd vs2) rfl rfl rfl (.refl _ _), vec16_raises (execVxor16 vd vs2) rfl rfl rfl (.refl _ _),
      vec16_raises (execVnot16 vd vs2) rfl rfl rfl (.refl _ _), vec16_raises (execVshl16 vd vs2) rfl rfl rfl (sameElements_mod w _),
      vec16_raises (execVshr16 vd vs2) rfl rfl rfl (.refl _ _), vec16_raises (execVsra16 vd vs2) rfl rfl rfl (.refl _ _),
      vec16_raises (execVmov16 vd vs2) rfl rfl rfl (.refl _ _), vec16_raises (execVrcp16 vd vs2) rfl rfl rfl (.refl _ _), fun hi ht => ?_, fun hi ht => ?_⟩
    · have hno : onlyInt et = false := decide_eq_false (by omega)
      exact ⟨exec_illegal rfl hi hno, exec_illegal rfl hi hno, exec_illegal rfl hi hno⟩
    · exact exec_illegal rfl hi (decide_eq_false ht)
  · intro hmem
    have hform : IsElementwise i s := by
      simp only [List.mem_cons, List.not_mem_nil, or_false] at hmem
      rcases hmem with rfl | rfl | rfl | rfl | rfl | rfl | rfl | rfl | rfl | rfl | rfl | rfl | rfl | rfl | rfl | rfl
      · exact vecBin_isElementwise (execVfadd vd vs1 vs2 mk et rm) rfl rfl
      · exact vecBin_isElementwise (execVfsub vd vs1 vs2 mk et rm) rfl rfl
      · exact vecBin_isElementwise (execVfmul vd vs1 vs2 mk et rm) rfl rfl
      · exact vecTri_isElementwise (execVfma vd vs1 vs2 mk et rm) rfl rfl
      · exact vecTri_isElementwise (execVfms vd vs1 vs2 mk et rm) rfl rfl
      · exact vecUn_isElementwise (execVsqrt vd vs2 mk rm) rfl rfl
      · exact vecUn_isElementwise (execVrcp vd vs2 mk rm) rfl rfl
      · exact vecUn_isElementwise (execVrsq vd vs2 mk rm) rfl rfl
      · exact vecUn_isElementwise (execVexp2 vd vs2 mk rm) rfl rfl
      · exact vecUn_isElementwise (execVlog2 vd vs2 mk rm) rfl rfl
      · exact vec16_isElementwise (execVadd16 vd vs2) rfl rfl
      · exact vec16_isElementwise (execVsub16 vd vs2) rfl rfl
      · exact vec16_isElementwise (execVmul16 vd vs2) rfl rfl
      · exact vec16_isElementwise (execVmin16 vd vs2) rfl rfl
      · exact vec16_isElementwise (execVmax16 vd vs2) rfl rfl
      · exact vec16_isElementwise (execVrcp16 vd vs2) rfl rfl
    exact hform.keepsFlags
end

section
/-! PROOFS. Words the manual writes out (O1): the decoder evaluated at each. -/

open Sys2Proof

/-- Settles O1, each word by evaluation. -/
theorem manualWordsDecode : Obligations.ManualWordsDecode := by
  unfold Obligations.ManualWordsDecode
  exact ⟨by decide, by decide, by decide, by decide, by decide, by decide, by decide, by decide, by decide, by decide, by decide, by decide, by decide⟩

end

section
/-! PROOFS. Compares (O14): the condition of one that its slot has issued is not looked at again. -/

namespace Sys2Proof.Machine

/-- The only slot waits in a CMP of x1 = 1 with x2 = 0 under condition 6, which is none of R173's, as if it had issued (R43). -/
def strayCompare : State :=
  { State.reset with slots := [(0, { state := .waiting, wait := some .turn, x := [(1, 1)], inst := some (.cmp 1 1 2 6, 0) })] }

/-- It goes on with its operands, the checks of R140 behind it. -/
theorem strayCompare_issued : Issued (.cmp 1 1 2 6) strayCompare [1, 0] strayCompare := ⟨_, rfl, rfl⟩

/-- It writes its predicate true, as condition 5 would. -/
theorem exec_strayCompare :
    exec (.cmp 1 1 2 6) strayCompare = .next (advance (strayCompare.modMe (fun t => t.setP 1 true)) 4) := by
  rw [strayCompare_issued.exec_eq rfl rfl]
  rfl

end Sys2Proof.Machine

open Sys2Proof Sys2Proof.Machine

/-- Refutes O14: of CMP it says that the predicate written is true just where one of R173's six conditions holds, and has no premise that the condition
field is one of the six. Check 2 of R140 sees to that when an instruction issues, but one that has issued goes on without it: `strayCompare` is in a CMP
of condition 6, none of the six holds, and it writes its predicate true. -/
theorem not_bitAndPredicateResults : ¬ Obligations.BitAndPredicateResults := by
  unfold Obligations.BitAndPredicateResults
  rintro ⟨-, h⟩
  obtain ⟨hcmp, -⟩ := h strayCompare strayCompare 1 2 1 6 0 0 0 1 0 false
  have hsame := Host.Outcome.next.inj (exec_strayCompare.symm.trans (hcmp (by decide) strayCompare_issued))
  exact absurd (congrArg (fun t => t.mine.pr 1) hsame) (by decide)

end

section
/-! PROOFS. Branches, jumps and links (O15): the fields of a word in B, I and J format, and how an instruction of each kind goes on. -/

namespace Sys2Proof

/-! The fields of an encoded word (R141). -/

theorem encB_fields (off : BitVec 13) (a : BitVec 6) (p k : BitVec 3) (m : BitVec 6) :
    bits (encB off a p k m) 1 6 = m ∧ bits (encB off a p k m) 7 3 = k ∧ bits (encB off a p k m) 10 3 = p ∧
      bits (encB off a p k m) 13 6 = a ∧ bits (encB off a p k m) 19 13 = off := by
  unfold bits encB
  simp (disch := decide) only [BitVec.extractLsb'_append_eq_of_le, BitVec.extractLsb'_append_eq_right, BitVec.extractLsb'_eq_self, Nat.reduceSub, and_self]

theorem encI_fields (imm : BitVec 13) (b a m : BitVec 6) :
    bits (encI imm b a m) 1 6 = m ∧ bits (encI imm b a m) 7 6 = a ∧ bits (encI imm b a m) 13 6 = b ∧ bits (encI imm b a m) 19 13 = imm := by
  unfold bits encI
  simp (disch := decide) only [BitVec.extractLsb'_append_eq_of_le, BitVec.extractLsb'_append_eq_right, BitVec.extractLsb'_eq_self, Nat.reduceSub, and_self]

theorem encJ_fields (imm : BitVec 19) (a m : BitVec 6) :
    bits (encJ imm a m) 1 6 = m ∧ bits (encJ imm a m) 7 6 = a ∧ bits (encJ imm a m) 13 19 = imm := by
  unfold bits encJ
  simp (disch := decide) only [BitVec.extractLsb'_append_eq_of_le, BitVec.extractLsb'_append_eq_right, BitVec.extractLsb'_eq_self, Nat.reduceSub, and_self]

theorem decode32_branch (off : BitVec 13) (a : BitVec 6) (p k : BitVec 3) :
    decode32 (encB off a p k 14#6) = (decBr off a p k).filter wellFormed := by
  obtain ⟨hm, hk, hp, ha, hoff⟩ := encB_fields off a p k 14#6
  unfold decode32 raw32
  rw [hm, hk, hp, ha, hoff]
  rfl

theorem decode32_jal (imm : BitVec 19) {rd : RegField} (hd : regOk rd = true) : decode32 (encJ imm rd 15#6) = some (.jal rd imm) := by
  obtain ⟨hm, ha, himm⟩ := encJ_fields imm rd 15#6
  unfold decode32 raw32
  rw [hm, ha, himm]
  exact Option.filter_eq_some_iff.2 ⟨rfl, hd⟩

theorem decode32_jalr (imm : BitVec 13) {rd a : RegField} (hd : regOk rd = true) (ha : regOk a = true) :
    decode32 (encI imm a rd 16#6) = some (.jalr rd a imm) := by
  obtain ⟨hm, hrd, hrs, himm⟩ := encI_fields imm a rd 16#6
  unfold decode32 raw32
  rw [hm, hrd, hrs, himm]
  exact Option.filter_eq_some_iff.2 ⟨rfl, by simp [wellFormed, hd, ha]⟩

theorem decode32_trapImm (imm : BitVec 13) : decode32 (encI imm 0#6 0#6 49#6) = some (.trapImm imm) := by
  obtain ⟨hm, hrd, hrs, himm⟩ := encI_fields imm 0#6 0#6 49#6
  unfold decode32 raw32
  rw [hm, hrd, hrs, himm]
  rfl

end Sys2Proof

namespace Sys2Proof.Machine

/-! Going on elsewhere (R175-R177). -/

/-- An offset counts halfwords. -/
theorem sx_shiftLeft_one {n : Nat} (off : BitVec n) : sx off <<< 1 = BitVec.ofInt 64 (2 * off.toInt) := by
  rw [sx, BitVec.signExtend, BitVec.shiftLeft_eq_mul_twoPow, Int.mul_comm, BitVec.ofInt_mul]
  rfl

/-- Where a branch of offset `off` at `pc` goes. -/
def branchGoal (pc : Word) (off : BitVec 13) (taken : Bool) : Word := if taken then pc + BitVec.ofInt 64 (2 * off.toInt) else pc + 4

section
variable {i : Instr} {s s1 s2 : State} {vs : List Word} {rd a : RegField}

/-- A branch goes to its goal; `e` is the function that performs it. -/
theorem exec_branch {srcs : List RegField} {off : BitVec 13} {taken : Slot → List Word → Bool} {b : Bool} (e : State → Out)
    (hk : needs i s.mine = some { srcs := srcs }) (he : exec i s = e s) (hf : e s = branch i srcs off taken s) (hb : taken s1.mine vs = b)
    (hi : Issued i s vs s1) : exec i s = .next (jumpTo s1 s1.me (branchGoal s1.mine.pc off b)) := by
  rw [hi.exec_eq hk (he.trans hf), hb, sx_shiftLeft_one]
  cases b <;> rfl

theorem link_written {t : Word} (hw : Written s1 s1 rd (s1.mine.pc + 4) s2) : (link s1 rd t).outcome = .next (jumpTo s2 s2.me t) := by
  unfold link
  rw [show writeRd s1 s1 rd (s1.mine.pc + 4) = .go () s2 from hw]
  rfl

theorem exec_jal {imm : BitVec 19} (hi : Issued (.jal rd imm) s [] s1) (hw : Written s1 s1 rd (s1.mine.pc + 4) s2) :
    exec (.jal rd imm) s = .next (jumpTo s2 s2.me (s1.mine.pc + BitVec.ofInt 64 (2 * imm.toInt))) := by
  rw [hi.exec_eq rfl rfl, link_written hw, sx_shiftLeft_one]

theorem exec_jalr {imm : BitVec 13} {x : Word} (hi : Issued (.jalr rd a imm) s [x] s1) (hw : Written s1 s1 rd (s1.mine.pc + 4) s2) :
    exec (.jalr rd a imm) s = .next (jumpTo s2 s2.me ((x + imm.signExtend 64) &&& ~~~1#64)) := by
  rw [hi.exec_eq rfl rfl, link_written hw]
  rfl

theorem exec_nop (hi : Issued .nop s [] s1) : exec .nop s = .next (jumpTo s1 s1.me (s1.mine.pc + 4)) := by
  rw [hi.exec_eq rfl rfl]
  rfl

end

end Sys2Proof.Machine

open Sys2Proof Sys2Proof.Machine

/-- Settles O15: a branch goes to its goal, a link is written before the jump, and each word's fields are the decoder's. -/
theorem branchesAndJumps : Obligations.BranchesAndJumps := by
  unfold Obligations.BranchesAndJumps
  intro s s1 s2 rd a ps off imm x pc goesTo goal
  have hne : (x != 0) = decide (x ≠ 0) := Bool.eq_iff_iff.2 (by simp)
  refine ⟨exec_branch (execBp ps off) rfl rfl rfl rfl, exec_branch (execBnp ps off) rfl rfl rfl rfl, exec_branch (execCbz a off) rfl rfl rfl rfl,
    exec_branch (execCbnz a off) rfl rfl rfl hne, exec_jal, exec_jalr, exec_nop, decode32_branch off 0#6 ps 0#3, decode32_branch off 0#6 ps 1#3,
    fun ha => ⟨?_, ?_⟩, decode32_jal imm, decode32_jalr off⟩
  · refine (decode32_branch off a 0#3 2#3).trans (Option.filter_eq_some_iff.2 ⟨?_, ha⟩)
    simp [decBr]
  · refine (decode32_branch off a 0#3 3#3).trans (Option.filter_eq_some_iff.2 ⟨?_, ha⟩)
    simp [decBr]

end

section
/-! PROOFS. Traps on purpose and the returns (O43). -/

namespace Sys2Proof.Machine

/-- A slot after ERET, field by field (R352). -/
theorem eretSlot_eq (t : Slot) : eretSlot t = { t with
    pc := t.trappc &&& ~~~1#64, mode := t.pmode, dh := t.pdh, ie := t.pie, pdh := false, nest := false,
    trapcause := if t.pdh then t.dcause else t.trapcause, trappc := if t.pdh then t.dpc else t.trappc,
    trapval := if t.pdh then t.dval else t.trapval } := by
  unfold eretSlot
  cases t.pdh <;> rfl

/-- An instruction of the supervisor traps PRIV in user mode (R140 check 4). -/
theorem exec_privileged {i : Instr} {s : State} {k : Issue} (hk : needs i s.mine = some k) (hi : s.mine.issued = none)
    (hw : wellFormed i = true) (hl : k.legal = true) (hf : k.level ≤ s.here.featmask.toNat) (hs : k.sup = true) (hm : s.mine.mode = false) :
    exec i s = .next (trap s .priv (encodingOf i)) := by
  refine exec_of_issue_stop hk (.inl hi) ?_
  simp [issue, hi, hw, hl, Nat.not_lt.2 hf, hs, hm, trapRes]

section
variable {s s1 : State}

theorem exec_brk (hi : Issued .brk s [] s1) : exec .brk s = .next (trap s1 .brk 0) := by
  rw [hi.exec_eq rfl rfl]
  rfl

theorem exec_eret (hi : Issued .eret s [] s1) :
    exec .eret s = .next (s1.modMe (fun t => { eretSlot t with wait := none, state := .ready, inst := none, read := [] })) := by
  rw [hi.exec_eq rfl rfl]
  rfl

theorem exec_tret_illegal (hi : Issued .tret s [] s1) (h : s1.mine.mode = true ∨ s1.mine.dh = false) :
    exec .tret s = .next (trap s1 .illegalOp (encodingOf .tret)) := by
  have hno : ¬ (!s1.mine.mode && s1.mine.dh) = true := by rcases h with h | h <;> simp [h]
  rw [hi.exec_eq rfl rfl, if_neg hno]
  rfl

end

end Sys2Proof.Machine

open Sys2Proof Sys2Proof.Machine

/-- Settles O43: each instruction, issued, is its trap or its return, and in user mode ERET does not issue. -/
theorem trapAndReturn : Obligations.TrapAndReturn := by
  unfold Obligations.TrapAndReturn
  intro s s1 imm a
  refine ⟨exec_brk, exec_trapImm, fun hi => ⟨_, exec_eret hi, ?_⟩, fun hi hm hh => ⟨_, exec_tret_handler hi hm hh, ?_⟩, exec_tret_illegal,
    by decide, by decide, by decide, decode32_trapImm imm, fun hi hm => exec_privileged rfl hi rfl rfl (Nat.zero_le _) rfl hm⟩
  · rw [State.mine_modMe, eretSlot_eq]
    exact ⟨rfl, rfl, rfl, rfl, rfl, rfl, rfl, rfl, rfl, (OthersSame.refl s1 _).modSlot _, fun h => by simp [a, h], fun h => by simp [a, h]⟩
  · rw [State.mine_modMe]
    exact ⟨rfl, rfl, hm, rfl, rfl, rfl, (OthersSame.refl s1 _).modSlot _⟩

end

section
/-! PROOFS. The frame of the scalar instructions (O16): what a wait, a result and a trap leave of the acting slot, what `issue` leaves, and that every
scalar instruction is its issue followed by its result and a jump. -/

namespace Sys2Proof.Machine

/-! Predicates after a write (R174). -/

theorem Slot.pr_eq (t : Slot) (n : Nat) : t.pr n = (decide (n = 0) || t.p.getLsbD n) := by
  rw [Slot.pr, ← Nat.testBit_eq_decide_div_mod_eq]
  rfl

theorem Slot.pr_setP_other (t : Slot) {n q : Nat} (h : q ≠ n) (hq : q < 8) (v : Bool) : (t.setP n v).pr q = t.pr q := by
  have hone : (BitVec.ofNat 8 (2 ^ n)).getLsbD q = false := by
    rw [BitVec.getLsbD_ofNat, Nat.testBit_two_pow_of_ne h.symm, Bool.and_false]
  by_cases hn : n = 0
  · rw [Slot.setP, if_pos hn]
  · rw [Slot.setP, if_neg hn, Slot.pr_eq, Slot.pr_eq]
    cases v
    · rw [if_neg Bool.false_ne_true, BitVec.getLsbD_and, BitVec.getLsbD_not, hone, decide_eq_true hq, Bool.not_false, Bool.and_true, Bool.and_true]
    · rw [if_pos rfl, BitVec.getLsbD_or, hone, Bool.or_false]

/-! What a slot keeps. -/

/-- Slot `b` has what `a` has of registers, predicates, vectors, masks and VFLAGS, but for the destination. -/
structure DestFrame (d : Dest) (a b : Slot) : Prop where
  regs : ∀ r, d ≠ .reg r → r.toNat < 32 → b.xr r.toNat = a.xr r.toNat
  preds : ∀ p : BitVec 3, d ≠ .pred p → b.pr p.toNat = a.pr p.toNat
  vectors : b.v = a.v
  masks : b.m = a.m
  vflags : b.vflags = a.vflags

/-- Slot `b` has the mode, the status and the trap registers of `a`. -/
def TrapStateSame (a b : Slot) : Prop :=
  b.mode = a.mode ∧ b.dh = a.dh ∧ b.ie = a.ie ∧ b.pmode = a.pmode ∧ b.pdh = a.pdh ∧ b.pie = a.pie ∧ b.nest = a.nest ∧
    b.trapcause = a.trapcause ∧ b.trappc = a.trappc ∧ b.trapval = a.trapval ∧ b.dcause = a.dcause ∧ b.dpc = a.dpc ∧ b.dval = a.dval

/-- Of a slot only its PC, its wait and what its instruction has taken and noted may differ. -/
def Slot.Bides (a b : Slot) : Prop :=
  b = { a with
    pc := b.pc, state := b.state, wait := b.wait, since := b.since, held := b.held, reserve := b.reserve, pushing := b.pushing,
    checked := b.checked, awaits := b.awaits, inst := b.inst, read := b.read }

variable {d : Dest} {a b c : Slot} {s t u : State}

theorem DestFrame.trans (h1 : DestFrame d a b) (h2 : DestFrame d b c) : DestFrame d a c where
  regs r hr hlt := (h2.regs r hr hlt).trans (h1.regs r hr hlt)
  preds p hp := (h2.preds p hp).trans (h1.preds p hp)
  vectors := h2.vectors.trans h1.vectors
  masks := h2.masks.trans h1.masks
  vflags := h2.vflags.trans h1.vflags

theorem TrapStateSame.trans (h1 : TrapStateSame a b) (h2 : TrapStateSame b c) : TrapStateSame a c := by
  unfold TrapStateSame at *
  simp_all

theorem Slot.Bides.destFrame (h : a.Bides b) : DestFrame d a b := by
  rw [h]
  exact ⟨fun _ _ _ => rfl, fun _ _ => rfl, rfl, rfl, rfl⟩

theorem Slot.Bides.trapState (h : a.Bides b) : TrapStateSame a b := by
  rw [h]
  exact ⟨rfl, rfl, rfl, rfl, rfl, rfl, rfl, rfl, rfl, rfl, rfl, rfl, rfl⟩

theorem setX_destFrame (a : Slot) (rd : RegField) (v : Word) : DestFrame (.reg rd) a (a.setX rd.toNat v) where
  regs r hr _ := by
    have hne : r.toNat ≠ rd.toNat := fun h => hr (congrArg Dest.reg (BitVec.eq_of_toNat_eq h).symm)
    rw [Slot.xr_setX, if_neg fun h => hne h.1]
  preds p _ := by rw [Slot.pr_eq, Slot.pr_eq, Slot.setX_p]
  vectors := Slot.setX_v ..
  masks := Slot.setX_m ..
  vflags := Slot.setX_vflags ..

theorem setP_destFrame (a : Slot) (pd : BitVec 3) (v : Bool) : DestFrame (.pred pd) a (a.setP pd.toNat v) where
  regs r _ _ := by rw [Slot.xr, Slot.xr, Slot.setP_x]
  preds p hp := Slot.pr_setP_other _ (fun h => hp (congrArg Dest.pred (BitVec.eq_of_toNat_eq h).symm)) p.isLt v
  vectors := Slot.setP_v ..
  masks := Slot.setP_m ..
  vflags := Slot.setP_vflags ..

theorem setX_trapState (a : Slot) (n : Nat) (v : Word) : TrapStateSame a (a.setX n v) := by simp [TrapStateSame]
theorem setP_trapState (a : Slot) (n : Nat) (v : Bool) : TrapStateSame a (a.setP n v) := by simp [TrapStateSame]

/-! What a step of the acting slot keeps. -/

/-- Of `s` and `t` only the acting slot, Hatches and the double traps noticed may differ, and of that slot not what the frame names. -/
structure ScalarStep (d : Dest) (s t : State) : Prop where
  step : SlotStep s t s.me
  frame : DestFrame d s.mine t.mine
  trapState : TrapStateSame s.mine t.mine

theorem ScalarStep.trans (h1 : ScalarStep d s t) (h2 : ScalarStep d t u) : ScalarStep d s u :=
  ⟨h1.step.trans (h1.step.me ▸ h2.step), h1.frame.trans h2.frame, h1.trapState.trans h2.trapState⟩

theorem ScalarStep.of_bides (h : SlotStep s t s.me) (hb : s.mine.Bides t.mine) : ScalarStep d s t := ⟨h, hb.destFrame, hb.trapState⟩

theorem ScalarStep.refl (d : Dest) (s : State) : ScalarStep d s s := .of_bides (.refl ..) rfl

theorem setHatch_scalarStep (s : State) (k h : Nat) (v : Hatch) : ScalarStep d s (s.setHatch k h v) := .of_bides (setHatch_step ..) rfl

theorem modMe_scalarStep {f : Slot → Slot} (hf : s.mine.Bides (f s.mine)) : ScalarStep d s (s.modMe f) :=
  .of_bides (modSlot_step ..) (by rwa [State.mine_modMe])

theorem waitSlot_scalarStep (s : State) (w : Wait) : ScalarStep d s (waitSlot s s.me w) := modMe_scalarStep rfl
theorem jumpTo_scalarStep (s : State) (pc : Word) : ScalarStep d s (jumpTo s s.me pc) := modMe_scalarStep rfl

theorem setX_scalarStep (s : State) (rd : RegField) (v : Word) : ScalarStep (.reg rd) s (s.modMe (fun t => t.setX rd.toNat v)) := by
  refine ⟨modSlot_step .., ?_, ?_⟩ <;> rw [State.mine_modMe]
  · exact setX_destFrame ..
  · exact setX_trapState ..

theorem setP_scalarStep (s : State) (pd : BitVec 3) (f : Slot → Bool) : ScalarStep (.pred pd) s (s.modMe (fun t => t.setP pd.toNat (f t))) := by
  refine ⟨modSlot_step .., ?_, ?_⟩ <;> rw [State.mine_modMe]
  · exact setP_destFrame ..
  · exact setP_trapState ..

/-- A trap keeps what the frame names, but for the trap state (R351). -/
theorem trap_destFrame (s : State) (k : Cause) (v : Word) : DestFrame d s.mine (trap s k v).mine := by
  obtain ⟨-, -, -, -, hx, -, hp, hv, hm, hflags, -⟩ :=
    trapSlot_records { s.slot s.me with held := [], reserve := none, pushing := none } (s.core (coreOf s.me)).stvec k s.mine.pc v
  rw [trap, trapAt_mine, trapAt_slot]
  exact ⟨fun r _ _ => by rw [Slot.xr, Slot.xr, hx]; rfl, fun p _ => by rw [Slot.pr_eq, Slot.pr_eq, hp]; rfl, hv, hm, hflags⟩

/-! How a part of a scalar instruction ends. -/

/-- A part goes on, or is over, with a state that keeps what the frame names, or it traps from such a state. -/
def Res.Frames {α : Type} (d : Dest) (s : State) (r : Res α) : Prop :=
  ScalarStep d s r.state ∨ ∃ s1 k v, ScalarStep d s s1 ∧ r = .stop (trap s1 k v)

theorem Res.Frames.bnd {α β : Type} {r : Res α} {f : α → State → Res β} (hr : r.Frames d s) (hf : ∀ a t, (f a t).Frames d t) :
    (r.bnd f).Frames d s := by
  cases r with
  | go a t =>
    have ht : ScalarStep d s t := hr.resolve_right (by rintro ⟨_, _, _, _, h⟩; cases h)
    rcases hf a t with h | ⟨s1, k, v, h, e⟩
    · exact .inl (ht.trans h)
    · exact .inr ⟨s1, k, v, ht.trans h, e⟩
  | stop t =>
    rcases hr with h | ⟨s1, k, v, h, e⟩
    · exact .inl h
    · exact .inr ⟨s1, k, v, h, congrArg Res.stop (Res.stop.inj e)⟩

/-- Of a test, both ways keep what the frame names. -/
theorem Res.Frames.ite {α : Type} {p : Prop} [Decidable p] {x y : Res α} (hx : x.Frames d s) (hy : y.Frames d s) : (if p then x else y).Frames d s := by
  split
  · exact hx
  · exact hy

theorem trapRes_frames {α : Type} (s : State) (k : Cause) (v : Word) : (trapRes s k v : Res α).Frames d s := .inr ⟨s, k, v, .refl d s, rfl⟩
theorem waitHere_frames {α : Type} (s : State) (w : Wait) : (waitHere s w : Res α).Frames d s := .inl (waitSlot_scalarStep s w)
theorem go_frames {α : Type} (a : α) (s : State) : (Res.go a s).Frames d s := .inl (.refl d s)

/-! Issue (R138, R140). -/

theorem popHeld_scalarStep (s : State) (h : Nat) : ScalarStep d s (popHeld s h) := by
  unfold popHeld
  dsimp only
  split
  · exact .refl d s
  · exact (setHatch_scalarStep ..).trans (modMe_scalarStep rfl)

theorem popsHeld_scalarStep (l : List RegField) (s : State) :
    ScalarStep d s (l.foldl (fun s r => if isHatch r then popHeld s (hatchNo r) else s) s) :=
  foldl_keeps (P := ScalarStep d s) (fun t r ht => by
    split
    · exact ht.trans (popHeld_scalarStep ..)
    · exact ht) l (.refl d s)

theorem takeHatches_scalarStep (s : State) (k : Issue) : ScalarStep d s (takeHatches s k) := by
  have h := popsHeld_scalarStep (d := d) k.srcs s
  unfold takeHatches
  dsimp only
  split
  · split
    · exact h.trans ((setHatch_scalarStep ..).trans (modMe_scalarStep rfl))
    · exact h
  · exact h

theorem takeOperandPlaces_frames (s : State) (k : Issue) : (takeOperandPlaces s k).Frames d s := by
  unfold takeOperandPlaces
  refine .ite (go_frames ..) (.ite (.ite (waitHere_frames ..) (go_frames ..)) ?_)
  split
  · exact trapRes_frames ..
  · exact .ite (waitHere_frames ..) (.ite (.inl (takeHatches_scalarStep ..)) (waitHere_frames ..))

theorem operands_frames (k : Issue) (s : State) : (operands k s).Frames d s := by
  unfold operands
  dsimp only
  split
  · exact trapRes_frames ..
  · exact go_frames ..

theorem issue_frames (i : Instr) (k : Issue) (s : State) : (issue i k s).Frames d s :=
  .ite (operands_frames ..) (.ite (trapRes_frames ..) (.ite (trapRes_frames ..) (.ite (trapRes_frames ..) (.ite (trapRes_frames ..)
    ((takeOperandPlaces_frames s k).bnd fun _ s1 => operands_frames k s1)))))

/-! Results (R164-R177). -/

/-- A register takes its result, and the slot goes on at any address. -/
theorem writeRd_jump_frames {rd : RegField} (hrd : rd.toNat < 32) (v : Word) (pc : State → Word) :
    ((writeRd s s rd v).bnd fun _ s1 => (.go () (jumpTo s1 s1.me (pc s1)) : Res Unit)).Frames (.reg rd) s := by
  rw [writeRd, if_neg (by simp [isHatch_eq_false.2 hrd])]
  exact .inl ((setX_scalarStep s rd v).trans (jumpTo_scalarStep ..))

theorem finish_frames {rd : RegField} (hrd : rd.toNat < 32) (v : Word) : (finish s s rd v).Frames (.reg rd) s :=
  writeRd_jump_frames hrd v _

theorem link_frames {rd : RegField} (hrd : rd.toNat < 32) (target : Word) : (link s rd target).Frames (.reg rd) s :=
  writeRd_jump_frames hrd _ _

theorem pass_frames (s : State) : (pass s).Frames d s := .inl (jumpTo_scalarStep ..)

theorem setP_pass_frames (s : State) (pd : BitVec 3) (f : Slot → Bool) : (pass (s.modMe (fun t => t.setP pd.toNat (f t)))).Frames (.pred pd) s :=
  .inl ((setP_scalarStep s pd f).trans (jumpTo_scalarStep ..))

/-- Every scalar instruction is its issue, and then its result and a jump. -/
theorem scalar_frames {i : Instr} (hi : scalarDest i = some d) (hd : ∀ rd, d = .reg rd → rd.toNat < 32) (s : State) :
    ∃ r : Res Unit, exec i s = r.outcome ∧ r.Frames d s := by
  cases i
  case add | sub | and | andn | or | xor | sll | srl | sra | rot | mul | mulh | mulhn | div | divn | rem | remn | min | max | minn | maxn | clz | ctz
      | popc | brev | bswap | csel | addi | andi | ori | xori | slli | srli | srai | roti | extS | extn | insF | lih | addpc | pget =>
    obtain rfl := Option.some.inj hi
    exact ⟨_, rfl, (issue_frames ..).bnd fun _ _ => finish_frames (hd _ rfl) _⟩
  case jal | jalr =>
    obtain rfl := Option.some.inj hi
    exact ⟨_, rfl, (issue_frames ..).bnd fun _ _ => link_frames (hd _ rfl) _⟩
  case cmp | cmpi | pand | por | pxor | pandn | pset =>
    obtain rfl := Option.some.inj hi
    exact ⟨_, rfl, (issue_frames ..).bnd fun _ _ => setP_pass_frames ..⟩
  case bp | bnp | cbz | cbnz =>
    obtain rfl := Option.some.inj hi
    exact ⟨_, rfl, (issue_frames ..).bnd fun _ _ => .ite (.inl (jumpTo_scalarStep ..)) (pass_frames _)⟩
  case nop =>
    obtain rfl := Option.some.inj hi
    exact ⟨_, rfl, (issue_frames ..).bnd fun _ _ => pass_frames _⟩
  -- no other instruction has such a destination
  all_goals cases hi

end Sys2Proof.Machine

open Sys2Proof Sys2Proof.Machine

/-- Settles O16: the instruction's end keeps what the frame names, trap state included, or is a trap from a state that does. -/
theorem scalarFrame : Obligations.ScalarFrame := by
  unfold Obligations.ScalarFrame
  intro i d s t hi hd ht
  obtain ⟨r, he, hr⟩ := scalar_frames hi hd s
  obtain rfl : r.state = t := Host.Outcome.next.inj (he.symm.trans ht)
  rcases hr with ⟨hs, hf, htrap⟩ | ⟨s1, k, v, ⟨hs1, hf1, -⟩, rfl⟩
  · exact ⟨hf.regs, hf.preds, hf.vectors, hf.masks, hf.vflags, hs.mem, hs.tags, hs.reqs, hs.slots, .inr htrap⟩
  · have hs := hs1.trans (hs1.me ▸ trap_step s1 k v)
    have hf := hf1.trans (trap_destFrame s1 k v)
    exact ⟨hf.regs, hf.preds, hf.vectors, hf.masks, hf.vflags, hs.mem, hs.tags, hs.reqs, hs.slots, .inl ⟨s1, k, v, rfl⟩⟩

end
